-- ==== Sys2Proof/Word.lean ====
section
/-!
DEFINITION. The word types of the model: a byte, a 32-bit register, and the plainest reading of a
little-endian byte string (R9). Everything a test could show wrong stands under Machine/.
-/

namespace Sys2Proof

/-- One byte of a host window, a message or an object. -/
abbrev Byte := BitVec 8

/-- One 32-bit register of BAR0 or BAR2 (CN.3). -/
abbrev Word := BitVec 32

end Sys2Proof
end

