-- ==== Sys2Proof/Syntax.lean ====
section
/-!
DEFINITION. The commands of the OD4096: one constructor of Instr for each row of the table of
operations and events, with the operands that the rule of the row gives it. A command is what
reaches the controller from outside or what the table lists as one whole step inside it.
-/

namespace Sys2Proof

/-- The two PCIe ports (CN.2). -/
inductive Port where
  | a
  | b
  deriving DecidableEq, Repr

/-- The three requesters of R89. -/
inductive Req where
  | linkA
  | linkB
  | sideband
  deriving DecidableEq, Repr

/-- The two delivery classes (R28, R319). -/
inductive Cls where
  | normal
  | fast
  deriving DecidableEq, Repr

/-- The island types of Table PG-1. -/
inductive IslandKind where
  | gather
  | storeBank
  | rank
  | delivery
  | queue
  | translation
  | mirror
  | ledger
  | link
  | management
  | keeper
  deriving DecidableEq, Repr

/-- One island: its type and its number within the type (R14). -/
structure Island where
  kind : IslandKind
  idx : Nat
  deriving DecidableEq, Repr

/-- Two chips of one bit cell of a Sill frame, in order of transmission; true is a high chip (R223). -/
abbrev Chips := Bool × Bool

/-- A Sill frame as received (WS.4): the 32 chips of its SYNC, the chips of its cells from cell 16
on, and where the next sync was found, counted in cells from the start of this frame. -/
structure SillFrame where
  sync : BitVec 32
  cells : List Chips
  nextSync : Option Nat
  deriving DecidableEq, Repr

/-- A posted memory write received on a port: the offset within its window, its bytes and its byte
enables, one for each byte. -/
structure HostWrite where
  offset : Nat
  data : List Byte
  enables : List Bool
  deriving DecidableEq, Repr

/-- The register windows of Table CN-2 that hold 32-bit registers. -/
inductive Window where
  | bar0
  | bar2
  deriving DecidableEq, Repr

/-- How a read that the controller made of host memory ended, its timeout apart (R521, R533). -/
inductive HostRead where
  | data (bytes : List Byte)
  | unsupportedRequest
  | completerAbort
  | poisoned
  deriving DecidableEq, Repr

/-- Which read of host memory timed out (R522): a ring fetch of a queue's slot, the data read of a
queue's item, or the page-table read of a walk of a Translation island. -/
inductive HostReadId where
  | ringFetch (q : Fin 256) (slot : Nat)
  | itemRead (q : Fin 256)
  | walkRead (island : Fin 4) (walk : Nat)
  deriving DecidableEq, Repr

/-- The event that resets a port (Table BU-1). A function-level reset has a row of its own. -/
inductive PortResetCause where
  | hotReset
  | perstAssert
  | linkDown
  deriving DecidableEq, Repr

/-- An MCTP packet of a message (R182): whether it starts and whether it ends the message, its sequence number, and its
payload. -/
structure MctpPacket where
  som : Bool
  eom : Bool
  seq : BitVec 2
  payload : List Byte
  deriving DecidableEq, Repr

/-- An MCTP message as received (DS.7): destination and source endpoint, message tag, the bus owner's slave address (in
SMBus mode, R175), and its packets. Byte 0 of the first payload holds the integrity-check bit and the message type. -/
structure MctpMsg where
  dest : Byte
  src : Byte
  tag : BitVec 3
  slave : BitVec 7
  packets : List MctpPacket
  deriving DecidableEq, Repr

/-- The bytes of the message: its packets' payloads in order. -/
def MctpMsg.bytes (m : MctpMsg) : List Byte := m.packets.flatMap MctpPacket.payload

/-- Where an MCTP request came from and what its response must carry: destination and source endpoint, message tag
(R191), and the bus owner's slave address in SMBus mode (R175). -/
structure MctpFrom where
  dest : Byte
  src : Byte
  tag : BitVec 3
  slave : BitVec 7
  deriving DecidableEq, Repr

/-- An SPDM request received on message type 0x05: its version, its two parameters and what follows its
header (SD.3.3). The row gives its request code. -/
structure SpdmReq where
  via : MctpFrom
  version : Byte
  param1 : Byte
  param2 : Byte
  body : List Byte
  deriving DecidableEq, Repr

/-- Where power stood when a Storm sequence ended (DU.6.4): both copies written, lost before any word of the
root was written, lost while its first copy was, or lost between the copies. -/
inductive StormEnd where
  | complete
  | lostBeforeRoot
  | lostBeforeFirstCopy
  | lostBetweenCopies
  deriving DecidableEq, Repr

/-- How the verification of a slot write ended (R638, R654): its retries, whether the third failed too, and whether an
uncorrectable word was met. -/
structure WriteCheck where
  retries : Nat
  failed : Bool
  uncorrectable : Bool
  deriving DecidableEq, Repr

/-- A verification at the first read. -/
def WriteCheck.clean : WriteCheck := { retries := 0, failed := false, uncorrectable := false }

/-- What the surroundings give a Storm sequence (DU.6): VHOLD at step 2 in units of 10 mV, the write
retries of each channel that needed any, the lines whose slot failed its third retry (R638), the time to the first
copy's start in microseconds, and where power ended. -/
structure StormInput where
  vhold10mV : Nat
  retries : List (Fin 8 × Nat)
  failed : List Nat
  captureUs : Nat
  ending : StormEnd
  deriving DecidableEq, Repr

/-- An error that the read of a line's slot meets (R598): the word, 0 to 7 of data, 8 of parity, 9 the tag, and
whether it is more than one bit. -/
structure WordError where
  line : Nat
  word : Fin 10
  double : Bool
  deriving DecidableEq, Repr

/-- What a Keeper release finds (SD.3.1, DU.7, R776): the supplies and the reference, VHOLD in mV,
which copies of the Keeper's store fail their check, which root places hold an uncorrectable word
(copy A places 0 and 1, copy B places 0 and 1; in header bytes 0 to 63, or elsewhere), how the two copies of one root
differ, and the errors that the reads of the slots meet. -/
structure BootInput where
  supplies : Bool
  reference : Bool
  vholdMv : Nat
  storeBadA : Bool
  storeBadB : Bool
  badPlaces : List (Fin 4 × Bool)
  benignBytes : Nat
  conflict : Bool
  errors : List WordError
  deriving DecidableEq, Repr

/-- The commands: one constructor per row of the table, in the table's order. -/
inductive Instr where
  | coldPowerOn
  | strapSample (straps : BitVec 5)
  | vddAuxLoss
  | vddCoreLoss
  | pgoodAssert
  | pgoodDeassert (storm : StormInput)
  | keeperRelease (boot : BootInput)
  | recoveryComplete
  | pwrwarnAssert
  | pwrwarnDeassert
  | pwrfail (storm : StormInput)
  | stormRestart (boot : BootInput)
  | krst
  | keeperResetCapture (req : Req) (key : BitVec 16) (storm : StormInput)
  | keeperResetDiscard (req : Req) (key : BitVec 16)
  | portReset (port : Port) (cause : PortResetCause)
  | flr (port : Port)
  | d3hotEntry (port : Port)
  | lockLoss (island : Island)
  | lockReturn (island : Island)
  | lockTimeout (island : Island)
  | pinQualify (pin : Fin 512) (level : Bool)
  | sillFrame (lane : Fin 56) (frame : SillFrame)
  | laneTimeout (lane : Fin 56)
  | lineConfigWrite (req : Req) (line : Fin 4096) (record : List Byte)
  | laneControlWrite (req : Req) (lane : Fin 56) (record : List Byte)
  | letterboxSingleWrite (port : Port) (requester : BitVec 16) (write : HostWrite)
  | letterboxDoubleWrite (port : Port) (requester : BitVec 16) (write : HostWrite)
  | intakeForward (port : Port) (gather : Fin 64)
  | stateUpdate (gather : Fin 64)
  | selection (rank : Fin 16)
  | offer (delivery : Fin 64)
  | retraction (delivery : Fin 64)
  | deliver (tn : Fin 4096) (cls : Cls)
  | outboundIssue (port : Port)
  | claimRead (port : Port) (tn : Fin 4096) (cls : Cls)
  | bankClaim (bank : Fin 32)
  | claimAnswer (delivery : Fin 64)
  | eoi (port : Port) (tn : Fin 4096) (cls : Cls) (value : Word)
  | bankEoi (bank : Fin 32)
  | thresholdWrite (req : Req) (tn : Fin 4096) (cls : Cls) (value : Word)
  | louvreWrite (req : Req) (tn : Fin 4096) (cls : Cls) (value : Word)
  | louvreExpiry (tn : Fin 4096) (cls : Cls)
  | targetControlWrite (req : Req) (tn : Fin 4096) (value : Word)
  | targetReset (port : Port) (tn : Fin 4096) (value : Word)
  | watchdogExpiry (tn : Fin 4096) (cls : Cls)
  | shutterClose (req : Req)
  | shutterOpen (req : Req)
  | sourceMask (req : Req) (sn : BitVec 24)
  | sourceUnmask (req : Req) (sn : BitVec 24)
  | maskConfirmRead (port : Port)
  | syncRead (port : Port)
  | rcRead (port : Port) (window : Window) (offset : Nat) (length : Nat := 4)
  | mgmtEventRead (port : Port)
  | mgmtEnableWrite (port : Port) (value : Word)
  | mgmtVectorSend (port : Port) (enable : Bool := true) (funcMask : Bool := false)
  | deadboltSet (req : Req) (value : Word)
  | ignCountClr (req : Req) (value : Word)
  | registerWrite (port : Port) (window : Window) (write : HostWrite)
  | hatchClaim (port : Port) (tag : BitVec 16)
  | hatchRefresh (port : Port) (tag : BitVec 16)
  | hatchRelease (port : Port) (tag : BitVec 16)
  | hatchRead (port : Port)
  | hatchWrite (port : Port)
  | hatchReadClear (port : Port)
  | hatchComplete
  | hatchDone (port : Port)
  | hatchTimeout
  | mctpMessage (msg : MctpMsg)
  | get
  | set
  | getClear
  | describe
  | release
  | sidebandHatchWaitExpiry
  | responseDelivered
  | setEndpointId (via : MctpFrom) (inst : BitVec 5) (eid : Byte)
  | getEndpointId (via : MctpFrom) (inst : BitVec 5)
  | getEndpointUuid (via : MctpFrom) (inst : BitVec 5)
  | getMctpVersionSupport (via : MctpFrom) (inst : BitVec 5) (type : Byte)
  | getMessageTypeSupport (via : MctpFrom) (inst : BitVec 5)
  | getVendorDefinedMessageSupport (via : MctpFrom) (inst : BitVec 5) (selector : Byte)
  | entdaa (address : BitVec 7)
  | setdasa (static : BitVec 7) (address : BitVec 7)
  | setnewda (address : BitVec 7)
  | rstdaa
  | rstact
  | enec (events : Byte)
  | disec (events : Byte)
  | setmwl (length : BitVec 16)
  | setmrl (length : BitVec 16)
  | getmwl
  | getmrl
  | getpid
  | getbcr
  | getdcr
  | getstatus
  | getmxds
  | hotJoin
  | smbclkTimeout
  | smbusRetry (packet : Nat := 0)
  | vddioLoss
  | getVersion (request : SpdmReq)
  | getCapabilities (request : SpdmReq)
  | negotiateAlgorithms (request : SpdmReq)
  | getDigests (request : SpdmReq)
  | getCertificate (request : SpdmReq)
  | challenge (request : SpdmReq)
  | getMeasurements (request : SpdmReq)
  | imageStageData (req : Req) (data : List Byte)
  | imageVerify (req : Req)
  | imageApply (req : Req)
  | imageApplyEnd
  | imageDiscard (req : Req)
  | imageStageTimeout
  | sourceConfigWrite (req : Req) (sn : BitVec 24) (record : List Byte)
  | raise (req : Req) (sn : BitVec 24)
  | withdraw (req : Req) (sn : BitVec 24)
  | targetRoomWrite (req : Req) (tn : BitVec 24) (room : Byte)
  | roomReachWrite (req : Req) (room : Fin 16) (mask : BitVec 16)
  | queueProdWrite (port : Port) (q : Fin 256) (value : Word)
  | pollTick (q : Fin 256)
  | ringFetchComplete (q : Fin 256) (slot : Nat) (result : HostRead)
  | engineServe (island : Fin 16)
  | completionWrite (q : Fin 256)
  | queueEnable (req : Req) (q : Fin 256) (evtIdle : Bool)
  | queueDisable (req : Req) (q : Fin 256) (evtIdle : Bool)
  | queueConfigWrite (req : Req) (q : Fin 256) (value : Word)
  | invalidate (port : Port) (q : Fin 256)
  | resume (port : Port) (q : Fin 256)
  | retract (port : Port) (q : Fin 256)
  | zeroIndex (port : Port) (q : Fin 256)
  | entryWindowCommit (port : Port) (q : Fin 256) (value : Word)
  | entryWindowSnapshot (port : Port) (q : Fin 256)
  | ipiMulticast (q : Fin 256)
  | routeBatch (q : Fin 256)
  | swing (q : Fin 256)
  | swingCommit
  | swingFoldEnd
  | timerArm (q : Fin 256)
  | timerCancel (q : Fin 256)
  | timerExpiry (timer : Fin 256)
  | ledgerAppend (q : Fin 256)
  | fence (q : Fin 256)
  | hostStore (q : Fin 256)
  | checkpoint (q : Fin 256)
  | roomReassign (q : Fin 256)
  | xlateInvalidate (q : Fin 256)
  | hostReadComplete (q : Fin 256) (result : HostRead)
  | hostReadTimeout (read : HostReadId)
  | walkReadComplete (island : Fin 4) (walk : Nat) (result : HostRead)
  | xlateInv (port : Port) (value : Word)
  | invalidateRange (req : Req) (record : List Byte)
  | invalidationFence
  | flConsume (req : Req) (value : Word)
  | bar4Write (port : Port) (write : HostWrite)
  | bar4Read (port : Port) (offset : Nat) (length : Nat)
  | ledgerFenceRead (port : Port)
  | piecePersist (island : Fin 4)
  | ledgerCopy (island : Fin 4)
  | pageMove (island : Fin 4) (logical : Fin 4096) (physical : Fin 4352)
  | pageRetire (island : Fin 4) (logical : Fin 4096) (physical : Fin 4352)
  | mirrorWrite (channel : Fin 8) (line : Nat) (check : WriteCheck := .clean)
  | dirtyBudgetWrite (req : Req) (value : Word)
  | autoCheckpoint
  | cutToken (island : Island)
  | rootCommit
  | mirrorDisable (req : Req)
  | mirrorEnable (req : Req)
  | ceilingWrite (req : Req) (value : Word)
  | islandDoze (island : Island)
  | islandRetain (island : Island)
  | islandWake (island : Island)
  | newNonce (req : Req)
  | setState (req : Req) (arg : Byte)
  | debug (req : Req) (arg : Byte)
  | authNone (req : Req)
  | nonceExpiry (req : Req)
  | tamper (temperature : Bool)
  | zeroizeDone
  | hydapAccess (dr : BitVec 40)
  | peek
  | halt
  | dapRelease
  | scanEnter
  | scanExit
  | extest
  | extestPulse
  | extestTrain
  | samplePreload
  | idcode
  | bypass
  | hydap
  | hyscan
  | intxMessage (port : Port) (assert : Bool)
  | bootRomVerify (isMatch : Bool)
  | transitionRecord
  | busMasterEnableWrite (port : Port) (value : Bool)
  | d3hotExit (port : Port)
  | perstDeassert (port : Port)
  | linkUp (port : Port)
  | creditWaitOver (port : Port)
  | tjExcursion (outside : Bool)
  | holdupLow (low : Bool)
  deriving DecidableEq, Repr

end Sys2Proof
end

