-- ==== Sys2Proof/Config.lean ====
section
/-!
DEFINITION. What an implementation fixes and what the manual leaves open: constants without a
body, so that nothing in Lean can evaluate them and a claim holds whatever they are.
-/

namespace Sys2Proof.Config

/-- The index of a line within its Store bank for the object numbered by its kind and its number
within the kind: the manual gives the bank (R51, R52, R404, R551) and no layout within it. -/
opaque lineIndex : Nat → Nat → Nat

/-- Which entry of a full walk cache makes room for a new one (Table TF-3 gives no replacement rule):
the cache's number and the value of the free-value counter. -/
opaque cacheVictim : Nat → Nat → Nat

/-- DeviceSerial, unique to each controller (R710). -/
opaque deviceSerial : BitVec 64

/-- 1 for OD4096-FB1936-XT, 0 for OD4096-FB1936 (Table CN-8). -/
opaque xt : Bool

/-- Hysura's IANA enterprise number, four bytes, most significant first (Table DS-5). -/
opaque ianaNumber : BitVec 32

/-- Hysura's MIPI manufacturer ID, 15 bits (R829). -/
opaque mipiManufacturer : BitVec 15

/-- The endpoint's UUID, 16 bytes, answered to Get Endpoint UUID (R179). -/
opaque endpointUuid : BitVec 128

/-- The SHA-384 digest of the Management boot ROM (R705, Table SD-9). -/
opaque bootRomDigest : List Byte

/-- The certificate chain of slot 0 (R710). -/
opaque certificateChain : List Byte

/-- The signature the device identity key makes over a message (R709, R713): 96 bytes by the key
and the value of the free-value counter. -/
opaque identitySignature : List Byte → Nat → List Byte

/-- 32 bytes of the Keeper's entropy source (R701), by the free-value counter. -/
opaque entropy : Nat → BitVec 256

/-- The die temperature in units of 0.1 K that DieTemperature reads, by the free-value counter. -/
opaque dieTemperature : Nat → BitVec 16

/-- The two bytes that GETSTATUS answers, by the free-value counter (Table DS-4 names the CCC and states no
value). -/
opaque i3cStatus : Nat → BitVec 16

/-- The third byte that GETMRL answers for a target whose IBI carries a payload (the manual states none). -/
opaque i3cIbiLength : BitVec 8

/-- The seven low bits of the value type of measurement blocks 4 to 6 (Table SD-9 says raw bit stream
only). -/
opaque measurementType : Nat → BitVec 7

/-- The byte of measurement block 2 that says that a transition is pending (Table SD-9 gives no code). -/
opaque pendingTransition : BitVec 8

/-- The two bytes that GETMXDS answers (Table DS-4 names the CCC and states no value). -/
opaque i3cMaxDataSpeed : BitVec 16

/-- The boundary-scan register's content as shifted out (Table SD-14 gives no cell order). -/
opaque boundaryScan : Nat → BitVec 32

/-- The internal scan chains' content as shifted out (R745 gives no order of the cells). -/
opaque scanChain : Nat → BitVec 32

/-- The endurance left in an island of the Ledger, in percent, after its line writes (R593 gives
no formula for LedgerLife). -/
opaque ledgerLife : Nat → Nat → Nat

/-- A number that the manual leaves open, by the free-value counter (log entry 7 lists its uses). -/
opaque freeNat : Nat → Nat

end Sys2Proof.Config
end

