-- ==== Sys2Proof/Machine/State.lean ====
section
/-!
DEFINITION. The state of the controller as plain data: every register, record, FIFO, buffer,
counter and mode the manual names, what is durable and what is not, the outputs of the last
command, and the queue of commands that wait. Numbers that name things (SN, TN, queue, line) are
natural numbers here; a map is a list of pairs in rising key order that lists no default value.
-/

namespace Sys2Proof.Machine

open Sys2Proof

/-- A finite map in canonical form: keys strictly rising, no entry equal to its default. -/
abbrev SMap (α : Type) := List (Nat × α)

/-- One copy per port (R87). -/
structure Per2 (α : Type) where
  a : α
  b : α
  deriving DecidableEq, Repr

/-- One copy per requester (R110, R820). -/
structure Per3 (α : Type) where
  a : α
  b : α
  sb : α
  deriving DecidableEq, Repr

/-! ### Sources and targets (PK, DL) -/

/-- STATE of a source record (Table PK-2). -/
inductive SrcState where
  | idle
  | pending
  | active
  deriving DecidableEq, Repr

/-- A source record (Table PK-2), its mask bit (DL.6) and its note queue (LB.5). AGE is kept as the
value `ageBase` of its target's claim counter when AGE was last 0 (R316). `carried` says that the
delivery claimed carried the head note, whose slot the EOI frees (R276); `noteHead` counts the notes freed, so that
note k of the queue is the (noteHead + k)-th that the source was given. -/
structure Source where
  state : SrcState
  rearm : Bool
  level : Bool
  noteLost : Bool
  target : Option Nat
  priority : Nat
  cls : Cls
  room : Nat
  holder : Option (Nat × Cls)
  ageBase : Nat
  mask : Bool
  carried : Bool
  noteHead : Nat
  notes : List (List Byte)
  deriving DecidableEq, Repr

/-- FlushState of a target (Table DU-7). -/
inductive Flush where
  | notMember
  | waiting
  | done
  | hung
  | reset
  deriving DecidableEq, Repr

/-- A target's record and its binding objects (Tables DL-1, DL-8, DL-18, DU-7). ENABLE is volatile:
recovery's target reset and first boot leave it 0 (R824). `warnArmed` says that the warning's raise
was applied, `warnClaimed` that a claim of it was accepted since (R625). -/
structure Target where
  room : Nat
  port : Port
  enable : Bool
  paneEnN : Bool
  paneEnF : Bool
  wdogEnN : Bool
  wdogEnF : Bool
  paneN : Nat
  paneF : Nat
  wakeNAddr : Nat
  wakeNData : Word
  wakeFAddr : Nat
  wakeFData : Word
  fallback : Option Nat
  thrN : Nat
  thrF : Nat
  louvreN : Nat
  louvreF : Nat
  warnMember : Bool
  flush : Flush
  warnArmed : Bool
  warnClaimed : Bool
  deriving DecidableEq, Repr

/-- The claim of a source's delivery, and what the delivery carries (R349, Table DL-11). -/
structure OfferData where
  sn : Nat
  priority : Nat
  room : Nat
  noteLost : Bool
  note : Option (List Byte)
  deriving DecidableEq, Repr

/-! ### Wired lines (WS) -/

/-- PinConfig (Table WS-7). -/
structure PinCfg where
  mode : Nat
  filter : Nat
  deriving DecidableEq, Repr

/-- LaneControl (Table WS-8). -/
structure LaneCfg where
  enable : Bool
  invert : Bool
  gapEdge : Bool
  stalePolicy : Nat
  timeout : Nat
  deriving DecidableEq, Repr

/-- STATE of a lane (Table WS-3). -/
inductive LaneState where
  | off
  | hunting
  | locked
  | stale
  deriving DecidableEq, Repr

/-- A lane's receiver: its held values, what the first applied frame after OFF, STALE or recovery owes (R242,
R251, R257), the good frame that would precede lock (R233), the flags' three copies and the counters. -/
structure Lane where
  state : LaneState
  lastSeq : Nat
  held : BitVec 64
  fromOff : Bool
  fromStale : Bool
  fromRecovery : Bool
  goodSeq : Option Nat
  resync : Bool
  enforced : Bool
  lastApplied : Nat
  pendingCtl : Option LaneCfg
  flags : Per3 (BitVec 8)
  framesApplied : Nat
  crcErrors : Nat
  codeErrors : Nat
  shortFrames : Nat
  longFrames : Nat
  framesMissed : Nat
  duplicates : Nat
  timeouts : Nat
  deriving DecidableEq, Repr

/-! ### Work queues and items (WQ, WI) -/

/-- How an item ended: its completion code, RESULT and STEP (R434, R454). -/
structure Ending where
  code : Nat
  result : List Byte
  step : Nat
  deriving DecidableEq, Repr

/-- What a taken item waits for. With its island's engine, inside a step (R431): its translation, its read, for its
earlier items to complete (`earlier`, R496, R500), its port (`port`, R448), or the banks that its read's records change
(`arrived`, R603); `readLost` marks a read whose completion a port reset discards, so that only its timeout ends it
(R771). Without the engine: the rest. -/
inductive ItemWait where
  | nothing
  | translation
  | read
  | readLost
  | arrived (bytes : List Byte)
  | port
  | earlier
  | staging
  | pieces
  | raises
  | root
  | fence (n : Nat)
  | write
  deriving DecidableEq, Repr

/-- A taken item: its context in the Queue island (R426), durable with its progress (R450). `step` is
the last step it began (0 before the first), `issued` says that the step which releases the queue
has been issued (R455), `held` that its completion is held (R544, R545), `recovered` that a power failure left it
(R450), `short` that some byte of an append had not reached its Ledger island at the cut (Table WI-14). -/
structure Item where
  slot : Nat
  entry : List Byte
  step : Nat
  issued : Bool
  wait : ItemWait
  pos : Nat
  count : Nat
  applied : Nat
  refused : Nat
  lastSn : Option Nat
  data : List Byte
  pieces : Nat
  clamped : Bool
  denied : Bool
  ending : Option Ending
  held : Bool
  recovered : Bool
  short : Bool
  deriving DecidableEq, Repr

/-- STATE of a queue (Table WQ-3). -/
inductive QState where
  | disabled
  | running
  | draining
  | stopped
  deriving DecidableEq, Repr

/-- The durable part of a queue: its configuration, indices and taken items (R449, R450). -/
structure Queue where
  evtIdleEn : Bool
  sizeLog2 : Nat
  modeC : Bool
  onchip : Bool
  port : Port
  room : Nat
  onchipKib : Nat
  interval : Nat
  ringBase : Nat
  prod : Nat
  cons : Nat
  take : Nat
  items : List Item
  deriving DecidableEq, Repr

/-- A record of the Fault Ledger (Table TF-11). -/
structure FaultRec where
  type : Nat
  path : Nat
  held : Bool
  abandoned : Bool
  room : Nat
  iova : Nat
  level : Nat
  queue : Option Nat
  index : Nat
  tn : Option Nat
  cls : Cls
  step : Nat
  epoch : Nat
  sequence : Nat
  image : List Byte
  tag : Nat
  kind : Nat
  deriving DecidableEq, Repr

/-- An entry fetched and not yet taken, owned or unowned (WQ.4); `fault` is the held fault of R843. -/
structure Fetched where
  slot : Nat
  owned : Bool
  bytes : List Byte
  fault : Option (Nat × Nat)
  deriving DecidableEq, Repr

/-- A ring-entry fetch outstanding: `sent` once its read was passed to the Link island, issued at `readAt` (R522); a
dropped one is discarded on arrival (WQ.11). -/
structure Fetch where
  slot : Nat
  owned : Bool
  sent : Bool
  dropped : Bool
  readAt : Option Nat
  deriving DecidableEq, Repr

/-- The volatile part of a queue: state, fetch window, events, stop registers, window staging. `idleOwed` says that a
drain has ended and the queue is not yet idle (R441); `readAt` is when its item's read was issued (R522). -/
structure QVol where
  state : QState
  recovered : Bool
  idleOwed : Bool
  readAt : Nat
  sampled : Nat
  lastTick : Nat
  window : List Fetched
  fetches : List Fetch
  specBlocked : List Nat
  event : Per3 (BitVec 3)
  stopIndex : Nat
  stopCause : Nat
  invalIndex : Nat
  invalValid : Bool
  itemsDone : Nat
  refetches : Nat
  specFaults : Nat
  waitTime : Nat
  entrySlot : Per2 Nat
  staging : Per2 (List Word)
  latch : Per2 (List Word)
  deriving DecidableEq, Repr

/-- A timer (WI.6): its next raise and, if periodic, its period, both in nanoseconds of `State.now`. -/
structure Timer where
  due : Nat
  period : Option Nat
  deriving DecidableEq, Repr

/-- A route record's named fields (Table WI-4), also a staged shadow route (R476). -/
structure Route where
  sn : Nat
  target : Option (Option Nat)
  priority : Option Nat
  cls : Option Cls
  room : Option Nat
  mask : Option Bool
  deriving DecidableEq, Repr

/-- The Swing staging area (R475): the Swing that holds it, the routes staged, and whether the
boundary has passed and the fold runs. -/
structure Swing where
  owner : Option (Nat × Nat)
  waiting : List (Nat × Nat)
  staged : List Route
  folding : Bool
  deriving DecidableEq, Repr

/-- XlateRoot and XlateControl of a Room (Table TF-10). -/
structure XlateRoom where
  root : Nat
  enable : Bool
  walkPort : Port
  deriving DecidableEq, Repr

/-- LedgerHostMirror (Table LG-5). -/
structure HostMirror where
  enable : Bool
  port : Port
  room : Nat
  first : Nat
  count : Nat
  base : Nat
  deriving DecidableEq, Repr

/-- A line of the durable region: its bank and its index within the bank (R595). -/
structure Line where
  bank : Nat
  idx : Nat
  deriving DecidableEq, Repr

/-- The IMG and DUR objects that stand alone (the global ones). `warnRaised` is the channel whose sources the last
power warning raised (R625). -/
structure Globals where
  linkARooms : BitVec 16
  linkBRooms : BitVec 16
  sbHatchWait : Nat
  roomEnable : BitVec 16
  noteLimit : Nat
  reach : List (BitVec 16)
  wdogN : Nat
  wdogF : Nat
  eoiRaise : Bool
  crcEnforce : BitVec 64
  faultRaise : Bool
  mirrorEnable : Bool
  dirtyBudget : Nat
  autoCheckpoint : Nat
  warnEnable : Bool
  warnChannel : Nat
  ceiling : Nat
  dozeDelay : Nat
  retainDelay : Nat
  hostMirror : HostMirror
  imageLastSequence : Nat
  imageLastDigest : List Byte
  epoch : Nat
  lastRootEpoch : Nat
  rootBenign : Nat
  stormCount : Nat
  vholdAtStorm : Nat
  flushDone : Bool
  warnRaised : Nat
  deriving DecidableEq, Repr

/-- The Fault Ledger (TF.8). -/
structure FaultLedger where
  recs : SMap FaultRec
  head : Nat
  tail : Nat
  count : Nat
  sequence : Nat
  overflow : Nat
  deriving DecidableEq, Repr

/-- A state-update request waiting at a Gather island (R211, R270, R293). -/
inductive Event where
  | letterbox (port : Port) (requester : BitVec 16) (offset : Nat) (sn : Nat) (room : Nat)
      (note : Option (List Byte))
  | wired (sn : Nat) (assert : Bool) (level : Bool)
  | raise (sn : Nat)
  | warn (sn : Nat)
  | ipi (sn : Nat) (queue : Nat) (slot : Nat)
  deriving DecidableEq, Repr

/-- The durable state (DU.1, GU.1): what a root names and recovery restores. `owed` holds the raises
in flight whose cause is durable (R634), `lost` the lines restored as zeros (R648). -/
structure Durable where
  sources : SMap Source
  targets : SMap Target
  claims : SMap Nat
  pins : SMap PinCfg
  lanes : SMap LaneCfg
  lines : SMap Nat
  queues : SMap Queue
  ring : List Host.Cell
  timers : SMap Timer
  xlate : SMap XlateRoom
  segRooms : SMap Nat
  swing : Swing
  faults : FaultLedger
  g : Globals
  owedRaises : List Event
  lost : List Line
  deriving DecidableEq, Repr

/-! ### Events and transfers in flight (IH) -/

/-- A transfer on a channel (IH.2): the island that sent it, by its number among all 212; the epoch of the
checkpoint whose cut that island had taken when it sent it, 0 where it had taken none (R615); and the payload. -/
structure Sent (α : Type) where
  sender : Nat
  mark : Nat
  body : α
  deriving DecidableEq, Repr

/-- What a Rank island knows of a Pending source routed to one of its targets (Table PK-6, DL.3): its priority, Room
and mask, the claim count at which its AGE was 0, NOTE_LOST, and the head of its note queue. -/
structure Cand where
  priority : Nat
  room : Nat
  mask : Bool
  ageBase : Nat
  noteLost : Bool
  note : Option (List Byte)
  deriving DecidableEq, Repr

/-- An entry of a port's intake staging buffer (R283). -/
structure Staged where
  gather : Nat
  event : Event
  deriving DecidableEq, Repr

/-- A transfer on a Notify channel (Table IH-2, Table PK-6): a source is, or is no longer, Pending for a target and
class; the bank accepted an EOI for them (R335); or a claim answer, with the time of the bank's decision (R357,
R388). -/
inductive Notify where
  | change (tn : Nat) (cls : Cls) (sn : Nat) (cand : Option Cand)
  | done (tn : Nat) (cls : Cls) (sn : Nat)
  | answer (tn : Nat) (cls : Cls) (sn : Nat) (accepted : Bool) (noteLost : Bool) (at' : Nat)
  deriving DecidableEq, Repr

/-- A transfer on a Select channel: a selection, a retraction, a claim answer, or the end of the source that the
class held, which follows the answer's way (R334, R335, R357). -/
inductive Select where
  | select (tn : Nat) (cls : Cls) (offer : OfferData)
  | retract (tn : Nat) (cls : Cls)
  | done (tn : Nat) (cls : Cls) (sn : Nat)
  | answer (tn : Nat) (cls : Cls) (sn : Nat) (accepted : Bool) (noteLost : Bool) (at' : Nat)
  deriving DecidableEq, Repr

/-- A request on a Claim channel (R356, R362). -/
inductive ClaimReq where
  | claim (tn : Nat) (cls : Cls) (sn : Nat) (note : Bool)
  | eoi (tn : Nat) (cls : Cls) (sn : Nat)
  deriving DecidableEq, Repr

/-- A selection slot of a Rank island (Table PK-5). -/
inductive RankSlot where
  | empty
  | offered (sn : Nat)
  | holding (sn : Nat)
  deriving DecidableEq, Repr

/-- A Pane translation latch (R61): the page and the frame it maps. -/
structure Latch where
  page : Nat
  frame : Nat
  deriving DecidableEq, Repr

/-- How far the held offer's delivery has come (R350, R358). -/
inductive OfferStage where
  | waiting
  | translating
  | issued (pane : Bool)
  deriving DecidableEq, Repr

/-- Who waits for a 32-bit read: the port, and the first byte and the number of bytes of the word that its read asked
for (R91). -/
structure Reader where
  port : Port
  first : Nat
  count : Nat
  deriving DecidableEq, Repr

/-- An access that cannot act yet (R44, R82, R93, R94, R603): a 32-bit read, a whole or partial 32-bit write, a
posted write to a Letterbox page, a write of an object, or the end of a read of host memory. -/
inductive Access where
  | read (w : Window) (off first count : Nat)
  | write (w : Window) (off v : Nat)
  | part (w : Window) (off : Nat)
  | letterbox (requester : BitVec 16) (write : HostWrite)
  | dict (index sub e : Nat) (bytes : List Byte)
  | hostRead (read : HostReadId) (result : HostRead)
  deriving DecidableEq, Repr

/-- What a Delivery island holds for one target and class (R349, R352, R356, R378, R388): the offer,
its stage, whether an earlier offer's Pane write was issued (REPLACED), the claim reads that
wait in order, the replacement or retraction held meanwhile, the source held Active, SEQ, the time
of the last wake write, the time the watchdog has run from, and the Pane latch. `accepted` says that
the bank accepted the claim whose read still waits for the Pane write's translation: NOTE_LOST, and
whether the wake write is due (R358). `descr` names the descriptor built for the offer, by the port it leaves
through and its number; `wakeBefore` is the time of the wake write before that descriptor's; `expired` says that
the watchdog completed the source while its claim read still waited (R390). -/
structure DSlot where
  offer : Option OfferData
  stage : OfferStage
  replaced : Bool
  paneIssued : Bool
  claiming : Option Reader
  accepted : Option (Bool × Bool)
  claimQ : List Reader
  heldSel : Option Select
  holding : Option Nat
  seq : BitVec 32
  lastWake : Option Nat
  wdog : Option Nat
  latch : Option Latch
  faulted : Bool
  descr : Option (Port × Nat)
  wakeBefore : Option Nat
  expired : Bool
  deriving DecidableEq, Repr

/-- A request of the controller passed to a Link island and not yet issued on the link. -/
inductive LinkReq where
  | delivery (id : Nat) (tn : Nat) (cls : Cls) (sn : Nat) (pane : Option (Nat × List Byte))
      (wake : Option (Nat × Word))
  | completion (q : Nat) (slot : Nat) (step : Nat) (tag : Nat) (kind : Nat) (iova : Nat) (addr : Nat)
      (bytes : List Byte)
  | hostStore (q : Nat) (slot : Nat) (tag : Nat) (kind : Nat) (iova : Nat) (addr : Nat)
      (bytes : List Byte)
  | itemRead (q : Nat) (slot : Nat) (iova : Nat) (addr : Nat) (len : Nat)
  | ringFetch (q : Nat) (slot : Nat) (addr : Nat)
  | ledgerCopy (island : Nat) (line : Nat) (addr : Nat) (bytes : List Byte)
  deriving DecidableEq, Repr

/-! ### Translation (TF) -/

/-- For what a translation is requested: the path of Table TF-7 and who waits. -/
inductive Use where
  | ringFetch (q : Nat) (slot : Nat) (owned : Bool)
  | completion (q : Nat) (slot : Nat)
  | itemRead (q : Nat) (slot : Nat) (len : Nat)
  | hostStore (q : Nat) (slot : Nat)
  | pane (tn : Nat) (cls : Cls)
  | ledgerCopy (island : Nat) (line : Nat)
  deriving DecidableEq, Repr

/-- A translation request that waits for the walk pipeline, or that a walk serves. -/
structure XReq where
  room : Nat
  iova : Nat
  write : Bool
  use : Use
  deriving DecidableEq, Repr

/-- A walk in progress (TF.1): its number, the level of the entry being read and the table's bus
address; `stale` says that an invalidation of its Room took effect since it began (R527), `dead` that a
port reset discards the completion of the read it awaits (R771). -/
structure Walk where
  id : Nat
  readAt : Nat
  req : XReq
  level : Nat
  table : Nat
  stale : Bool
  dead : Bool
  deriving DecidableEq, Repr

/-- An entry of a walk cache (Table TF-3): level 0 or 1 leaves, or a directory pointer. -/
structure Cached where
  room : Nat
  page : Nat
  target : Nat
  big : Bool
  r : Bool
  w : Bool
  deriving DecidableEq, Repr

/-- One Translation island: leaf and directory caches, walks in progress, requests that wait by
group, the next slot of the rotation of R62, the island of each group at which its round-robin starts (R62), and the
next walk's number. -/
structure XIsland where
  leaf : List Cached
  dir1 : List Cached
  dir2 : List Cached
  dir3 : List Cached
  walks : List Walk
  waitDelivery : List XReq
  waitQueue : List XReq
  waitLedger : List XReq
  rotation : Nat
  turnDelivery : Nat
  turnQueue : Nat
  turnLedger : Nat
  nextId : Nat
  deriving DecidableEq, Repr

/-- A fence not yet complete (R528): its number, Room, the walks it waits for and, for an item, the
queue and slot whose completion reports it. -/
structure Fence where
  number : Nat
  room : Nat
  walks : List (Nat × Nat)
  item : Option (Nat × Nat)
  deriving DecidableEq, Repr

/-- The translation globals: fences, XLATE_FENCE, the Room counters, and the records that wait for their bank's quota
(R551, R603). -/
structure Xlate where
  islands : SMap XIsland
  fences : List Fence
  issued : BitVec 16
  done : BitVec 16
  faultCount : SMap Nat
  walkCount : SMap Nat
  recIndex : Per3 Nat
  overflow : Per3 Bool
  new : Per3 Bool
  heldFaults : List FaultRec
  deriving DecidableEq, Repr

/-! ### Ledger (LG) -/

/-- A piece of the Ledger stream (R562, R568): its number in the order of entry, the number of the first piece of its
write, its port, its line, its bytes with their enables, the append it belongs to, and, once it is in its island, what
its line held before it and whether that was uncorrectable. -/
structure Piece where
  id : Nat
  write : Nat
  port : Port
  line : Nat
  data : List Byte
  enables : List Bool
  append : Option (Nat × Nat)
  old : List Byte
  oldBad : Bool
  deriving DecidableEq, Repr

/-- The Ledger and its islands. `mem` is the Ledger's bytes as reads see them; `stream` holds pieces
not yet in their island, `inbox` pieces in their island and not yet persistent. A waiting fence read, and a waiting read
of BAR4 with its offset and length, carry the number of the first piece that came after them (R564, R574). -/
structure Ledger where
  mem : List Host.Cell
  bad : List Nat
  stream : List Piece
  inbox : List Piece
  nextPiece : Nat
  fenceReads : List (Reader × Nat)
  reads : List (Port × Nat × Nat × Nat)
  backlog : List Nat
  copying : List Nat
  closed : Bool
  pageMap : SMap Nat
  pageRotation : SMap Nat
  pageWrites : SMap Nat
  retired : List Nat
  spares : SMap Nat
  relocations : SMap Nat
  corrected : SMap Nat
  uncorrectable : SMap Nat
  dropped : Per3 (BitVec 2)
  status : Per3 (BitVec 3)
  persisted : Per2 Nat
  denied : Per2 Nat
  notReady : Per2 Nat
  fenceCount : Per2 Nat
  deriving DecidableEq, Repr

/-! ### Durability (DU) -/

/-- KIND of a root (Table DU-2). -/
inductive RootKind where
  | checkpoint
  | storm
  | recovery
  | mirrorStart
  deriving DecidableEq, Repr

/-- The fields of a root's header that recovery consults (Table DU-2): DIRTY_SUMMARY by bank, the two numbers of
STRIPE_MAP by channel, and the words of SPARE_LIST. -/
structure RootHead where
  kind : RootKind
  epoch : Nat
  prevEpoch : Nat
  flipped : Nat
  stripes : Nat
  retries : Nat
  captureUs : Nat
  summary : SMap Nat
  stripeMap : SMap (Nat × Nat)
  spareList : List Nat
  deriving DecidableEq, Repr

/-- A slot map (R608): the lines outside the context area whose current slot is slot 1, by their line addresses, and
whether that of the context area's lines is, which every root writes together (R635). -/
structure SlotMap where
  lines : List Nat
  context : Bool
  deriving DecidableEq, Repr

/-- One place of a root copy (R608, R610): MAGIC, FORMAT, the header's fields, the slot map, the two CRCs as written,
and whether a word of header bytes 0 to 63, or another word, reads with an uncorrectable error (R609, R646). `lost`
are the lines that R639 left in neither slot and `retired` the channels that retired a slot (R638) in the capture:
recovery reports each line and raises each fault (R639, R654), and the manual does not say where the root holds which
(log entry 77). -/
structure Place where
  magic : Nat
  format : Nat
  head : RootHead
  map : SlotMap
  mapCrc : BitVec 32
  crc : BitVec 32
  badHead : Bool
  badWord : Bool
  lost : List Nat
  retired : List Nat
  deriving DecidableEq, Repr

/-- A home slot as written, or its spare (R597): the line address and the epoch that its tag word holds, and what its
line held, as a durable state with nothing outside that line. -/
structure Slot where
  la : Nat
  epoch : Nat
  value : Durable
  deriving DecidableEq, Repr

/-- The mirror MRAM (Table DU-1). The home slots: `base` is what a root of KIND 3 wrote to slot 0 of every line (R621),
`slots` what slot 2 x LA + k has been written since, `context0` and `context1` the two slots of the context area's
lines together. The roots: the places of copies A and B. The spares left per channel, and the words that SPARE_LIST
gives for those in use. -/
structure Mram where
  base : Option (Nat × Durable)
  slots : SMap (Option Slot)
  context0 : Option Slot
  context1 : Option Slot
  a0 : Option Place
  a1 : Option Place
  b0 : Option Place
  b1 : Option Place
  spares : SMap Nat
  spareList : List Nat
  deriving DecidableEq, Repr

/-- A checkpoint in progress (DU.4): its cut image, its epoch, the islands that took their cut, and the items that its
root answers. -/
structure Ckpt where
  image : Durable
  epoch : Nat
  cut : List Nat
  covers : List (Nat × Nat)
  deriving DecidableEq, Repr

/-- The volatile part of durability: dirty lines, lines owed to the checkpoint, the lines whose next slot was written
since the previous root's cut (R614), the slot map of the last root, the checkpoint and the requests that wait for the
next one. `timersHeld` says that the timers wait for RDY, each with the time that remains to it (R491). `holding` are
the banks that hold a request under their quota (R603). -/
structure Durab where
  dirty : List Line
  owed : List Line
  written : List Line
  current : SlotMap
  ckpt : Option Ckpt
  ckptWanted : Bool
  ckptItems : List (Nat × Nat)
  lastRootAt : Nat
  timersHeld : Bool
  rootValid : Bool
  warn : Bool
  holding : List Nat
  throttleTime : Nat
  rootsCommitted : Nat
  status : Per3 (BitVec 2)
  retries : SMap Nat
  corrected : SMap Nat
  rootUsed : Nat
  conflict : Bool
  benign : Bool
  torn : Bool
  degraded : Bool
  rootKind : RootKind
  rootEpoch : Nat
  benignBytes : Nat
  repCorrected : Nat
  repRebuilt : Nat
  lostLines : Nat
  repCaptureUs : Nat
  deriving DecidableEq, Repr

/-- THROTTLE: some bank holds a request (R603). -/
def Durab.throttle (d : Durab) : Bool := !d.holding.isEmpty

/-! ### Power, Keeper, security and debug (PW, BU, SD) -/

/-- Power states of the controller (Table PW-1). -/
inductive PState where
  | p0
  | p1
  | p2
  | p3
  | p4
  | p5
  deriving DecidableEq, Repr

/-- Island levels (Table PW-2). -/
inductive Level where
  | awake
  | dozing
  | retained
  deriving DecidableEq, Repr

/-- An island's level, the time it was last busy, and whether a wake cause has reached it, and when (R668, R671). -/
structure IslandPower where
  level : Level
  lastBusy : Nat
  waking : Bool
  wakeAt : Nat
  deriving DecidableEq, Repr

/-- Security states (Table SD-1). -/
inductive SecState where
  | provisioning
  | openState
  | sealed
  | lockdown
  deriving DecidableEq, Repr

/-- TamperLog (Table SD-13). -/
structure TamperLog where
  cause : Nat
  action : Nat
  pstate : Nat
  zeroize : Nat
  epoch : Nat
  deriving DecidableEq, Repr

/-- The Keeper's nonvolatile store (R688), the tamper mark (R694) and a transition being recorded
(R693): the requester, the state asked for, and whether it waits for a cold power-on (R696). Its two copies hold the same
wherever a command ends (R689); BootInput says which of them a start finds unreadable. -/
structure NvStore where
  sec : SecState
  pendingSealed : Bool
  recording : Option (Req × SecState × Bool)
  ownerKey : List Byte
  sealedRooms : BitVec 16
  tamperAction : Nat
  tamperEnable : BitVec 2
  tamperLog : TamperLog
  tamperCount : Nat
  mark : Option (Nat × Nat × Nat)
  zeroizePending : Bool
  zeroizeRoots : Bool
  deriving DecidableEq, Repr

/-- ResetCause (Table BU-7). -/
structure ResetCause where
  cause : Nat
  recovered : Bool
  holdupLow : Bool
  ms : Nat
  deriving DecidableEq, Repr

/-- The straps (Table BU-3). -/
structure Straps where
  sbMode : Bool
  sbAddr : Nat
  refsel : Bool
  testEn : Bool
  deriving DecidableEq, Repr

/-- The Keeper and what it holds while VDD_AUX is in range: supplies, platform inputs, the power
state, RDY, boot progress, Deadbolts (bit n of Table CN-5), the KPR objects and the DAP. `tampered` says that a tamper
was recorded since the last cold power-on (R696). -/
structure Keeper where
  vddAux : Bool
  vddCore : Bool
  vddio : Bool
  auxAt : Nat
  strapsSampled : Bool
  straps : Straps
  pgood : Bool
  pgoodAt : Nat
  pwrfail : Bool
  pwrwarn : Bool
  warnOwed : Bool
  pstate : PState
  rdy : Bool
  recovered : Bool
  serving : Bool
  romChecked : Bool
  bootFail : Bool
  restoring : Bool
  restoreKind : RootKind
  stormEndAt : Option Nat
  pendingReset : Option Nat
  nextCause : Nat
  lockStopped : Bool
  lockLosses : Nat
  ramStopped : Bool
  resetCause : ResetCause
  deadbolts : BitVec 5
  alertSelect : SMap Nat
  tjExcursions : Nat
  unqualifiedLoss : Nat
  tjOutside : Bool
  holdupLow : Bool
  zeroizing : Bool
  scan : Bool
  scanWanted : Bool
  tampered : Bool
  deriving DecidableEq, Repr

/-- A TAP instruction selected (Table SD-14). -/
inductive TapInstr where
  | extest
  | idcode
  | sample
  | extestPulse
  | extestTrain
  | hydap
  | hyscan
  | bypass
  deriving DecidableEq, Repr

/-- The debug access port (Tables SD-15, SD-16), the grant, what is halted and since when (the time + 1). -/
structure Debug where
  grant : Nat
  tap : TapInstr
  addr : BitVec 32
  element : BitVec 24
  data : BitVec 32
  haltSel : BitVec 16
  capData : BitVec 32
  capReg : BitVec 4
  capWrite : Bool
  capStatus : Nat
  halted : List Nat
  haltedAt : SMap Nat
  deriving DecidableEq, Repr

/-- One requester's authorization objects (R700). -/
structure Auth where
  nonce : Option (List Byte)
  nonceAt : Nat
  sigR : List Byte
  sigS : List Byte
  result : Nat
  deriving DecidableEq, Repr

/-! ### Register conduct, Hatch and sideband (CN, DS) -/

/-- IGN_LAST (Table CN-23). -/
structure IgnLast where
  addr : Nat
  space : Nat
  reason : Nat
  valid : Bool
  deriving DecidableEq, Repr

/-- HATCH_ABORT_LOG (Table CN-21). -/
structure AbortLog where
  valid : Bool
  former : Nat
  opcode : Nat
  applied : Bool
  cause : Nat
  deriving DecidableEq, Repr

/-- LetterboxLastReject (Table LB-7). -/
structure LastReject where
  valid : Bool
  port : Port
  reason : Nat
  room : Nat
  sn : Nat
  requester : BitVec 16
  offset : Nat
  deriving DecidableEq, Repr

/-- EoiErrorLast and WatchdogLast (Table DL-18). -/
structure TargetEvent where
  valid : Bool
  tn : Nat
  cls : Cls
  sn : Nat
  reason : Nat
  deriving DecidableEq, Repr

/-- One requester's conduct copies (CN.5, CN.8.3). -/
structure Conduct where
  status : BitVec 5
  ignLast : IgnLast
  ignCount : Nat
  abortLog : AbortLog
  lastReject : LastReject
  eoiError : TargetEvent
  wdogLast : TargetEvent
  creditMaxA : Nat
  creditMaxB : Nat
  deriving DecidableEq, Repr

/-- The result of a Hatch command, before it is published (R133); `readBack` is the code and the value of the READ that
a sideband SET makes with its WRITE (R185). -/
structure HatchResult where
  code : Nat
  data : List Byte
  length : Nat
  applied : Bool
  notBefore : Nat
  readBack : Option (Nat × List Byte)
  deriving DecidableEq, Repr

/-- The Hatch (CN.7), with the read-back of the sideband's last WRITE (R185). -/
structure Hatch where
  owner : Option Req
  tag : BitVec 16
  data : List Word
  addr : Word
  element : BitVec 24
  opcode : Nat
  busy : Bool
  valid : Bool
  code : Nat
  length : Nat
  applied : Bool
  result : Option HatchResult
  readBack : Option (Nat × List Byte)
  releasing : Bool
  timeout : Nat
  timerFrom : Nat
  deriving DecidableEq, Repr

/-- A Mirpiral request that waits or is executing (DS.7); `arrived` is when its execution began. -/
structure MirReq where
  dest : Byte
  src : Byte
  tag : BitVec 3
  slave : BitVec 7
  keep : Bool
  inst : Byte
  version : Nat
  command : Nat
  bodyLen : Nat
  body : List Byte
  arrived : Nat
  deriving DecidableEq, Repr

/-- A response not yet delivered (R194): an MCTP message, whether it answers an executed Mirpiral
request, and that request's KEEP. -/
structure Response where
  dest : Byte
  src : Byte
  tag : BitVec 3
  slave : BitVec 7
  bytes : List Byte
  mirpiral : Bool
  keep : Bool
  deriving DecidableEq, Repr

/-- The negotiation state of the one SPDM requester (R712), with the transcripts that its signatures
cover. -/
structure Spdm where
  owner : Byte
  caps : Bool
  algs : Bool
  negotiation : List Byte
  identity : List Byte
  measured : List Byte
  deriving DecidableEq, Repr

/-- The sideband (DS.6, DS.7): addresses, I3C settings, the Mirpiral request being executed and those that
wait, the responses not yet delivered in order, how many packets of the first were sent and the retries of the last of
them (R175), and the SPDM negotiation. -/
structure Sideband where
  eid : Nat
  dynAddr : Nat
  carrierLoss : Nat
  mwl : Nat
  mrl : Nat
  events : Byte
  hotJoined : Bool
  current : Option MirReq
  waiting : List MirReq
  responses : List Response
  sent : Nat
  retries : Nat
  spdm : Option Spdm
  deriving DecidableEq, Repr

/-- ImageStatus.STATE (DS.8.2). -/
inductive ImageState where
  | empty
  | staging
  | verified
  | applying
  | applied
  | failed
  deriving DecidableEq, Repr

/-- A record of a configuration image (Table DS-9). -/
structure ImgRec where
  index : Nat
  sub : Nat
  list : Bool
  element : Nat
  vlen : Nat
  count : Nat
  values : List Byte
  deriving DecidableEq, Repr

/-- Configuration-image staging (DS.8). Of an apply under way: the records still to be applied with their numbers, the
element writes of the first of them already made, and the image's SEQUENCE and digest (R204, R205, R208). -/
structure Image where
  state : ImageState
  error : Nat
  owner : Option Req
  buffer : List Host.Cell
  staged : Nat
  offset : Nat
  lastWrite : Nat
  control : Nat
  ignored : Nat
  clamped : Nat
  firstIgnored : Nat
  rejectDetail : Nat
  todo : List (Nat × ImgRec)
  element : Nat
  sequence : Nat
  digest : List Byte
  deriving DecidableEq, Repr

/-- A port: its link, power and configuration state, its MSI-X capability and management vector, its
per-port registers, its staging buffer, its outgoing requests and its counters. -/
structure PortState where
  linkUp : Bool
  perst : Bool
  ready : Bool
  busMaster : Bool
  d3hot : Bool
  cto : Nat
  msixEnable : Bool
  msixFuncMask : Bool
  msixMasked : Bool
  msixAddr : Nat
  msixData : Word
  pba : Bool
  mgmtEvent : BitVec 12
  mgmtEnable : BitVec 12
  maskSn : Nat
  maskValid : Bool
  maskAt : Nat
  staging : List Staged
  out : List LinkReq
  accepted : Nat
  notes : Nat
  malformed : Nat
  unknownSn : Nat
  roomClosed : Nat
  roomMismatch : Nat
  notReady : Nat
  notesDropped : Nat
  stallTime : Nat
  creditWait : Nat
  creditOver : Nat
  deriving DecidableEq, Repr

/-- What a command put out at the controller's edge. An MCTP packet carries its header's fields and what stands on the
bus (DS.6). -/
inductive Output where
  | readWord (port : Port) (value : Word)
  | readBytes (port : Port) (bytes : List Byte) (poisoned : Bool)
  | unsupportedRequest (port : Port)
  | memWrite (port : Port) (addr : Nat) (bytes : List Byte)
  | memRead (port : Port) (addr : Nat) (len : Nat)
  | msix (port : Port) (addr : Nat) (data : Word)
  | mctp (dest : Byte) (src : Byte) (tag : BitVec 3) (tagOwner : Bool) (packet : MctpPacket) (wire : List Byte)
  | ccc (bytes : List Byte)
  | nack
  | ibi (mandatory : Byte)
  | hotJoin
  | tdo (width : Nat) (value : Nat)
  deriving DecidableEq, Repr

/-- Volatile delivery and intake state: the channels between the islands (Table IH-2) and the slots. A channel's list
holds what stands in its FIFO and, beyond the FIFO's depth, what its sender holds (R44). `gatherQ` is what a Gather
island has received and not yet presented, `submitHeld` what a sender holds for one (64 x sender + Gather island),
`gatherTurn` the input after the one served first in the last contended cycle (R840); `updateQ` and `lastGrant` are
the FIFO and the arbiter of a bank's Update port (2 x bank + port, R57); `due` the selections a Rank island owes to a
write of a threshold, Room or reach mask (R314, R330); `view` what a Rank island has learned of its sources;
`maskedAt` when a mask took effect, + 1 (R373); `nextDescr` numbers descriptors. -/
structure Fabric where
  gatherQ : SMap (List (Sent Event))
  submitHeld : SMap (List (Sent Event))
  gatherTurn : SMap Nat
  updateQ : SMap (List (Sent Event))
  lastGrant : SMap Nat
  notifyQ : SMap (List (Sent Notify))
  due : SMap (List (Nat × Cls))
  view : SMap (SMap Cand)
  selectQ : SMap (List (Sent Select))
  claimQ : SMap (List (Sent ClaimReq))
  maskedAt : SMap Nat
  nextDescr : Nat
  rank : SMap RankSlot
  dslots : SMap DSlot
  tstatus : SMap (Per3 (BitVec 3))
  shutter : Bool
  eoiErrors : Nat
  wdogExpiries : Nat
  deriving DecidableEq, Repr

/-- The Queue islands' volatile state and the item whose step holds each engine. -/
structure Queues where
  vol : SMap QVol
  engine : SMap (Nat × Nat)
  deriving DecidableEq, Repr

/-- The wired inputs: each pin's filtered value, the time (+ 1) from which its filter counts anew (R221) and that at which
sampling started, and each lane's receiver. -/
structure Wired where
  pins : SMap Bool
  pinSince : SMap Nat
  lanes : SMap Lane
  sampling : Bool
  sampledFrom : Nat
  deriving DecidableEq, Repr

/-- No input sampled, every lane OFF. -/
def Wired.initial : Wired := { pins := [], pinSince := [], lanes := [], sampling := false, sampledFrom := 0 }

/-- The islands' power levels, clock loss and the power counters. -/
structure Power where
  islands : SMap IslandPower
  lockLost : SMap Nat
  wakes : Nat
  retains : Nat
  deriving DecidableEq, Repr

/-- The controller. `pending` is the queue of commands (the host's), `now` counts nanoseconds, `free`
counts the free values drawn, `out` is what the last command put out, `held` the accesses that have arrived and cannot
act yet, in order, each with its requester. -/
structure State where
  now : Nat
  free : Nat
  pending : List Instr
  out : List Output
  held : List (Req × Access)
  dur : Durable
  mram : Mram
  durab : Durab
  nv : NvStore
  keeper : Keeper
  power : Power
  dap : Debug
  fabric : Fabric
  wired : Wired
  queues : Queues
  xlate : Xlate
  ledger : Ledger
  portA : PortState
  portB : PortState
  conduct : Per3 Conduct
  auth : Per3 Auth
  scratch : Word
  hatch : Hatch
  sideband : Sideband
  image : Image
  deriving DecidableEq, Repr

/-- The reasons for which a run could stop: there is none, since the manual gives every command of
the table an effect. -/
inductive Fault
  deriving DecidableEq, Repr

/-- The refusals. -/
inductive Refusal where
  /-- Raised by the dispatcher alone, for a command that has no meaning yet (safe). -/
  | notModelled (mnemonic : String)
  deriving DecidableEq, Repr

/-! ### The state after reset: a part as shipped, at a cold power-on, its core not yet released -/

/-- The first-boot values of the objects that stand alone (DC.3 to DC.12). -/
def Globals.initial : Globals :=
  { linkARooms := 0xFFFF, linkBRooms := 0xFFFF, sbHatchWait := 50, roomEnable := 0xFFFF,
    noteLimit := 16, reach := (List.range 16).map (fun m => BitVec.ofNat 16 (2 ^ m)),
    wdogN := 100000, wdogF := 10000, eoiRaise := true, crcEnforce := 0x00FFFFFFFFFFFFFF,
    faultRaise := true, mirrorEnable := true, dirtyBudget := 6, autoCheckpoint := 1000,
    warnEnable := false, warnChannel := 15, ceiling := 1, dozeDelay := 100, retainDelay := 100,
    hostMirror := { enable := false, port := .a, room := 0, first := 0, count := 0, base := 0 },
    imageLastSequence := 0, imageLastDigest := List.replicate 64 0, epoch := 1, lastRootEpoch := 1,
    rootBenign := 0, stormCount := 0, vholdAtStorm := 0, flushDone := false, warnRaised := 15 }

/-- An empty Fault Ledger (Table BU-5). -/
def FaultLedger.initial : FaultLedger :=
  { recs := [], head := 0, tail := 0, count := 0, sequence := 0, overflow := 0 }

/-- An empty Swing staging area (R475). -/
def Swing.initial : Swing := { owner := none, waiting := [], staged := [], folding := false }

/-- The durable state with its first-boot values (Table BU-5, step 2). -/
def Durable.initial : Durable :=
  { sources := [], targets := [], claims := [], pins := [], lanes := [], lines := [], queues := [],
    ring := [], timers := [], xlate := [], segRooms := [], swing := .initial, faults := .initial,
    g := .initial, owedRaises := [], lost := [] }

/-- The mirror MRAM of a new part: no root, 32 spares in every channel (Table DU-1, R782). -/
def Mram.initial : Mram :=
  { base := none, slots := [], context0 := none, context1 := none, a0 := none, a1 := none, b0 := none, b1 := none,
    spares := [], spareList := [] }

/-- The volatile part of durability at reset (Table DU-6). -/
def Durab.initial : Durab :=
  { dirty := [], owed := [], written := [], current := { lines := [], context := false }, ckpt := none, ckptWanted := false, ckptItems := [],
    lastRootAt := 0, timersHeld := false, rootValid := false, warn := false, holding := [], throttleTime := 0,
    rootsCommitted := 0, status := ⟨0, 0, 0⟩, retries := [], corrected := [], rootUsed := 0,
    conflict := false, benign := false, torn := false, degraded := false, rootKind := .checkpoint,
    rootEpoch := 0, benignBytes := 0, repCorrected := 0, repRebuilt := 0, lostLines := 0,
    repCaptureUs := 0 }

/-- The Keeper's nonvolatile store at shipment (Table DC-15). -/
def NvStore.initial : NvStore :=
  { sec := .provisioning, pendingSealed := false, recording := none,
    ownerKey := List.replicate 64 0, sealedRooms := 1, tamperAction := 1, tamperEnable := 0,
    tamperLog := { cause := 0, action := 0, pstate := 0, zeroize := 0, epoch := 0 },
    tamperCount := 0, mark := none, zeroizePending := false, zeroizeRoots := false }

/-- The Keeper right after VDD_AUX enters its range (Table BU-1): P4, RDY 0, Deadbolts clear. -/
def Keeper.initial : Keeper :=
  { vddAux := true, vddCore := false, vddio := false, auxAt := 0, strapsSampled := false,
    straps := { sbMode := false, sbAddr := 0, refsel := false, testEn := false }, pgood := false,
    pgoodAt := 0, pwrfail := false, pwrwarn := false, warnOwed := false, pstate := .p4, rdy := false,
    recovered := false, serving := false, romChecked := false, bootFail := false,
    restoring := false, restoreKind := .recovery, stormEndAt := none, pendingReset := none,
    nextCause := 1, lockStopped := false, lockLosses := 0, ramStopped := false,
    resetCause := { cause := 0, recovered := false, holdupLow := false, ms := 0 }, deadbolts := 0,
    alertSelect := [], tjExcursions := 0, unqualifiedLoss := 0, tjOutside := false,
    holdupLow := false, zeroizing := false, scan := false, scanWanted := false, tampered := false }

/-- No island lost its lock; every island is awake (Table PW-2). -/
def Power.initial : Power := { islands := [], lockLost := [], wakes := 0, retains := 0 }

/-- The debug access port at reset: TAP in IDCODE, as IEEE 1149.1 resets it. -/
def Debug.initial : Debug :=
  { grant := 3, tap := .idcode, addr := 0, element := 0, data := 0, haltSel := 0, capData := 0,
    capReg := 0, capWrite := false, capStatus := 0, halted := [], haltedAt := [] }

/-- Every channel and slot empty, the Shutter closed (R371). -/
def Fabric.initial : Fabric :=
  { gatherQ := [], submitHeld := [], gatherTurn := [], updateQ := [], lastGrant := [], notifyQ := [], due := [],
    view := [], selectQ := [], claimQ := [], maskedAt := [], nextDescr := 0, rank := [],
    dslots := [], tstatus := [], shutter := true, eoiErrors := 0, wdogExpiries := 0 }

/-- Empty walk caches, no fence, no fault counted (TF.2, TF.3). -/
def Xlate.initial : Xlate :=
  { islands := [], fences := [], issued := 0, done := 0, faultCount := [], walkCount := [],
    recIndex := ⟨0, 0, 0⟩, overflow := ⟨false, false, false⟩, new := ⟨false, false, false⟩, heldFaults := [] }

/-- The Ledger at shipment: all zero (Table LG-3), no piece under way. -/
def Ledger.initial : Ledger :=
  { mem := [], bad := [], stream := [], inbox := [], nextPiece := 0, fenceReads := [],
    reads := [],
    backlog := [], copying := [], closed := false, pageMap := [], pageRotation := [],
    pageWrites := [], retired := [], spares := [], relocations := [], corrected := [],
    uncorrectable := [], dropped := ⟨0, 0, 0⟩, status := ⟨0, 0, 0⟩, persisted := ⟨0, 0⟩,
    denied := ⟨0, 0⟩, notReady := ⟨0, 0⟩, fenceCount := ⟨0, 0⟩ }

/-- A port at reset: link down, Bus Master Enable 0, vector masked (Table BU-2). -/
def PortState.initial : PortState :=
  { linkUp := false, perst := true, ready := false, busMaster := false, d3hot := false, cto := 0,
    msixEnable := false, msixFuncMask := false, msixMasked := true, msixAddr := 0, msixData := 0,
    pba := false, mgmtEvent := 0, mgmtEnable := 0, maskSn := 0, maskValid := false, maskAt := 0,
    staging := [], out := [], accepted := 0, notes := 0, malformed := 0, unknownSn := 0,
    roomClosed := 0, roomMismatch := 0, notReady := 0, notesDropped := 0, stallTime := 0,
    creditWait := 0, creditOver := 0 }

/-- No target event recorded. -/
def TargetEvent.initial : TargetEvent := { valid := false, tn := 0, cls := .normal, sn := 0, reason := 0 }

/-- A requester's conduct copies at reset (CN.8.3). -/
def Conduct.initial : Conduct :=
  { status := 0, ignLast := { addr := 0, space := 0, reason := 0, valid := false }, ignCount := 0,
    abortLog := { valid := false, former := 0, opcode := 0, applied := false, cause := 0 },
    lastReject := ⟨false, .a, 0, 0, 0, 0, 0⟩,
    eoiError := .initial, wdogLast := .initial, creditMaxA := 0, creditMaxB := 0 }

/-- A requester's authorization objects at reset (Table SD-20). -/
def Auth.initial : Auth :=
  { nonce := none, nonceAt := 0, sigR := List.replicate 64 0, sigS := List.replicate 64 0,
    result := 0 }

/-- The Hatch unowned and idle (R144). -/
def Hatch.initial : Hatch :=
  { owner := none, tag := 0, data := List.replicate 16 0, addr := 0, element := 0, opcode := 0,
    busy := false, valid := false, code := 0, length := 0, applied := false, result := none, readBack := none,
    releasing := false, timeout := 1000, timerFrom := 0 }

/-- The sideband without addresses (R197, Table DS-4). -/
def Sideband.initial : Sideband :=
  { eid := 0, dynAddr := 0, carrierLoss := 0, mwl := 69, mrl := 69, events := 9, hotJoined := false,
    current := none, waiting := [], responses := [], sent := 0, retries := 0, spdm := none }

/-- No image staged (DS.8.2). -/
def Image.initial : Image :=
  { state := .empty, error := 0, owner := none, buffer := [], staged := 0, offset := 0,
    lastWrite := 0, control := 0, ignored := 0, clamped := 0, firstIgnored := 0xFFFFFFFF,
    rejectDetail := 0, todo := [], element := 0, sequence := 0, digest := [] }

/-- The machine right after reset: a cold power-on of a part as shipped, every field at the value the
manual gives for reset or first boot, the core not yet released by the Keeper (R776), no command
waiting. -/
def State.reset : State :=
  { now := 0, free := 0, pending := [], out := [], held := [], dur := .initial, mram := .initial,
    durab := .initial, nv := .initial, keeper := .initial, power := .initial, dap := .initial,
    fabric := .initial, wired := .initial,
    queues := { vol := [], engine := [] }, xlate := .initial, ledger := .initial,
    portA := .initial, portB := .initial, conduct := ⟨.initial, .initial, .initial⟩,
    auth := ⟨.initial, .initial, .initial⟩, scratch := 0, hatch := .initial,
    sideband := .initial, image := .initial }

end Sys2Proof.Machine
end

