-- ==== Sys2Proof/Machine/Data.lean ====
section
/-!
DEFINITION. The plain-data helpers of the machine: maps and byte memories in canonical form,
little-endian fields (R9), clamping (R102), saturating counters, and the two CRCs of the manual.
-/

namespace Sys2Proof

/-- The requester of a port (R89). -/
def Port.req : Port → Req
  | .a => .linkA
  | .b => .linkB

/-- The other port. -/
def Port.other : Port → Port
  | .a => .b
  | .b => .a

/-- A port's number, 0 for A. -/
def Port.num : Port → Nat
  | .a => 0
  | .b => 1

/-- The port of a number: 0 is A. -/
def Port.at (n : Nat) : Port := if n = 0 then .a else .b

/-- A class's number, 0 for Normal. -/
def Cls.num : Cls → Nat
  | .normal => 0
  | .fast => 1

/-- The class of a number: 0 is Normal. -/
def Cls.at (n : Nat) : Cls := if n = 0 then .normal else .fast

/-- The other class. -/
def Cls.other : Cls → Cls
  | .normal => .fast
  | .fast => .normal

end Sys2Proof

namespace Sys2Proof.Machine

open Sys2Proof

/-! ### Maps -/

/-- The value a map holds at a key, `d` where none is listed. -/
def mget {α : Type} (d : α) : SMap α → Nat → α
  | [], _ => d
  | (k', v) :: m, k => if k = k' then v else mget d m k

/-- A map with a new value at a key; the default is not listed. -/
def mput {α : Type} [DecidableEq α] (d : α) (k : Nat) (v : α) : SMap α → SMap α
  | [] => if v = d then [] else [(k, v)]
  | (k', v') :: m =>
    if k < k' then (if v = d then (k', v') :: m else (k, v) :: (k', v') :: m)
    else if k = k' then (if v = d then m else (k, v) :: m)
    else (k', v') :: mput d k v m

/-- A map changed at one key. -/
def mmod {α : Type} [DecidableEq α] (d : α) (m : SMap α) (k : Nat) (f : α → α) : SMap α :=
  mput d k (f (mget d m k)) m

/-- The canonical form of a map: keys strictly rising, no entry equal to the default. -/
def SMap.wf {α : Type} [DecidableEq α] (d : α) : SMap α → Bool
  | [] => true
  | [(_, v)] => decide (v ≠ d)
  | (k, v) :: (k', v') :: m => decide (v ≠ d) && decide (k < k') && SMap.wf d ((k', v') :: m)

/-! ### Byte memories: the Ledger, the on-chip ring region, the image staging buffer. An unlisted
byte reads as zero (Table LG-3, Table BU-5). -/

/-- One byte of a memory. -/
def Memory.read (m : List Host.Cell) (a : Nat) : Byte := mget (0 : Byte) m a

/-- One byte written. -/
def Memory.write (m : List Host.Cell) (a : Nat) (v : Byte) : List Host.Cell := mput (0 : Byte) a v m

/-- The canonical form of a memory. -/
def Memory.wf (m : List Host.Cell) : Bool := SMap.wf (0 : Byte) m

/-- `n` bytes from an address on. -/
def Memory.readN (m : List Host.Cell) (a : Nat) : Nat → List Byte
  | 0 => []
  | n + 1 => Memory.read m a :: Memory.readN m (a + 1) n

/-- Bytes written one after another from an address on. -/
def Memory.writeN (m : List Host.Cell) (a : Nat) : List Byte → List Host.Cell
  | [] => m
  | b :: bs => Memory.writeN (Memory.write m a b) (a + 1) bs

/-- The bytes whose enable is set, written from an address on (R563). -/
def Memory.writeMasked (m : List Host.Cell) (a : Nat) : List Byte → List Bool → List Host.Cell
  | b :: bs, e :: es =>
    Memory.writeMasked (if e then Memory.write m a b else m) (a + 1) bs es
  | _, _ => m

/-! ### Little-endian fields -/

/-- The number that bytes spell, least significant first (R9). -/
def leNat : List Byte → Nat
  | [] => 0
  | b :: bs => b.toNat + 256 * leNat bs

/-- The low `n` bytes of a number, least significant first (R9). -/
def leBytes : Nat → Nat → List Byte
  | 0, _ => []
  | n + 1, v => BitVec.ofNat 8 v :: leBytes n (v / 256)

/-- `n` bytes of a list from position `i` on, zero beyond its end. -/
def bytesAt (bs : List Byte) (i n : Nat) : List Byte :=
  let t := (bs.drop i).take n
  t ++ List.replicate (n - t.length) 0

/-- The little-endian field of `n` bytes at position `i`. -/
def fieldAt (bs : List Byte) (i n : Nat) : Nat := leNat (bytesAt bs i n)

/-- The number that bytes spell, most significant first (R10). -/
def beNat (bs : List Byte) : Nat := leNat bs.reverse

/-- A number in `n` bytes, most significant first (R10). -/
def beBytes (n v : Nat) : List Byte := (leBytes n v).reverse

/-- Bits [hi:lo] of a number. -/
def bits (v hi lo : Nat) : Nat := v / 2 ^ lo % 2 ^ (hi + 1 - lo)

/-- Bit n of a number. -/
def bit (v n : Nat) : Bool := v / 2 ^ n % 2 == 1

/-- 1 for true. -/
def b2n (b : Bool) : Nat := if b then 1 else 0

/-- A number with its low `n` bits cleared. -/
def alignDown (v n : Nat) : Nat := v / 2 ^ n * 2 ^ n

/-- A quantity at its nearest legal value (R102). -/
def clamp (lo hi v : Nat) : Nat := if v < lo then lo else if v > hi then hi else v

/-- A counter advanced by `k` that stops at its maximum (R109). -/
def satAdd (width v k : Nat) : Nat := min (v + k) (2 ^ width - 1)

/-- A list with its element at `i` replaced. -/
def setAt {α : Type} : List α → Nat → α → List α
  | [], _, _ => []
  | _ :: xs, 0, v => v :: xs
  | x :: xs, i + 1, v => x :: setAt xs i v

/-- A value added at the end of a list that does not hold it. -/
def insertNew {α : Type} [DecidableEq α] (xs : List α) (x : α) : List α :=
  if x ∈ xs then xs else xs ++ [x]

/-- A number entered in its place in a rising list without repeats. -/
def insertSorted (x : Nat) : List Nat → List Nat
  | [] => [x]
  | y :: ys => if x < y then x :: y :: ys else if x = y then y :: ys else y :: insertSorted x ys

/-! ### Copies per port and per requester -/

/-- A port's copy. -/
def Per2.get {α : Type} (p : Per2 α) : Port → α
  | .a => p.a
  | .b => p.b

/-- A port's copy replaced. -/
def Per2.set {α : Type} (p : Per2 α) (port : Port) (v : α) : Per2 α :=
  match port with
  | .a => { p with a := v }
  | .b => { p with b := v }

/-- A requester's copy. -/
def Per3.get {α : Type} (p : Per3 α) : Req → α
  | .linkA => p.a
  | .linkB => p.b
  | .sideband => p.sb

/-- A requester's copy replaced. -/
def Per3.set {α : Type} (p : Per3 α) (r : Req) (v : α) : Per3 α :=
  match r with
  | .linkA => { p with a := v }
  | .linkB => { p with b := v }
  | .sideband => { p with sb := v }

/-- All three copies changed (R110). -/
def Per3.all {α : Type} (p : Per3 α) (f : α → α) : Per3 α := ⟨f p.a, f p.b, f p.sb⟩

/-- The same value in all three copies. -/
def Per3.const {α : Type} (v : α) : Per3 α := ⟨v, v, v⟩

/-- The key of a target and class in the maps of the machine. -/
def tkey (tn : Nat) (c : Cls) : Nat := 2 * tn + c.num

/-! ### CRCs -/

/-- One bit shifted into the CRC-8 of a Sill frame, polynomial 0x07 (R230). -/
def crc8Bit (crc : BitVec 8) (b : Bool) : BitVec 8 :=
  if crc.msb != b then (crc <<< 1) ^^^ 0x07 else crc <<< 1

/-- The CRC-8 over bits in transmission order from the initial value 0xFF (R230). -/
def crc8 (bs : List Bool) : BitVec 8 := bs.foldl crc8Bit 0xFF

/-- One step of the reflected CRC-32C shift register, polynomial 0x82F63B78 (PRESUMED from the
published CRC-32C that Tables DS-8 and DU-2 name). -/
def crc32cStep (c : BitVec 32) : BitVec 32 :=
  if c.getLsbD 0 then (c >>> 1) ^^^ 0x82F63B78 else c >>> 1

/-- One byte taken into a CRC-32C. -/
def crc32cByte (c : BitVec 32) (b : Byte) : BitVec 32 :=
  let c0 := c ^^^ b.zeroExtend 32
  crc32cStep (crc32cStep (crc32cStep (crc32cStep
    (crc32cStep (crc32cStep (crc32cStep (crc32cStep c0)))))))

/-- CRC-32C of a byte string. -/
def crc32c (bs : List Byte) : BitVec 32 := (bs.foldl crc32cByte 0xFFFFFFFF) ^^^ 0xFFFFFFFF

end Sys2Proof.Machine
end

