-- ==== Sys2Proof/Machine/Crypto.lean ====
section
/-!
DEFINITION. The published algorithms the manual names: SHA-384 (R702, R705, R717, Table SD-9) and the
ECDSA P-384 verification and point test (R702, R715, Table SD-20). Their constants and steps are
PRESUMED from the published standards, which the manual cites and does not restate.
-/

namespace Sys2Proof.Machine

open Sys2Proof

/-! ### SHA-384 -/

/-- The primes below a bound, rising. -/
def primesBelow (n : Nat) : List Nat :=
  (List.range n).filter fun p => decide (2 ≤ p) && (List.range p).all fun d => decide (d < 2) || p % d != 0

/-- The largest number whose `k`-th power does not exceed `n`, by its `fuel` low bits from the top down. -/
def rootBelow (k n : Nat) : Nat → Nat → Nat
  | 0, r => r
  | b + 1, r => rootBelow k n b (if (r + 2 ^ b) ^ k ≤ n then r + 2 ^ b else r)

/-- The first 64 bits of the fractional part of the `k`-th root of a number below 512. -/
def rootFraction (k p : Nat) : BitVec 64 := BitVec.ofNat 64 (rootBelow k (p * 2 ^ (64 * k)) 70 0)

/-- The eighty round constants: the standard defines them by the cube roots of the first eighty primes. -/
def shaRounds : List (BitVec 64) := (primesBelow 410).map (rootFraction 3)

/-- The initial hash value of SHA-384: the standard defines it by the square roots of the ninth to the sixteenth
prime. -/
def shaInit : List (BitVec 64) := ((primesBelow 54).drop 8).map (rootFraction 2)

/-- Rotation of a word to the right. -/
def rotr (x : BitVec 64) (n : Nat) : BitVec 64 := (x >>> n) ||| (x <<< (64 - n))

/-- The next words of the message schedule, from the last sixteen (newest first). -/
def shaExtend : Nat → List (BitVec 64) → List (BitVec 64)
  | 0, w => w
  | k + 1, w =>
    let g := fun i => w.getD i 0
    let s0 := rotr (g 14) 1 ^^^ rotr (g 14) 8 ^^^ (g 14 >>> 7)
    let s1 := rotr (g 1) 19 ^^^ rotr (g 1) 61 ^^^ (g 1 >>> 6)
    shaExtend k ((g 15 + s0 + g 6 + s1) :: w)

/-- One round on the eight working words a to h. -/
def shaRound (v : List (BitVec 64)) (kw : BitVec 64 × BitVec 64) : List (BitVec 64) :=
  match v with
  | [a, b, c, d, e, f, g, h] =>
    let t1 := h + (rotr e 14 ^^^ rotr e 18 ^^^ rotr e 41) + ((e &&& f) ^^^ (~~~e &&& g)) + kw.1 + kw.2
    let t2 := (rotr a 28 ^^^ rotr a 34 ^^^ rotr a 39) + ((a &&& b) ^^^ (a &&& c) ^^^ (b &&& c))
    [t1 + t2, a, b, c, d + t1, e, f, g]
  | _ => v

/-- One 128-byte block taken into the hash. -/
def shaBlock (h : List (BitVec 64)) (block : List Byte) : List (BitVec 64) :=
  let w0 := (List.range 16).map (fun i => BitVec.ofNat 64 (beNat (bytesAt block (8 * i) 8)))
  let w := (shaExtend 64 w0.reverse).reverse
  let v := (shaRounds.zip w).foldl shaRound h
  (h.zip v).map (fun p => p.1 + p.2)

/-- The blocks of a padded message. -/
def shaBlocks : Nat → List Byte → List (BitVec 64) → List (BitVec 64)
  | 0, _, h => h
  | n + 1, m, h => shaBlocks n (m.drop 128) (shaBlock h (m.take 128))

/-- SHA-384 of a byte string, 48 bytes. -/
def sha384 (m : List Byte) : List Byte :=
  let len := m.length
  let blocks := (len + 17 + 127) / 128
  let zeros := 128 * blocks - len - 17
  let padded := m ++ [0x80] ++ List.replicate zeros 0 ++ beBytes 16 (8 * len)
  ((shaBlocks blocks padded shaInit).take 6).flatMap (fun x => beBytes 8 x.toNat)

/-! ### P-384 -/

/-- The field prime of P-384. -/
def p384p : Nat := 2 ^ 384 - 2 ^ 128 - 2 ^ 96 + 2 ^ 32 - 1

/-- The coefficient b of P-384. -/
def p384b : Nat :=
  0xb3312fa7e23ee7e4988e056be3f82d19181d9c6efe8141120314088f5013875ac656398d8a2ed19d2a85c8edd3ec2aef

/-- The order of the base point of P-384. -/
def p384n : Nat :=
  0xffffffffffffffffffffffffffffffffffffffffffffffffc7634d81f4372ddf581a0db248b0a77aecec196accc52973

/-- X of the base point of P-384. -/
def p384gx : Nat :=
  0xaa87ca22be8b05378eb1c71ef320ad746e1d3b628ba79b9859f741e082542a385502f25dbf55296c3a545e3872760ab7

/-- Y of the base point of P-384. -/
def p384gy : Nat :=
  0x3617de4a96262c6f5d9e98bf9292dc29f8f41dbd289a147ce9da3113b5f0b8c00a60b1ce1d7e819d7a431d7c90ea0e5f

/-- A power modulo `m`, by `fuel` bits of the exponent. -/
def powMod (m : Nat) : Nat → Nat → Nat → Nat → Nat
  | 0, _, _, acc => acc
  | fuel + 1, base, e, acc =>
    powMod m fuel (base * base % m) (e / 2) (if e % 2 = 1 then acc * base % m else acc)

/-- The inverse modulo a prime, by Fermat. -/
def invMod (m x : Nat) : Nat := powMod m 384 (x % m) (m - 2) 1

/-- The right side of the curve equation, x^3 - 3x + b. -/
def p384rhs (x : Nat) : Nat := (x * x * x + 3 * (p384p - x % p384p) + p384b) % p384p

/-- The point of a compressed encoding: its first byte gives the parity of y. -/
def p384Point (key : List Byte) : Option (Nat × Nat) :=
  let tag := (bytesAt key 0 1).map BitVec.toNat
  let x := beNat (bytesAt key 1 48)
  let y0 := powMod p384p 384 (p384rhs x) ((p384p + 1) / 4) 1
  let odd := tag == [3]
  let y := if (y0 % 2 == 1) == odd then y0 else p384p - y0
  if (tag == [2] || tag == [3]) && decide (x < p384p) && y0 * y0 % p384p == p384rhs x then some (x, y)
  else none

/-- Addition of points; none is the point at infinity. -/
def p384Add (a b : Option (Nat × Nat)) : Option (Nat × Nat) :=
  match a, b with
  | none, q => q
  | q, none => q
  | some (x1, y1), some (x2, y2) =>
    let p := p384p
    let out := fun l =>
      let x := (l * l + 2 * p - x1 - x2) % p
      some (x, (l * (x1 + p - x) + p - y1) % p)
    if x1 = x2 then
      if (y1 + y2) % p = 0 then none
      else out ((3 * x1 * x1 + 3 * (p - 1)) * invMod p (2 * y1) % p)
    else out ((y2 + p - y1) * invMod p (x2 + p - x1) % p)

/-- A multiple of a point, by `fuel` bits of the factor. -/
def p384Mul : Nat → Nat → Option (Nat × Nat) → Option (Nat × Nat) → Option (Nat × Nat)
  | 0, _, _, acc => acc
  | fuel + 1, k, q, acc =>
    p384Mul fuel (k / 2) (p384Add q q) (if k % 2 = 1 then p384Add acc q else acc)

/-- Verification of an ECDSA P-384 signature with SHA-384 over a message (R702): `r` and `s` are 48
bytes each, most significant first. -/
def ecdsaVerify (key msg r s : List Byte) : Bool :=
  let rn := beNat (bytesAt r 0 48)
  let sn := beNat (bytesAt s 0 48)
  match p384Point key with
  | none => false
  | some q =>
    if 0 < rn && rn < p384n && 0 < sn && sn < p384n then
      let w := invMod p384n sn
      let e := beNat (sha384 msg)
      let x := p384Add (p384Mul 384 (e * w % p384n) (some (p384gx, p384gy)) none)
        (p384Mul 384 (rn * w % p384n) (some q) none)
      match x with
      | none => false
      | some (x, _) => x % p384n == rn
    else false

/-- An OwnerKey that names a point on the curve (Table SD-20). -/
def ownerKeyValid (key : List Byte) : Bool :=
  (p384Point key).isSome && (bytesAt key 49 15).all (· == 0)

end Sys2Proof.Machine
end

