-- ==== Sys2Proof/Machine/Ops.lean ====
section
/-!
DEFINITION. The named operations over the state that every family shares: where things live (IH.3),
records and maps read and written, dirty lines (DU.2), events raised (LB.8), the management vector
(CN.8.4), ignored writes and the conduct copies (CN.4, CN.5), and when an island acts (IH.7, PW.4).
-/

namespace Sys2Proof.Machine

open Sys2Proof

/-! ### Where things live -/

/-- An SN of the source space (Table PK-1). -/
def snExists (sn : Nat) : Bool :=
  decide (sn < 0x101400) || (decide (0x110000 ≤ sn) && decide (sn < 0x120000))

/-- An IPI source (Table PK-1). -/
def isIpi (sn : Nat) : Bool := decide (0x110000 ≤ sn) && decide (sn < 0x120000)

/-- The target of an IPI source (R333). -/
def ipiTarget (sn : Nat) : Nat := (sn - 0x110000) / 16

/-- The IPI source of a target and channel (Table PK-1). -/
def ipiSn (tn ch : Nat) : Nat := 0x110000 + 16 * tn + ch

/-- A wired source: a direct pin or a Sill line (Table PK-1). -/
def isWired (sn : Nat) : Bool := decide (0x100000 ≤ sn) && decide (sn < 0x101000)

/-- The intake hash G(SN) (R49), and the owning island of a wired line (R48). -/
def gatherOf (sn : Nat) : Nat :=
  if 0x100000 ≤ sn && sn < 0x100200 then 56 + (sn - 0x100000) / 64
  else if 0x100200 ≤ sn && sn < 0x101000 then (sn - 0x100200) / 64
  else bits sn 5 0 ^^^ bits sn 11 6 ^^^ bits sn 17 12 ^^^ bits sn 19 18

/-- The Store bank B(SN) (R51). -/
def bankOf (sn : Nat) : Nat :=
  bits sn 4 0 ^^^ bits sn 9 5 ^^^ bits sn 14 10 ^^^ bits sn 19 15 ^^^ bits sn 23 20

/-- An island's number among all 212, none where the number within the type does not exist
(Table PG-1). -/
def islandId (i : Island) : Option Nat :=
  let at' := fun base n => if i.idx < n then some (base + i.idx) else none
  match i.kind with
  | .gather => at' 0 64
  | .storeBank => at' 64 32
  | .rank => at' 96 16
  | .delivery => at' 112 64
  | .queue => at' 176 16
  | .translation => at' 192 4
  | .mirror => at' 196 8
  | .ledger => at' 204 4
  | .link => at' 208 2
  | .management => at' 210 1
  | .keeper => at' 211 1

/-- Numbers of the islands of each type among all 212. -/
def idGather (n : Nat) : Nat := n
def idBank (n : Nat) : Nat := 64 + n
def idRank (n : Nat) : Nat := 96 + n
def idDelivery (n : Nat) : Nat := 112 + n
def idQueue (n : Nat) : Nat := 176 + n
def idXlate (n : Nat) : Nat := 192 + n
def idMirror (n : Nat) : Nat := 196 + n
def idLedger (n : Nat) : Nat := 204 + n
def idLink (p : Port) : Nat := 208 + p.num
def idManagement : Nat := 210

/-! ### Plain accessors -/

/-- A port's state. -/
def State.port (s : State) : Port → PortState
  | .a => s.portA
  | .b => s.portB

/-- A port's state changed. -/
def State.modPort (s : State) (p : Port) (f : PortState → PortState) : State :=
  match p with
  | .a => { s with portA := f s.portA }
  | .b => { s with portB := f s.portB }

/-- The port's staging buffer is full: it advertises no posted-request credits, so that a posted write waits and is
not received (R286). -/
def stagingFull (s : State) (port : Port) : Bool := decide (256 ≤ (s.port port).staging.length)

/-- An output of the command. -/
def State.emit (s : State) (o : Output) : State := { s with out := s.out ++ [o] }

/-- The free-value counter advanced by one draw. -/
def State.draw (s : State) : State := { s with free := s.free + 1 }

/-- The durable state changed. -/
def State.modDur (s : State) (f : Durable → Durable) : State := { s with dur := f s.dur }

/-- The stand-alone durable objects changed. -/
def State.modG (s : State) (f : Globals → Globals) : State :=
  { s with dur := { s.dur with g := f s.dur.g } }

/-- The delivery and intake state changed. -/
def State.modFabric (s : State) (f : Fabric → Fabric) : State := { s with fabric := f s.fabric }

/-- A requester's conduct copies changed. -/
def State.modConduct (s : State) (r : Req) (f : Conduct → Conduct) : State :=
  { s with conduct := s.conduct.set r (f (s.conduct.get r)) }

/-- All requesters' conduct copies changed (R110). -/
def State.modConducts (s : State) (f : Conduct → Conduct) : State :=
  { s with conduct := s.conduct.all f }

/-! ### Lines of the durable region and the dirty budget -/

/-- A line address (R595), and the line at it. -/
def Line.la (l : Line) : Nat := 16384 * l.bank + l.idx
def lineOf (la : Nat) : Line := { bank := la / 16384 % 32, idx := la % 16384 }

/-- The context area is the last 64 lines of each bank (R635). -/
def Line.isContext (l : Line) : Bool := decide (16320 ≤ l.idx)

/-- The line of the context area that holds an island's durable context (R635 gives no layout: log entry 9). -/
def ctxLine (i : Nat) : Line := { bank := i % 32, idx := 16320 + i / 32 }

/-- The island that writes a line: its Store bank, or the island whose context it holds. -/
def Line.owner (l : Line) : Nat := if l.isContext then 32 * (l.idx - 16320) + l.bank else idBank l.bank

/-- The lines of the objects of the durable region. The bank is the manual's; the index is free. -/
def lineAt (bank kind n : Nat) : Line := { bank := bank, idx := Config.lineIndex kind n % 16320 }
def sourceLine (sn : Nat) : Line := lineAt (bankOf sn) 0 sn
def targetLine (tn : Nat) : Line := lineAt (tn % 32) 1 tn
def noteLine (sn k : Nat) : Line := lineAt (bankOf sn) 2 (8192 * sn + k % 8192)
def ringLine (x : Nat) : Line := lineAt (bits x 10 6) 3 (x / 64)
def faultLine (k : Nat) : Line := lineAt (k % 32) 4 k
def objectLine (n : Nat) : Line := lineAt (n % 32) 5 n

/-- The quota of a bank in lines (R602). -/
def quota (s : State) : Nat := 512 * s.dur.g.dirtyBudget

/-- The lines that count against the quota: dirty, or owed to a checkpoint and not written (R617). -/
def dirtyLines (s : State) : List Line :=
  s.durab.dirty ++ s.durab.owed.filter (fun l => l ∉ s.durab.dirty)

/-- The dirty lines of one bank. -/
def bankDirty (s : State) (bank : Nat) : Nat :=
  ((dirtyLines s).filter (fun l => l.bank == bank)).length

/-- A change of this line must wait (R603): the line is clean and its bank is at its quota. -/
def throttled (s : State) (l : Line) : Bool :=
  s.dur.g.mirrorEnable && decide (quota s ≤ bankDirty s l.bank) && decide (l ∉ dirtyLines s)

/-- A line becomes dirty if its bank changed it (R599). -/
def State.touchIf (s : State) (changed : Bool) (l : Line) : State :=
  { s with durab := { s.durab with
    dirty := if changed then insertNew s.durab.dirty l else s.durab.dirty } }

/-- A line becomes dirty (R599). -/
def State.touch (s : State) (l : Line) : State := s.touchIf true l

/-! ### Records -/

/-- A source record with its first-boot values (R305). -/
def Source.initial : Source :=
  { state := .idle, rearm := false, level := false, noteLost := false, target := none,
    priority := 128, cls := .normal, room := 0, holder := none, ageBase := 0, mask := false,
    carried := false, noteHead := 0, notes := [] }

/-- A source record restored as zeros (R648). -/
def Source.zero : Source := { Source.initial with target := some 0, priority := 0 }

/-- A target record with its first-boot values (R305, Table DC-7). -/
def Target.initial : Target :=
  { room := 0, port := .a, enable := false, paneEnN := false, paneEnF := false, wdogEnN := false,
    wdogEnF := false, paneN := 0, paneF := 0, wakeNAddr := 0, wakeNData := 0, wakeFAddr := 0,
    wakeFData := 0, fallback := none, thrN := 0, thrF := 0, louvreN := 0, louvreF := 0,
    warnMember := false, flush := .notMember, warnArmed := false, warnClaimed := false }

/-- A target record restored as zeros (R648): FallbackTarget 0 names target 0. -/
def Target.zero : Target := { Target.initial with fallback := some 0 }

/-- What an unlisted source record holds. -/
def srcDefault (d : Durable) (sn : Nat) : Source :=
  if d.lost.isEmpty then .initial else if sourceLine sn ∈ d.lost then .zero else .initial

/-- What an unlisted target record holds. -/
def tgtDefault (d : Durable) (tn : Nat) : Target :=
  if d.lost.isEmpty then .initial else if targetLine tn ∈ d.lost then .zero else .initial

/-- A target's record. -/
def State.tgt (s : State) (tn : Nat) : Target := mget (tgtDefault s.dur tn) s.dur.targets tn

/-- A source's record. TARGET and ROOM of an IPI source are fixed by its target (R333). -/
def State.src (s : State) (sn : Nat) : Source :=
  let r := mget (srcDefault s.dur sn) s.dur.sources sn
  if isIpi sn then { r with target := some (ipiTarget sn), room := (s.tgt (ipiTarget sn)).room } else r

/-- A source's record written, its line dirty if it changed. The fixed fields of an IPI source are not stored. -/
def State.putSrc (s : State) (sn : Nat) (r : Source) : State :=
  let d := srcDefault s.dur sn
  let r' := if isIpi sn then { r with target := d.target, room := d.room } else r
  { s with dur := { s.dur with sources := mput d sn r' s.dur.sources } }.touchIf
    (mget d s.dur.sources sn != r') (sourceLine sn)

/-- A target's record written, its line dirty if it changed. -/
def State.putTgt (s : State) (tn : Nat) (r : Target) : State :=
  { s with dur := { s.dur with targets := mput (tgtDefault s.dur tn) tn r s.dur.targets } }.touchIf
    (s.tgt tn != r) (targetLine tn)

/-- The claim counter of a target and class (R315). -/
def State.claimCount (s : State) (tn : Nat) (c : Cls) : Nat := mget 0 s.dur.claims (tkey tn c)

/-- AGE of a source with this record while Pending (R316). -/
def State.ageOf (s : State) (r : Source) : Nat :=
  match r.target with
  | none => 0
  | some t => min 65535 (s.claimCount t r.cls - r.ageBase)

/-- The claim-counter value at which a source with this route has AGE 0. -/
def State.ageZero (s : State) (t : Option Nat) (c : Cls) : Nat :=
  match t with
  | none => 0
  | some t => s.claimCount t c

/-- The reach mask of a Room; its own bit always reads 1 (R327). -/
def State.reach (s : State) (m : Nat) : BitVec 16 :=
  s.dur.g.reach.getD m 0 ||| BitVec.ofNat 16 (2 ^ m)

/-- A source in Room `from'` can reach a target in Room `to'` (R327). -/
def State.canReach (s : State) (from' to' : Nat) : Bool := (s.reach from').getLsbD to'

/-- The route of a source reaches its target (R328); none is always reachable. -/
def State.routeReaches (s : State) (room : Nat) (t : Option Nat) : Bool :=
  match t with
  | none => true
  | some t => s.canReach room (s.tgt t).room

/-- A delivery slot with nothing in it. -/
def DSlot.initial : DSlot :=
  { offer := none, stage := .waiting, replaced := false, paneIssued := false, claiming := none,
    accepted := none, claimQ := [], heldSel := none, holding := none, seq := 0, lastWake := none,
    wdog := none, latch := none, faulted := false, descr := none, wakeBefore := none, expired := false }

/-- The Delivery island's slot for a target and class. -/
def State.dslot (s : State) (tn : Nat) (c : Cls) : DSlot := mget .initial s.fabric.dslots (tkey tn c)

/-- That slot changed. -/
def State.modSlot (s : State) (tn : Nat) (c : Cls) (f : DSlot → DSlot) : State :=
  s.modFabric fun x => { x with dslots := mmod .initial x.dslots (tkey tn c) f }

/-- The Rank island's slot for a target and class (Table PK-5). -/
def State.rankSlot (s : State) (tn : Nat) (c : Cls) : RankSlot := mget .empty s.fabric.rank (tkey tn c)

/-- That slot set. -/
def State.setRank (s : State) (tn : Nat) (c : Cls) (v : RankSlot) : State :=
  s.modFabric fun x => { x with rank := mput .empty (tkey tn c) v x.rank }

/-- PANE_EN, WDOG_EN, threshold, Louvre, Pane and wake of a class (Tables DL-1, DL-8, DL-18). -/
def Target.paneEn (t : Target) : Cls → Bool
  | .normal => t.paneEnN
  | .fast => t.paneEnF
def Target.wdogEn (t : Target) : Cls → Bool
  | .normal => t.wdogEnN
  | .fast => t.wdogEnF
def Target.threshold (t : Target) : Cls → Nat
  | .normal => t.thrN
  | .fast => t.thrF
def Target.louvre (t : Target) : Cls → Nat
  | .normal => t.louvreN
  | .fast => t.louvreF
def Target.pane (t : Target) : Cls → Nat
  | .normal => t.paneN
  | .fast => t.paneF
def Target.wakeAddr (t : Target) : Cls → Nat
  | .normal => t.wakeNAddr
  | .fast => t.wakeFAddr
def Target.wakeData (t : Target) : Cls → Word
  | .normal => t.wakeNData
  | .fast => t.wakeFData

/-- PANE_EN of a class set. -/
def Target.setPaneEn (t : Target) (c : Cls) (b : Bool) : Target :=
  match c with
  | .normal => { t with paneEnN := b }
  | .fast => { t with paneEnF := b }

/-- A queue with its first-boot configuration (Tables WQ-4 to WQ-8). -/
def Queue.initial : Queue :=
  { evtIdleEn := false, sizeLog2 := 4, modeC := false, onchip := false, port := .a, room := 0,
    onchipKib := 0, interval := 125, ringBase := 0, prod := 0, cons := 0, take := 0, items := [] }

/-- A queue's volatile state at reset (WQ.8). -/
def QVol.initial : QVol :=
  { state := .disabled, recovered := false, idleOwed := false, readAt := 0, sampled := 0, lastTick := 0, window := [],
    fetches := [], specBlocked := [], event := ⟨0, 0, 0⟩, stopIndex := 0, stopCause := 0,
    invalIndex := 0, invalValid := false, itemsDone := 0, refetches := 0, specFaults := 0,
    waitTime := 0, entrySlot := ⟨0, 0⟩, staging := ⟨List.replicate 16 0, List.replicate 16 0⟩,
    latch := ⟨List.replicate 16 0, List.replicate 16 0⟩ }

/-- A queue's durable part. -/
def State.queue (s : State) (q : Nat) : Queue := mget .initial s.dur.queues q

/-- A queue's durable part changed. It is context of its Queue island, which every root's cut writes (R450, R635). -/
def State.modQueue (s : State) (q : Nat) (f : Queue → Queue) : State :=
  { s with dur := { s.dur with queues := mmod .initial s.dur.queues q f } }

/-- A queue's volatile part. -/
def State.qvol (s : State) (q : Nat) : QVol := mget .initial s.queues.vol q

/-- A queue's volatile part changed. -/
def State.modQVol (s : State) (q : Nat) (f : QVol → QVol) : State :=
  { s with queues := { s.queues with vol := mmod .initial s.queues.vol q f } }

/-- A Room's translation control at first boot (Table TF-10). -/
def XlateRoom.initial : XlateRoom := { root := 0, enable := false, walkPort := .a }

/-- A Room's translation control. -/
def State.xroom (s : State) (m : Nat) : XlateRoom := mget .initial s.dur.xlate m

/-- A Translation island with empty caches. The manual does not say at which of its seven slots the rotation of R62
stands at reset, nor at which island of a group the round-robin starts: it stands at the first Delivery slot and at the
lowest island (DESIGN CHOICE, log entry 71). -/
def XIsland.initial : XIsland :=
  { leaf := [], dir1 := [], dir2 := [], dir3 := [], walks := [], waitDelivery := [],
    waitQueue := [], waitLedger := [], rotation := 0, turnDelivery := 0,
    turnQueue := 0, turnLedger := 0, nextId := 0 }

/-- A Translation island's state. -/
def State.xisland (s : State) (i : Nat) : XIsland := mget .initial s.xlate.islands i

/-- A Translation island's state changed. -/
def State.modXIsland (s : State) (i : Nat) (f : XIsland → XIsland) : State :=
  { s with xlate := { s.xlate with islands := mmod .initial s.xlate.islands i f } }

/-- PinConfig's default (Table DC-11). -/
def PinCfg.initial : PinCfg := { mode := 0, filter := 10 }

/-- LaneControl's default (Table DC-11). -/
def LaneCfg.initial : LaneCfg :=
  { enable := false, invert := false, gapEdge := false, stalePolicy := 0, timeout := 8 }

/-- A lane's receiver at reset: OFF, held values zero (R257). -/
def Lane.initial : Lane :=
  { state := .off, lastSeq := 0, held := 0, fromOff := true, fromStale := false, fromRecovery := false, goodSeq := none,
    resync := false, enforced := true, lastApplied := 0, pendingCtl := none, flags := ⟨0, 0, 0⟩,
    framesApplied := 0, crcErrors := 0, codeErrors := 0, shortFrames := 0, longFrames := 0,
    framesMissed := 0, duplicates := 0, timeouts := 0 }

/-- A lane's receiver. -/
def State.lane (s : State) (n : Nat) : Lane := mget .initial s.wired.lanes n

/-- A lane's receiver changed. -/
def State.modLane (s : State) (n : Nat) (f : Lane → Lane) : State :=
  { s with wired := { s.wired with lanes := mmod .initial s.wired.lanes n f } }

/-! ### Room masks and rights of the links (R160) -/

/-- The Room mask of a requester; the sideband touches every Room. -/
def State.roomMask (s : State) : Req → BitVec 16
  | .linkA => s.dur.g.linkARooms
  | .linkB => s.dur.g.linkBRooms
  | .sideband => 0xFFFF

/-- A requester may touch objects of a Room: a link by its mask (R160), the sideband in Sealed and
Lockdown by SealedSidebandRooms (R699). -/
def State.mayTouch (s : State) (r : Req) (room : Nat) : Bool :=
  match r with
  | .sideband =>
    match s.nv.sec with
    | .sealed | .lockdown => s.nv.sealedRooms.getLsbD room
    | _ => true
  | _ => (s.roomMask r).getLsbD room

/-- A platform setting: bit 0 of the link's own mask (condition P of Table DC-2). -/
def State.platform (s : State) (r : Req) : Bool := (s.roomMask r).getLsbD 0

/-- A link may reach a target's Wicket page or a queue's block (R348, R400). -/
def State.linkReaches (s : State) (p : Port) (room : Nat) : Bool := (s.roomMask p.req).getLsbD room

/-! ### Channels (IH.2) and events -/

/-- The mark of what an island sends now: the checkpoint's epoch once it has taken its cut (R615). -/
def State.mark (s : State) (i : Nat) : Nat :=
  match s.durab.ckpt with
  | some c => if i ∈ c.cut then c.epoch else 0
  | none => 0

/-- A transfer sent now by an island. -/
def State.sent {α : Type} (s : State) (i : Nat) (x : α) : Sent α := ⟨i, s.mark i, x⟩

/-- How many transfers of a channel's list come from a sender. -/
def sentBy {α : Type} (i : Nat) (q : List (Sent α)) : Nat := (q.filter fun x => x.sender == i).length

/-- What a Gather island has received and not yet presented to the crossbar. -/
def State.gathered (s : State) (g : Nat) : List (Sent Event) := mget [] s.fabric.gatherQ g

/-- A transfer reaches a Gather island, behind those already there (R840). -/
def State.arrive (s : State) (g : Nat) (x : Sent Event) : State :=
  s.modFabric fun f => { f with gatherQ := mmod [] f.gatherQ g (· ++ [x]) }

/-- An event of a Gather island's own wired lines (R211). -/
def State.enqueue (s : State) (g : Nat) (e : Event) : State := s.arrive g (s.sent (idGather g) e)

/-- An event sent over an island's Submit channel: it reaches the Gather island, or the sender holds it while its
four places there are taken (R44, R46). -/
def State.submit (s : State) (i g : Nat) (e : Event) : State :=
  if sentBy i (s.gathered g) < 4 then s.arrive g (s.sent i e)
  else s.modFabric fun f => { f with submitHeld := mmod [] f.submitHeld (64 * i + g) (· ++ [s.sent i e]) }

/-- A place of a sender in a Gather island became free: the oldest transfer it holds for that island crosses (R44). -/
def State.submitNext (s : State) (i g : Nat) : State :=
  match mget [] s.fabric.submitHeld (64 * i + g) with
  | [] => s
  | x :: rest =>
    (s.modFabric fun f => { f with submitHeld := mput [] (64 * i + g) rest f.submitHeld }).arrive g x

/-- The island that raises an internal source, where the source names it: the Gather island of a lane, a Mirror
channel, a Link island, the Hatch's Management island, the Queue island of a queue; the Keeper for what it senses
(Table LB-5). -/
def raiserOf (sn : Nat) : Nat :=
  if sn < 0x101038 then idGather (sn - 0x101000)
  else if sn < 0x101040 then idMirror (sn - 0x101038)
  else if sn < 0x101042 then 208 + (sn - 0x101040)
  else if sn == 0x101053 then idManagement
  else if sn < 0x101100 then 211
  else idQueue ((sn - 0x101100) % 256 / 16)

/-- An internal source raised by an island over its Submit channel (R49, R293). -/
def State.raiseFrom (s : State) (i sn : Nat) : State := s.submit i (gatherOf sn) (.raise sn)

/-- An internal source raised by the island it names (Table LB-5). -/
def State.raise (s : State) (sn : Nat) : State := s.raiseFrom (raiserOf sn) sn

/-- Sources raised in order. -/
def State.raiseAll (s : State) (sns : List Nat) : State := sns.foldl State.raise s

/-- What a Store bank tells a Rank island of a source that is Pending (Table PK-6, DL.3). -/
def candOf (r : Source) : Cand :=
  { priority := r.priority, room := r.room, mask := r.mask, ageBase := r.ageBase, noteLost := r.noteLost,
    note := r.notes.head? }

/-- A transfer of a source's bank on the Notify channel of a target's Rank island (R336). -/
def State.notifyRank (s : State) (sn tn : Nat) (n : Notify) : State :=
  s.modFabric fun f => { f with notifyQ := mmod [] f.notifyQ (tn / 256) (· ++ [s.sent (idBank (bankOf sn)) n]) }

/-- A change of a source is notified for a route, if there is one: what the source now is there, or that it is no
longer Pending there. -/
def State.notifyRoute (s : State) (sn : Nat) (t : Option Nat) (c : Cls) (cand : Option Cand) : State :=
  match t with
  | none => s
  | some t => s.notifyRank sn t (.change t c sn cand)

/-- A Rank island owes a selection for a target and class (R314, R330, R335). -/
def State.owe (s : State) (tn : Nat) (c : Cls) : State :=
  s.modFabric fun f => { f with due := mmod [] f.due (tn / 256) fun l => insertNew l (tn, c) }

/-! ### The management vector (CN.8.4) -/

/-- An event of Table CN-28 in one port: its bit is set, and the vector signals when the bit rises
enabled while no other enabled bit is set (R146). -/
def PortState.mgmt (p : PortState) (n : Nat) : PortState :=
  let bitN := BitVec.ofNat 12 (2 ^ n)
  let rises := !p.mgmtEvent.getLsbD n && p.mgmtEnable.getLsbD n && (p.mgmtEvent &&& p.mgmtEnable == 0)
  { p with mgmtEvent := p.mgmtEvent ||| bitN, pba := p.pba || rises }

/-- An event of Table CN-28 in both ports (R145). -/
def State.mgmt (s : State) (n : Nat) : State :=
  { s with portA := s.portA.mgmt n, portB := s.portB.mgmt n }

/-! ### Conduct (CN.4, CN.5) -/

/-- A bit of a requester's CONDUCT_STATUS set. -/
def State.conductBit (s : State) (r : Req) (n : Nat) : State :=
  s.modConduct r fun c => { c with status := c.status ||| BitVec.ofNat 5 (2 ^ n) }

/-- CLAMPED set for the writer (R102). -/
def State.clampedBy (s : State) (r : Req) (b : Bool) : State := if b then s.conductBit r 0 else s

/-- Reasons of Table CN-4. -/
def rName : Nat := 1
def rAccess : Nat := 2
def rDeadbolt : Nat := 3
def rNotOwner : Nat := 4
def rPartial : Nat := 5
def rSequence : Nat := 6

/-- An ignored write is counted and recorded (R108); it is a management event of the port (R145). -/
def State.ignoredWrite (s : State) (r : Req) (space addr reason : Nat) : State :=
  let s := s.modConduct r fun c =>
    { c with
      ignCount := satAdd 32 c.ignCount 1
      ignLast := { addr := addr, space := space, reason := reason, valid := true }
      status := c.status ||| 2 }
  match r with
  | .linkA => { s with portA := s.portA.mgmt 2 }
  | .linkB => { s with portB := s.portB.mgmt 2 }
  | .sideband => s

/-! ### A checkpoint's cut (DU.4) -/

/-- An entry enters a map in its place. -/
def mins {α : Type} (p : Nat × α) : SMap α → SMap α
  | [] => [p]
  | q :: m => if p.1 < q.1 then p :: q :: m else q :: mins p m

/-- The entries of one map whose keys pass a test, and those of another whose keys do not. -/
def mmerge {α : Type} (test : Nat → Bool) (a b : SMap α) : SMap α :=
  (a.filter (fun p => test p.1)).foldr mins (b.filter (fun p => !test p.1))

/-- The stand-alone objects of two durable states joined by the lines that hold them. The epoch, the roots' and the
Storms' counts are the Keeper's context (R635). -/
def Globals.merge (f : Line → Bool) (a b : Globals) : Globals :=
  let on := fun n => f (objectLine n)
  let keeper := f (ctxLine 211)
  { linkARooms := if on 703 then a.linkARooms else b.linkARooms
    linkBRooms := if on 704 then a.linkBRooms else b.linkBRooms
    sbHatchWait := if on 705 then a.sbHatchWait else b.sbHatchWait
    roomEnable := if on 706 then a.roomEnable else b.roomEnable
    noteLimit := if on 707 then a.noteLimit else b.noteLimit
    reach := (List.range 16).map fun m => (if on (300 + m) then a else b).reach.getD m 0
    wdogN := if on 708 then a.wdogN else b.wdogN
    wdogF := if on 709 then a.wdogF else b.wdogF
    eoiRaise := if on 710 then a.eoiRaise else b.eoiRaise
    crcEnforce := if on 711 then a.crcEnforce else b.crcEnforce
    faultRaise := if on 712 then a.faultRaise else b.faultRaise
    mirrorEnable := if on 718 then a.mirrorEnable else b.mirrorEnable
    dirtyBudget := if on 701 then a.dirtyBudget else b.dirtyBudget
    autoCheckpoint := if on 713 then a.autoCheckpoint else b.autoCheckpoint
    warnEnable := if on 714 then a.warnEnable else b.warnEnable
    warnChannel := if on 714 then a.warnChannel else b.warnChannel
    ceiling := if on 702 then a.ceiling else b.ceiling
    dozeDelay := if on 715 then a.dozeDelay else b.dozeDelay
    retainDelay := if on 716 then a.retainDelay else b.retainDelay
    hostMirror := if on 600 then a.hostMirror else b.hostMirror
    imageLastSequence := if on 717 then a.imageLastSequence else b.imageLastSequence
    imageLastDigest := if on 717 then a.imageLastDigest else b.imageLastDigest
    epoch := if keeper then a.epoch else b.epoch
    lastRootEpoch := if keeper then a.lastRootEpoch else b.lastRootEpoch
    rootBenign := if keeper then a.rootBenign else b.rootBenign
    stormCount := if keeper then a.stormCount else b.stormCount
    vholdAtStorm := if keeper then a.vholdAtStorm else b.vholdAtStorm
    flushDone := if on 719 then a.flushDone else b.flushDone
    warnRaised := if on 719 then a.warnRaised else b.warnRaised }

/-- The island whose context records a raise in flight (R634). -/
def Event.origin : Event → Nat
  | .raise sn => raiserOf sn
  | .ipi _ q _ => idQueue (q / 16)
  | _ => 211

/-- Two durable states joined: the lines that pass the test as the first holds them, the others as the second does. A
source's notes go with its record. Queues and timers are context of their Queue island, the Swing staging area's
holder that of the Keeper (R635). -/
def Durable.merge (f : Line → Bool) (a b : Durable) : Durable :=
  let on := fun n => f (objectLine n)
  let context := fun i => f (ctxLine i)
  { sources := mmerge (fun k => f (sourceLine k)) a.sources b.sources
    targets := mmerge (fun k => f (targetLine k)) a.targets b.targets
    claims := mmerge (fun k => f (targetLine (k / 2))) a.claims b.claims
    pins := mmerge (fun k => on (1000 + k)) a.pins b.pins
    lanes := mmerge (fun k => on (1600 + k)) a.lanes b.lanes
    lines := mmerge (fun k => on (2000 + k)) a.lines b.lines
    queues := mmerge (fun k => context (idQueue (k / 16))) a.queues b.queues
    ring := mmerge (fun k => f (ringLine k)) a.ring b.ring
    timers := mmerge (fun k => context (idQueue (k / 16))) a.timers b.timers
    xlate := mmerge (fun k => on (500 + k)) a.xlate b.xlate
    segRooms := mmerge (fun k => on (720 + k)) a.segRooms b.segRooms
    swing := { (if context 211 then a.swing else b.swing) with
      staged := a.swing.staged.filter (fun n => f (sourceLine n.sn)) ++
        b.swing.staged.filter (fun n => !f (sourceLine n.sn)) }
    faults := { (if on 400 then a.faults else b.faults) with
      recs := mmerge (fun k => f (faultLine k)) a.faults.recs b.faults.recs }
    g := Globals.merge f a.g b.g
    owedRaises := a.owedRaises.filter (fun e => context e.origin) ++ b.owedRaises.filter (fun e => !context e.origin)
    lost := a.lost.filter f ++ b.lost.filter (fun l => !f l) }

/-- Two durable states joined by the islands that write their lines. -/
def joinDur (test : Nat → Bool) (a b : Durable) : Durable := Durable.merge (fun l => test l.owner) a b

/-- The write of a HOST_STORE still stands unissued in a Link island. -/
def storeUnissued (s : State) (q slot : Nat) : Bool :=
  (s.portA.out ++ s.portB.out).any fun r =>
    match r with
    | .hostStore k i _ _ _ _ _ => k == q && i == slot
    | _ => false

/-- An item at the cut (Table WI-14): an append with a byte that has not reached its Ledger island is short, and a
HOST_STORE whose write is not issued has its step 2 still to do. -/
def markItem (s : State) (q : Nat) (it : Item) : Item :=
  let it := { it with short := s.ledger.stream.any fun p => p.append == some (q, it.slot) }
  if storeUnissued s q it.slot then { it with ending := none, issued := false, wait := .nothing } else it

/-- The items and timers of one Queue island, or of every one, as its context records them at the cut: a timer by the
time that remains to it (R491). -/
def markCut (s : State) (test : Nat → Bool) (d : Durable) : Durable :=
  let gone := if s.durab.timersHeld then 0 else s.now
  { d with
    queues := d.queues.map fun p =>
      if test (idQueue (p.1 / 16)) then (p.1, { p.2 with items := p.2.items.map (markItem s p.1) }) else p
    timers := d.timers.map fun p =>
      if test (idQueue (p.1 / 16)) then (p.1, { p.2 with due := max 1 (p.2.due - gone) }) else p }

/-- The cut token has reached an island (R615): its part of the cut image is its state now, and a Store
bank's dirty lines are owed (R616). -/
def cutIsland (i : Nat) (s : State) : State :=
  match s.durab.ckpt with
  | none => s
  | some c =>
    if i ∈ c.cut then s
    else
      let mine := fun (l : Line) => decide (64 ≤ i) && decide (i < 96) && l.bank == i - 64
      { s with durab := { s.durab with
        owed := s.durab.owed ++ (s.durab.dirty.filter mine).filter (fun l => l ∉ s.durab.owed)
        dirty := s.durab.dirty.filter (fun l => !mine l)
        ckpt := some { c with
          cut := c.cut ++ [i]
          image := markCut s (fun j => j == i) (joinDur (fun j => j != i) c.image s.dur) } } }

/-- A checkpoint starts (R613, R615, R618): the epoch advances, and the Keeper sends the cut token. -/
def startCheckpoint (s : State) : State :=
  let s := s.modG fun g => { g with epoch := g.epoch + 1 }
  { s with durab := { s.durab with
    ckpt := some { image := s.dur, epoch := s.dur.g.epoch, cut := [211],
                   covers := s.durab.ckptItems }
    ckptItems := []
    ckptWanted := false } }

/-- A root commit is requested (R618, R620): it starts at once, or the next one answers it. -/
def requestRoot (s : State) : State :=
  if s.dur.g.mirrorEnable && s.durab.ckpt.isNone then startCheckpoint s
  else { s with durab := { s.durab with ckptWanted := true } }

/-- The islands that receive what the first of a list sends: the others, and every Store bank where a
Queue island or the Management island sends. -/
def receiversOf (ids : List Nat) : List Nat :=
  match ids with
  | [] => []
  | i :: rest =>
    if (176 ≤ i && i < 192) || i == 210 then rest ++ (List.range 32).map idBank else rest

/-- What was sent before its sender's cut is applied under the state before the cut (R615): to the cut image, with
what the islands that have not taken their cut hold now, as well as to the state. -/
def underCut (c : Ckpt) (f : State → State) (s : State) : State :=
  let s' := f s
  let t := f { s with dur := joinDur (fun j => decide (j ∈ c.cut)) c.image s.dur }
  { s' with durab := { s'.durab with ckpt := s'.durab.ckpt.map fun k => { k with image := t.dur } } }

/-- A step of islands while a checkpoint's token travels (R615). A sender that has taken its cut has
passed the token on ahead of the transfer; a transfer sent before the sender's cut is applied to the
cut image as well as to the state. -/
def crossing (ids : List Nat) (f : State → State) (s : State) : State :=
  match s.durab.ckpt with
  | none => f s
  | some c =>
    if ids.head?.any fun i => decide (i ∈ c.cut) then
      f ((receiversOf ids).foldl (fun s i => cutIsland i s) s)
    else underCut c f s

/-- Islands apply a transfer that stood in a channel (R615): one sent after its sender's cut follows the token, so
that they have taken theirs; one sent before it is applied under the state before the cut. -/
def receiving {α : Type} (x : Sent α) (ids : List Nat) (f : State → State) (s : State) : State :=
  match s.durab.ckpt with
  | none => f s
  | some c => if x.mark == c.epoch then f (ids.foldl (fun s i => cutIsland i s) s) else underCut c f s

/-! ### When an island acts -/

/-- The core runs: P0, P1 or P2, not stopped and not in Scan (Table PW-1, R83, R745). -/
def State.running (s : State) : Bool :=
  (match s.keeper.pstate with
   | .p0 | .p1 | .p2 => true
   | _ => false) && !s.keeper.lockStopped && !s.keeper.ramStopped && !s.keeper.scan

/-- The core has power: every state but Off (Table PW-1). -/
def State.powered (s : State) : Bool := s.keeper.pstate != .p4

/-- An island's level record while nothing has happened to it. -/
def IslandPower.initial : IslandPower := { level := .awake, lastBusy := 0, waking := false, wakeAt := 0 }

/-- An island's level record. -/
def State.island (s : State) (i : Nat) : IslandPower := mget .initial s.power.islands i

/-- An island's level record changed. -/
def State.modIsland (s : State) (i : Nat) (f : IslandPower → IslandPower) : State :=
  { s with power := { s.power with islands := mmod .initial s.power.islands i f } }

/-- An island can complete handshakes: its clock holds lock (R81) and it is not halted (R743). -/
def State.clocked (s : State) (i : Nat) : Bool :=
  (mget 0 s.power.lockLost i == 0) && decide (i ∉ s.dap.halted)

/-- A wake cause reaches an island (R668); the first one counts (R671). -/
def State.wakeCause (s : State) (i : Nat) : State :=
  if (s.island i).level = .awake then s
  else s.modIsland i fun p => { p with waking := true, wakeAt := if p.waking then p.wakeAt else s.now }

/-- An island is busy now (R660). Nothing is kept while it has been awake since the last reset. -/
def State.busy (s : State) (i : Nat) : State := s.modIsland i fun p => { p with lastBusy := s.now }

/-- What islands do in one step. While the core does not run, or one of them is halted or has lost
its clock, the transfer stays where it is (R44, R81, R743); one that dozes or is retained is woken
first and the transfer waits (R670); otherwise the step takes place. -/
def handshake (ids : List Nat) (f : State → State) (s : State) : State :=
  if !s.running then s
  else if ids.any (fun i => !s.clocked i) then s
  else if ids.any (fun i => (s.island i).level != .awake) then ids.foldl State.wakeCause s
  else f (ids.foldl State.busy s)

/-- Such a step whose transfers pass from the first island to the others at once. -/
def onIslands (ids : List Nat) (f : State → State) (s : State) : State := handshake ids (crossing ids f) s

/-- An island woken (R669): awake, and counted in IslandWakes (Table PW-9). -/
def State.wakeUp (s : State) (i : Nat) : State :=
  if (s.island i).level = .awake then s
  else
    let s := s.modIsland i fun p => { p with level := .awake, waking := false, wakeAt := 0 }
    { s with power := { s.power with wakes := satAdd 64 s.power.wakes 1 } }

/-- What something that reaches islands from outside does: it is taken once their clocks run, and the
islands that sleep are woken by it (R289, R666, R668). -/
def onArrival (ids : List Nat) (f : State → State) (s : State) : State :=
  if !s.running then s
  else if ids.any (fun i => !s.clocked i) then s
  else crossing ids f (ids.foldl (fun s i => (s.wakeUp i).busy i) s)

/-- An output that reaches its receiver: a completion for a link that is down is discarded (CN.9). -/
def Output.reaches (s : State) : Output → Bool
  | .readWord p _ => (s.port p).linkUp
  | .readBytes p _ _ => (s.port p).linkUp
  | .unsupportedRequest p => (s.port p).linkUp
  | _ => true

/-- What a command answers: the next state, its outputs its own. The queue of commands is the step's alone. -/
def answer (s : State) (f : State → State) : Host.Outcome State Fault Refusal :=
  let t := f { s with out := [] }
  .next { t with pending := s.pending, out := t.out.filter (Output.reaches s) }

/-- The TAP holds the links down and the wired inputs at their last values (R735). -/
def State.extestHeld (s : State) : Bool :=
  (match s.dap.tap with
   | .extest | .extestPulse | .extestTrain => true
   | _ => false) &&
  (match s.keeper.pstate with
   | .p3 | .p5 => false
   | _ => true)

/-- The wired inputs are live: VDDIO in range and no EXTEST instruction selected (R222, R735). -/
def State.wiredLive (s : State) : Bool := s.keeper.vddio && s.wired.sampling && !s.extestHeld

/-- A port may issue requests: link up, Bus Master Enable 1, not in D3hot (R354, R448, R678). -/
def PortState.canIssue (p : PortState) : Bool := p.linkUp && p.busMaster && !p.d3hot

/-- A request passed to a Link island. -/
def State.passToLink (s : State) (p : Port) (r : LinkReq) : State :=
  s.modPort p fun x => { x with out := x.out ++ [r] }

/-- The first entry of a FIFO list for which a test holds, with the rest in order. -/
def takeFirst {α : Type} (f : α → Bool) : List α → Option (α × List α)
  | [] => none
  | x :: xs => if f x then some (x, xs) else (takeFirst f xs).map fun (y, ys) => (y, x :: ys)

end Sys2Proof.Machine
end

