-- ==== Sys2Proof/Machine/Mirror.lean ====
section
/-!
DEFINITION. The mirror MRAM (DU.1 to DU.3): the slots of the lines and what their reads correct, the bytes of a root
and when a place holds a valid one, the writing of slots and roots, and the stripes that the channels keep in step.
-/

namespace Sys2Proof.Config

open Sys2Proof.Machine

/-- The eight 64-bit data words of a line that holds its part of a durable state: the manual gives the records of the
durable region and no layout of them within a line (R595, log entry 7). -/
opaque lineWord : Line → Durable → Fin 8 → BitVec 64

/-- The 8-bit SECDED code of a 64-bit word (R597 gives no polynomial, log entry 7). -/
opaque secded : BitVec 64 → BitVec 8

end Sys2Proof.Config

namespace Sys2Proof.Machine

open Sys2Proof

/-! ### Slots (R596 to R598) -/

/-- What one line of a durable state holds. -/
def Durable.only (l : Line) (d : Durable) : Durable := Durable.merge (fun x => x == l) d .initial

/-- What the lines of the context area hold. -/
def Durable.contexts (d : Durable) : Durable := Durable.merge Line.isContext d .initial

/-- The Mirror channel of a line (R55, R596). -/
def Line.channel (l : Line) : Nat := l.bank / 4

/-- A line's slots by their number: 2 x LA + k. -/
def slotKey (la : Nat) (one : Bool) : Nat := 2 * la + b2n one

/-- The ten words of a slot (R597): the data of its line, their XOR, and the tag word with the line's address and bits
[31:0] of the epoch (the manual gives their order in it by name only: the epoch below the address). -/
def Slot.words (x : Slot) : List (BitVec 64) :=
  let data := (List.finRange 8).map (Config.lineWord (lineOf x.la) x.value)
  data ++ [data.foldl (· ^^^ ·) 0, BitVec.ofNat 64 (x.epoch % 2 ^ 32 + 2 ^ 32 * x.la)]

/-- The 90 bytes of a slot: each word with its SECDED code. -/
def Slot.stored (x : Slot) : List (BitVec 64 × BitVec 8) := x.words.map fun w => (w, Config.secded w)

/-- An uncorrectable word of the first nine, rebuilt from the other eight (R598). -/
def rebuildWord (words : List (BitVec 64)) (i : Nat) : BitVec 64 :=
  ((words.take 9).eraseIdx i).foldl (· ^^^ ·) 0

/-- The words of a slot that its read corrects, rebuilds and finds uncorrectable (R598). -/
def slotErrors (errors : List WordError) (la : Nat) : Nat × List (Fin 10) :=
  let mine := errors.filter fun e => e.line == la
  ((mine.filter fun e => !e.double).length, (mine.filter fun e => e.double).map WordError.word)

/-- A slot with more than one uncorrectable word, or an uncorrectable tag word, is lost (R598). -/
def slotUnreadable (errors : List WordError) (la : Nat) : Bool :=
  let words := (slotErrors errors la).2
  decide (1 < words.length) || words.any (fun w => w.val == 9)

/-- Slot k of a line as written: since the last root of KIND 3, or by it. -/
def Mram.slot (m : Mram) (la : Nat) (one : Bool) : Option Slot :=
  match mget none m.slots (slotKey la one) with
  | some x => some x
  | none => if one then none else m.base.map fun b => { la := la, epoch := b.1, value := b.2.only (lineOf la) }

/-- The context area's slots 0 or 1. -/
def Mram.context (m : Mram) (one : Bool) : Option Slot :=
  if one then m.context1
  else m.context0.orElse fun _ => m.base.map fun b => { la := 16320, epoch := b.1, value := b.2.contexts }

/-- Bit LA of a slot map (R608). -/
def SlotMap.bit (x : SlotMap) (la : Nat) : Bool :=
  if (lineOf la).isContext then x.context else decide (la ∈ x.lines)

/-- A line written to its next slot (R601): the one of the pair that the last root's map does not name. -/
def writeSlot (l : Line) (image : Durable) (s : State) : State :=
  let slot : Slot := { la := l.la, epoch := s.dur.g.epoch % 2 ^ 32, value := image.only l }
  { s with mram := { s.mram with
    slots := mput none (slotKey l.la (!s.durab.current.bit l.la)) (some slot) s.mram.slots } }

/-- The context area's lines written to their next slots (R635, R636). -/
def writeContexts (image : Durable) (s : State) : State :=
  let slot : Slot := { la := 16320, epoch := s.dur.g.epoch % 2 ^ 32, value := image.contexts }
  { s with mram :=
    if s.durab.current.context then { s.mram with context0 := some slot } else { s.mram with context1 := some slot } }

/-! ### Stripes (R636, R637, R647) -/

/-- The lines of a channel, in ascending line address, in stripes of 64. -/
def stripesOf (las : List Nat) : Nat → List (List Nat)
  | 0 => []
  | n + 1 => if las.isEmpty then [] else las.take 64 :: stripesOf (las.drop 64) n

/-- The stripes of the eight channels in lockstep: stripe k of every channel that has one, before stripe k + 1 of any.
So no channel begins stripe k + 3 before each has finished its stripe k (R637), and a channel with no lines left
writes nothing more. -/
def lockstep (las : List Nat) : List (List Nat) :=
  let sorted := las.foldl (fun l x => insertSorted x l) []
  let channel := fun c => stripesOf (sorted.filter fun la => (lineOf la).channel == c) sorted.length
  let most := (List.range 8).foldl (fun n c => max n (channel c).length) 0
  (List.range most).map fun k => (List.range 8).flatMap fun c => (channel c).getD k []

/-- The stripes that hold a number of lines. -/
def stripeCount (lines : Nat) : Nat := (lines + 63) / 64

/-! ### The bytes of a root (Table DU-2, R608) -/

/-- KIND of a root (Table DU-2). -/
def RootKind.num : RootKind → Nat
  | .checkpoint => 0
  | .storm => 1
  | .recovery => 2
  | .mirrorStart => 3

/-- MAGIC and FORMAT of a root (Table DU-2). -/
def rootMagic : Nat := 0x5254434F
def rootFormat : Nat := 0x0100

/-- Header bytes 0 to 4091. -/
def Place.header (p : Place) : List Byte :=
  let h := p.head
  bytesAt (leBytes 4 p.magic ++ leBytes 2 p.format ++ [BitVec.ofNat 8 h.kind.num, 0] ++ leBytes 8 h.epoch ++
    leBytes 8 h.prevEpoch ++ leBytes 4 p.mapCrc.toNat ++ leBytes 4 h.flipped ++ leBytes 2 h.stripes ++
    leBytes 2 h.spareList.length ++ leBytes 4 h.retries ++ leBytes 4 h.captureUs ++ List.replicate 20 0 ++
    ((List.range 32).flatMap fun b => leBytes 4 (mget 0 h.summary b)) ++
    ((List.range 8).flatMap fun c =>
      leBytes 4 (mget (0, 0) h.stripeMap c).1 ++ leBytes 2 (mget (0, 0) h.stripeMap c).2 ++ [0, 0]) ++
    h.spareList.flatMap fun w => leBytes 4 w) 0 4092

/-- The 64 KiB of a slot map: bit LA names the current slot of line LA. -/
def SlotMap.bytes (x : SlotMap) : List Byte :=
  (List.range 65536).map fun i =>
    BitVec.ofNat 8 ((List.range 8).foldl (fun n k => n + 2 ^ k * b2n (x.bit (8 * i + k))) 0)

/-- A place into which a root is written whole. -/
def Place.of (head : RootHead) (map : SlotMap) (lost retired : List Nat) : Place :=
  let p : Place :=
    { magic := rootMagic, format := rootFormat, head := head, map := map, mapCrc := crc32c map.bytes, crc := 0,
      badHead := false, badWord := false, lost := lost,
      retired := retired }
  { p with crc := crc32c p.header }

/-- A place that recovery may use (R609). -/
def Place.valid (p : Place) : Bool :=
  p.magic == rootMagic && p.format == rootFormat && !p.badHead && !p.badWord &&
    p.crc == crc32c p.header && p.mapCrc == crc32c p.map.bytes

/-- The valid place of a copy with the higher EPOCH (R611). -/
def newestOf (a b : Option Place) : Option Place :=
  match a.filter Place.valid, b.filter Place.valid with
  | some x, some y => if x.head.epoch < y.head.epoch then some y else some x
  | some x, none => some x
  | none, y => y

/-- A root written into the place that does not hold its copy's newest valid root (R610). -/
def writeCopy (p : Place) (a b : Option Place) : Option Place × Option Place :=
  match a.filter Place.valid, newestOf a b with
  | some x, some y => if x = y then (a, some p) else (some p, b)
  | _, _ => (some p, b)

/-- A root written into copy A or copy B. -/
def Mram.write (m : Mram) (toB : Bool) (p : Place) : Mram :=
  if toB then
    let (x, y) := writeCopy p m.b0 m.b1
    { m with b0 := x, b1 := y }
  else
    let (x, y) := writeCopy p m.a0 m.a1
    { m with a0 := x, a1 := y }

/-- A place whose commit power cut short: header bytes 0 to 63 are written (R608), and a word of the rest reads with an
uncorrectable error (R641, R646: log entry 77). -/
def Place.torn (p : Place) : Place := { p with badWord := true }

/-- Both copies of a root, the one that bit 0 of its EPOCH names first (R612), as far as power lasts. -/
def Mram.writeBoth (m : Mram) (p : Place) (ending : StormEnd) : Mram :=
  let first := decide (p.head.epoch % 2 = 1)
  match ending with
  | .complete => (m.write first p).write (!first) p
  | .lostBeforeRoot => m
  | .lostBeforeFirstCopy => m.write first p.torn
  | .lostBetweenCopies => (m.write first p).write (!first) p.torn

/-- MAGIC of both places of both copies overwritten with zero (R610, R620). -/
def Mram.erase (m : Mram) : Mram :=
  let z := fun (p : Option Place) => p.map fun (x : Place) => { x with magic := 0 }
  { m with a0 := z m.a0, a1 := z m.a1, b0 := z m.b0, b1 := z m.b1 }

/-- What the boot's reads find unreadable in the places (copy A places 0 and 1, copy B places 0 and 1), which stays so
until a root is written there. -/
def Mram.marked (m : Mram) (bad : List (Fin 4 × Bool)) : Mram :=
  let mark := fun (n : Nat) (p : Option Place) => p.map fun (x : Place) =>
    { x with
      badHead := x.badHead || bad.any (fun b => b.1.val == n && b.2)
      badWord := x.badWord || bad.any (fun b => b.1.val == n && !b.2) }
  { m with a0 := mark 0 m.a0, a1 := mark 1 m.a1, b0 := mark 2 m.b0, b1 := mark 3 m.b1 }

/-! ### The header of a root -/

/-- The lines of each bank that a root flips (Table DU-2): those written since the previous root's cut (R614), and the
bank's 64 lines of the context area. -/
def dirtySummary (written : List Line) : SMap Nat :=
  (List.range 32).map fun b => (b, 64 + (written.filter fun l => l.bank == b).length)

/-- The slot map of a new root (R614): the next slot of every line written, the previous current slot of the others. -/
def flipMap (s : State) (written : List Line) : SlotMap :=
  let was := s.durab.current
  let flipped := written.map Line.la
  { lines := flipped.foldl (fun m la => if la ∈ was.lines then m else insertSorted la m)
      (was.lines.filter fun la => la ∉ flipped)
    context := !was.context }

/-- The header of a root that flips the lines written (Table DU-2). -/
def headOf (s : State) (kind : RootKind) (epoch : Nat) (written : List Line) : RootHead :=
  { kind := kind, epoch := epoch, prevEpoch := s.dur.g.lastRootEpoch, flipped := written.length + 2048, stripes := 0,
    retries := 0, captureUs := 0, summary := dirtySummary written, stripeMap := [], spareList := s.mram.spareList }

/-! ### Spares and faults of the channels (R638, R639, R654) -/

/-- A Mirror channel's fault (R654): its source, MIRROR_FAULT in every copy, and the management event. -/
def mirrorFault (channel : Nat) (s : State) : State :=
  ({ s with durab := { s.durab with status := s.durab.status.all (· ||| 1) } }.mgmt 6).raise (0x101038 + channel)

/-- The word of SPARE_LIST that a slot gets (Table DU-2). -/
def spareWord (la : Nat) (one : Bool) (spare : Nat) : Nat :=
  slotKey la one % 2 ^ 17 + 2 ^ 18 * (lineOf la).channel + 2 ^ 21 * spare

/-- Whether a spare of its channel already stands for the line's next slot. -/
def hasSpare (s : State) (la : Nat) : Bool :=
  s.mram.spareList.any fun w => w % 2 ^ 21 == spareWord la (!s.durab.current.bit la) 0

/-- A slot whose third retry failed is replaced by a spare of its channel, if one is left (R638). -/
def retireSlot (la : Nat) (s : State) : State :=
  let c := (lineOf la).channel
  let left := mget 32 s.mram.spares c
  if left = 0 then s
  else
    let word := spareWord la (!s.durab.current.bit la) (32 - left)
    { s with mram := { s.mram with
      spares := mput 32 c (left - 1) s.mram.spares
      spareList := (s.mram.spareList.filter fun w => w % 2 ^ 21 != word % 2 ^ 21) ++ [word] } }

end Sys2Proof.Machine
end

