-- ==== Sys2Proof/Machine/Sources.lean ====
section
/-!
DEFINITION. The source state machine at the Store banks (Table PK-3), the configuration of sources,
targets and reach, the flush barrier they drive (DU.5), and the selection of a Rank island (PK.7).
-/

namespace Sys2Proof.Machine

open Sys2Proof

/-- MODE of a wired line, 0 for every other source (Table WS-1). -/
def lineMode (s : State) (sn : Nat) : Nat :=
  if 0x100000 ≤ sn && sn < 0x100200 then (mget PinCfg.initial s.dur.pins (sn - 0x100000)).mode
  else if 0x100200 ≤ sn && sn < 0x101000 then mget 0 s.dur.lines (sn - 0x100200)
  else 0

/-- A level mode (Table WS-1). -/
def isLevelMode (mode : Nat) : Bool := mode == 1 || mode == 2

/-- A source in a level mode with LEVEL 1 (R213). -/
def levelAsserted (s : State) (sn : Nat) (r : Source) : Bool := isLevelMode (lineMode s sn) && r.level

/-- Note slots in use in a bank (R272). -/
def notesUsed (s : State) (bank : Nat) : Nat :=
  s.dur.sources.foldl (fun n p => if bankOf p.1 == bank then n + p.2.notes.length else n) 0

/-- Free note slots of a bank (R272). -/
def notesFree (s : State) (bank : Nat) : Nat := 8192 - notesUsed s bank

/-! ### Transitions of Table PK-3 -/

/-- An event: Idle becomes Pending with AGE 0, Active is re-armed, Pending is unchanged. -/
def applyEvent (sn : Nat) (s : State) : State :=
  let r := s.src sn
  match r.state with
  | .idle =>
    let r' := { r with state := .pending, ageBase := s.ageZero r.target r.cls }
    (s.putSrc sn r').notifyRoute sn r.target r.cls (some (candOf r'))
  | .pending => s
  | .active => if r.rearm then s else s.putSrc sn { r with rearm := true }

/-- The record after it leaves Active: Pending with AGE 0, or Idle (Table PK-3). -/
def leaveActive (s : State) (pend : Bool) (r : Source) : Source :=
  { r with
    state := if pend then .pending else .idle
    rearm := false
    holder := none
    carried := false
    ageBase := if pend then s.ageZero r.target r.cls else r.ageBase }

/-- WITHDRAW (Table PK-3). -/
def withdrawSource (sn : Nat) (s : State) : State :=
  let r := s.src sn
  match r.state with
  | .idle => s
  | .pending =>
    if levelAsserted s sn r || !r.notes.isEmpty then s
    else (s.putSrc sn { r with state := .idle }).notifyRoute sn r.target r.cls none
  | .active => s.putSrc sn { r with rearm := false }

/-! ### The flush barrier (DU.5) -/

/-- Targets that are WAITING. -/
def flushWaiting (s : State) : Nat :=
  (s.dur.targets.filter (fun p => p.2.flush == .waiting)).length

/-- Targets HUNG or RESET (Table DU-6). -/
def flushHung (s : State) : Nat :=
  (s.dur.targets.filter (fun p => p.2.flush == .hung || p.2.flush == .reset)).length

/-- FLUSH_DONE and the warning's channel changed; they are durable (R628). -/
def setFlush (f : Globals → Globals) (s : State) : State :=
  (s.modG f).touchIf (f s.dur.g != s.dur.g) (objectLine 719)

/-- The barrier completes when no target is WAITING (R626). -/
def flushCheck (s : State) : State :=
  if s.dur.g.flushDone || flushWaiting s != 0 then s
  else (setFlush (fun g => { g with flushDone := true }) s).raise 0x101061

/-- A WAITING target leaves that state (R625), and the barrier is looked at. -/
def flushLeave (tn : Nat) (to' : Flush) (s : State) : State :=
  if (s.tgt tn).flush == .waiting then flushCheck (s.putTgt tn { s.tgt tn with flush := to' }) else s

/-- The warning source of a target: of the channel that the last power warning raised (R623, R625). -/
def warnSn (s : State) (tn : Nat) : Nat := ipiSn tn s.dur.g.warnRaised

/-! ### Claim, EOI and holder reset at a bank -/

/-- The bank accepts a claim only of a Pending source routed to this target and class (R308). -/
def claimAccepted (s : State) (tn : Nat) (c : Cls) (sn : Nat) : Bool :=
  let r := s.src sn
  r.state == .pending && r.target == some tn && r.cls == c

/-- What an accepted claim does at the bank and at the Rank island's counter (Table PK-3, R280, R307,
R315), and to the warning's barrier (R625). -/
def acceptClaim (tn : Nat) (c : Cls) (sn : Nat) (note : Bool) (s : State) : State :=
  let r := s.src sn
  let s := s.putSrc sn { r with
    state := .active
    holder := some (tn, c)
    rearm := false
    noteLost := false
    carried := note && !r.notes.isEmpty }
  let s := { s with dur := { s.dur with claims := mmod 0 s.dur.claims (tkey tn c) (· + 1) } }.touch
    (targetLine tn)
  let t := s.tgt tn
  if sn == warnSn s tn && t.warnArmed then s.putTgt tn { t with warnClaimed := true } else s

/-- A source is Active with this holder (R838). -/
def heldBy (s : State) (tn : Nat) (c : Cls) (sn : Nat) : Bool :=
  let r := s.src sn
  r.state == .active && r.holder == some (tn, c)

/-- The EOI transition of Table PK-3 at the bank, with the note slot freed (R276). -/
def eoiTransition (sn : Nat) (s : State) : State :=
  let r := s.src sn
  let notes := if r.carried then r.notes.drop 1 else r.notes
  let noteHead := if r.carried then (r.noteHead + 1) % 8192 else r.noteHead
  let pend := r.rearm || levelAsserted s sn r || !notes.isEmpty
  let r' := { leaveActive s pend r with notes := notes, noteHead := noteHead }
  let s := s.putSrc sn r'
  if pend then s.notifyRoute sn r.target r.cls (some (candOf r')) else s

/-- An EOI accepted by the bank: the source leaves Active, and the Rank island is told (R335, R625). -/
def acceptEoi (tn : Nat) (c : Cls) (sn : Nat) (s : State) : State :=
  let ended := sn == warnSn s tn && (s.tgt tn).warnClaimed
  let s := (eoiTransition sn s).notifyRank sn tn (.done tn c sn)
  if ended then flushLeave tn .done s else s

/-- The holder-reset transition of Table PK-3 (R838). -/
def holderReset (tn : Nat) (c : Cls) (sn : Nat) (s : State) : State :=
  if heldBy s tn c sn then
    let r := s.src sn
    (s.putSrc sn (leaveActive s true r)).notifyRoute sn r.target r.cls (some (candOf (leaveActive s true r)))
  else s

/-! ### Configuration of sources, targets and reach -/

/-- W_MASK in nanoseconds (R373). -/
def wMask : Nat := 250

/-- The time at which a mask took effect is kept for the limits of R373; an unmask ends them. -/
def maskTimed (sn : Nat) (was now : Bool) (s : State) : State :=
  if was == now then s
  else s.modFabric fun f => { f with maskedAt := mput 0 sn (if now then s.now + 1 else 0) f.maskedAt }

/-- W_MASK has passed since a mask of the source took effect (R373). -/
def maskOver (s : State) (sn : Nat) : Bool :=
  match mget 0 s.fabric.maskedAt sn with
  | 0 => false
  | t + 1 => decide (t + wMask ≤ s.now)

/-- A route change of a source (R316, R325, R338): the fields named are set, AGE restarts when TARGET or
CLASS changes, and a Pending source is notified for its old and its new route. TARGET and ROOM of an
IPI source are not applied (R339, R468). -/
def applyRoute (n : Route) (s : State) : State :=
  let r := s.src n.sn
  let ipi := isIpi n.sn
  let target := if ipi then r.target else n.target.getD r.target
  let room := if ipi then r.room else n.room.getD r.room
  let cls := n.cls.getD r.cls
  let r' := { r with
    target := target
    room := room
    cls := cls
    priority := n.priority.getD r.priority
    mask := n.mask.getD r.mask
    ageBase := if target == r.target && cls == r.cls then r.ageBase else s.ageZero target cls }
  if r' = r then s
  else
    let s := maskTimed n.sn r.mask r'.mask (s.putSrc n.sn r')
    if r.state == .pending then
      if target == r.target && cls == r.cls then s.notifyRoute n.sn target cls (some (candOf r'))
      else (s.notifyRoute n.sn r.target r.cls none).notifyRoute n.sn target cls (some (candOf r'))
    else s

/-- The Room 0 guard of R332 for a move between two Rooms. -/
def room0Guard (s : State) (from' to' : Nat) : Bool :=
  s.keeper.deadbolts.getLsbD 0 && (from' != to') && (from' == 0 || to' == 0)

/-- The mask bit of a source set (R372, R376). -/
def setMask (sn : Nat) (m : Bool) (s : State) : State :=
  applyRoute { sn := sn, target := none, priority := none, cls := none, room := none, mask := some m } s

/-- What a Rank island has learned of the sources of a target and class (R336). -/
def State.viewOf (s : State) (tn : Nat) (c : Cls) : SMap Cand := mget [] s.fabric.view (tkey tn c)

/-- Every target and class of which a Rank island knows a Pending source or has a slot in use, of the targets that
satisfy a test: their Rank islands select anew (R314, R330). -/
def renotify (test : Nat → Bool) (s : State) : State :=
  let keys := (s.fabric.view.map Prod.fst).foldl (fun acc k => if test (k / 2) then insertSorted k acc else acc) []
  let keys := s.fabric.rank.foldl (fun acc p => if test (p.1 / 2) then insertSorted p.1 acc else acc) keys
  keys.foldl (fun s k => s.owe (k / 2) (Cls.at (k % 2))) s

/-- A target's Room changed, with its IPI sources (R329, R333). Its Pane latches are cleared (R524). -/
def setTargetRoom (tn room : Nat) (s : State) : State :=
  let s := s.putTgt tn { s.tgt tn with room := room }
  let s := (s.modSlot tn .normal fun d => { d with latch := none }).modSlot tn .fast fun d =>
    { d with latch := none }
  renotify (· == tn) s

/-- A reach mask changed at every Rank island concerned (R327, R330). -/
def setReach (m : Nat) (mask : BitVec 16) (s : State) : State :=
  let v := mask ||| BitVec.ofNat 16 (2 ^ m)
  let s := (s.modG fun g => { g with reach := setAt g.reach m v }).touchIf (s.dur.g.reach.getD m 0 != v)
    (objectLine (300 + m))
  renotify (fun _ => true) s

/-! ### Selection (PK.4, PK.7), by what the Rank island knows -/

/-- The Room of a source as its Rank island has it: an IPI source's is its target's (R333). -/
def candRoom (s : State) (tn sn : Nat) (k : Cand) : Nat := if isIpi sn then (s.tgt tn).room else k.room

/-- A Pending source is eligible for its target and class (R312). The thresholds, the targets' Rooms and the reach
masks are the Rank island's own copies (R311, R330). -/
def eligible (s : State) (tn : Nat) (c : Cls) (sn : Nat) (k : Cand) : Bool :=
  decide (k.priority < (s.tgt tn).threshold c) && s.canReach (candRoom s tn sn k) (s.tgt tn).room && !k.mask

/-- AGE of a Pending source, by the Rank island's claim counter (R315, R316). -/
def candAge (s : State) (tn : Nat) (c : Cls) (k : Cand) : Nat := min 65535 (s.claimCount tn c - k.ageBase)

/-- Source `a` comes before source `b` for a target and class (Table PK-4). -/
def comesBefore (s : State) (tn : Nat) (c : Cls) (a b : Nat × Cand) : Bool :=
  let ga := candAge s tn c a.2
  let gb := candAge s tn c b.2
  let satA := ga == 65535
  let satB := gb == 65535
  if satA != satB then satA
  else if a.2.priority != b.2.priority then decide (a.2.priority < b.2.priority)
  else if ga != gb then decide (gb < ga)
  else decide (a.1 < b.1)

/-- The first eligible source for a target and class (R317). -/
def firstEligible (s : State) (tn : Nat) (c : Cls) : Option (Nat × Cand) :=
  (s.viewOf tn c).foldl
    (fun best p =>
      if eligible s tn c p.1 p.2 then
        match best with
        | none => some p
        | some b => if comesBefore s tn c p b then some p else some b
      else best) none

/-- The offered source as the Rank island knows it, if it is eligible. -/
def offeredStill (s : State) (tn : Nat) (c : Cls) (sn : Nat) : Option (Nat × Cand) :=
  (s.viewOf tn c).find? fun p => p.1 == sn && eligible s tn c p.1 p.2

/-- What a selection carries (DL.3): SN, priority, Room, NOTE_LOST and the head note. -/
def offerOf (s : State) (tn : Nat) (p : Nat × Cand) : OfferData :=
  { sn := p.1, priority := p.2.priority, room := candRoom s tn p.1 p.2, noteLost := p.2.noteLost, note := p.2.note }

/-- A transfer on the Select channel of the target's Delivery island. -/
def sendSelect (tn : Nat) (m : Select) (s : State) : State :=
  s.modFabric fun x => { x with selectQ := mmod [] x.selectQ (tn / 64) (· ++ [s.sent (idRank (tn / 256)) m]) }

/-- An answer on its way, for which a channel keeps space (R45, R357). -/
def Select.reserved : Select → Bool
  | .select _ _ _ => false
  | .retract _ _ => false
  | .done _ _ _ => true
  | .answer _ _ _ _ _ _ => true

/-- Selections and retractions that stand in the Select channel of the target's Delivery island. -/
def selectUsed (s : State) (tn : Nat) : Nat :=
  ((mget [] s.fabric.selectQ (tn / 64)).filter fun x => !x.body.reserved).length

/-- An offer made or replaced. -/
def sendOffer (tn : Nat) (c : Cls) (p : Nat × Cand) (s : State) : State :=
  sendSelect tn (.select tn c (offerOf s tn p)) (s.setRank tn c (.offered p.1))

/-- A Fast source is held Active by the target: no Normal offer into an EMPTY slot (R322). -/
def fastHolding (s : State) (tn : Nat) : Bool :=
  match s.rankSlot tn .fast with
  | .holding _ => true
  | _ => false

/-- One selection step for a target and class (R334). -/
def selectStep (tn : Nat) (c : Cls) (s : State) : State :=
  match s.rankSlot tn c, firstEligible s tn c with
  | .empty, some b => if c == .normal && fastHolding s tn then s else sendOffer tn c b s
  | .empty, none => s
  | .holding _, _ => s
  | .offered x, some b =>
    match offeredStill s tn c x with
    | some p => if b.1 != x && comesBefore s tn c b p then sendOffer tn c b s else s
    | none => sendOffer tn c b s
  | .offered _, none => sendSelect tn (.retract tn c) (s.setRank tn c .empty)

/-- What a Rank island knows of a source for a target and class, changed. -/
def learn (tn : Nat) (c : Cls) (sn : Nat) (k : Option Cand) (s : State) : State :=
  s.modFabric fun f => { f with
    view := mmod [] f.view (tkey tn c) fun v =>
      match k with
      | some k => mins (sn, k) (v.filter fun p => p.1 != sn)
      | none => v.filter fun p => p.1 != sn }

/-- The selections that the end of a class's held source starts: its own class's, and Normal's when Fast ends (R322,
R335). -/
def selectAfter (tn : Nat) (c : Cls) (s : State) : State :=
  let s := selectStep tn c s
  match c with
  | .fast => selectStep tn .normal s
  | .normal => s

/-- A Rank island takes a transfer: a change is learned and followed by one selection step; the end of a held source
empties its slot, passes on and is followed by a selection; a claim answer updates the slot and passes on, with no
selection (R334, R335, R336, R357). -/
def takeNotify (n : Notify) (s : State) : State :=
  match n with
  | .change tn c sn k => selectStep tn c (learn tn c sn k s)
  | .done tn c sn =>
    let s := if s.rankSlot tn c == .holding sn then s.setRank tn c .empty else s
    selectAfter tn c (sendSelect tn (.done tn c sn) s)
  | .answer tn c sn ok lost at' =>
    sendSelect tn (.answer tn c sn ok lost at') (if ok then learn tn c sn none (s.setRank tn c (.holding sn)) else s)

/-- The target of a Notify transfer. -/
def Notify.tn : Notify → Nat
  | .change tn _ _ _ => tn
  | .done tn _ _ => tn
  | .answer tn _ _ _ _ _ => tn

/-- A claim answer, for which the Notify channel keeps space (R357). -/
def Notify.reserved : Notify → Bool
  | .answer _ _ _ _ _ _ => true
  | _ => false

/-- A Rank island's step that would send more than a Select channel's eight places hold is held (R44, Table IH-2). -/
def selectHeld (tn : Nat) (f : State → State) (s : State) : State :=
  if selectUsed (f s) tn ≤ max 8 (selectUsed s tn) then f s else s

/-- The oldest transfer of a Rank island's Notify channel is taken, while its Select channel has room (R44). -/
def rankStep (rank : Nat) (s : State) : State :=
  match mget [] s.fabric.notifyQ rank with
  | [] => s
  | x :: rest =>
    selectHeld x.body.tn (fun s => receiving x [idRank rank]
      (fun s => takeNotify x.body (s.modFabric fun f => { f with notifyQ := mput [] rank rest f.notifyQ })) s) s

/-- A selection that a Rank island owes to a write of a threshold, a Room or a reach mask, or to a target reset. -/
def dueStep (rank : Nat) (s : State) : State :=
  match mget [] s.fabric.due rank with
  | [] => s
  | (tn, c) :: rest =>
    selectHeld tn (fun s => selectStep tn c (s.modFabric fun f => { f with due := mput [] rank rest f.due })) s

/-- SELECTION: a Rank island starts the selection it owes, or takes the oldest Notify transfer (R334, R336, R357). -/
def execSelection (rank : Fin 16) (s : State) : Host.Outcome State Fault Refusal :=
  answer s <| handshake [idRank rank] fun s =>
    if (mget [] s.fabric.due rank).isEmpty then rankStep rank s else dueStep rank s

end Sys2Proof.Machine
end

