-- ==== Sys2Proof/Machine/Work.lean ====
section
/-!
DEFINITION. The bodies of work items and the checks of their entries (R459), when a work queue has work (R427, R429),
and the passage of time: the clock and the counters
of waiting time that run with it (R287, R433, R603). An expiry's command takes the time to its
expiry; time that passes with no command waiting is the tick of `step`.
-/

namespace Sys2Proof.Machine

open Sys2Proof

/-! ### Items -/

/-- KIND, FLAGS and TAG of an entry (Table WQ-1). -/
def Item.kind (it : Item) : Nat := fieldAt it.entry 0 1
def Item.flags (it : Item) : Nat := fieldAt it.entry 1 1
def Item.tag (it : Item) : Nat := fieldAt it.entry 2 2

/-! ### Fields of the bodies -/

/-- OFFSET and LENGTH of an append, LENGTH clamped (Table WI-8). -/
def appendOffset (it : Item) : Nat := fieldAt it.entry 16 4
def appendLength (it : Item) : Nat :=
  min (fieldAt it.entry 20 2) (if bit it.flags 2 then 32 else 4096)

/-- COUNT of a ROUTE_BATCH or SWING as posted (Tables WI-5, WI-6). -/
def recordCount (it : Item) : Nat := fieldAt it.entry 24 4

/-- A body's byte. -/
def Item.byte (it : Item) (n : Nat) : Nat := fieldAt it.entry n 1

/-- COUNT of a multicast, clamped (Table WI-3). -/
def ipiCount (it : Item) : Nat :=
  let c := fieldAt it.entry 18 2
  if it.byte 17 = 0 then min c 16 else min c (4096 - fieldAt it.entry 20 2)

/-- The numbers' space of a ROOM_REASSIGN (Table WI-11). -/
def objectSpace (object : Nat) : Nat :=
  match object with
  | 0 => 0x120000
  | 1 => 4096
  | _ => 256

/-- COUNT of a ROOM_REASSIGN, clamped. -/
def reassignCount (it : Item) : Nat :=
  min (fieldAt it.entry 24 4) (objectSpace (it.byte 16) - fieldAt it.entry 20 4)

/-- LENGTH of a HOST_STORE, clamped (Table WI-10). -/
def storeLength (it : Item) : Nat := min (it.byte 22) 32

/-! ### Authority and checks (WI.1) -/

/-- The Room of a segment (R558). -/
def State.segRoom (s : State) (seg : Nat) : Nat := mget 0 s.dur.segRooms seg

/-- The segments that bytes from an offset on touch. -/
def segmentsOf (offset len : Nat) : List Nat :=
  (List.range ((offset + max len 1 - 1) / 2 ^ 20 + 1 - offset / 2 ^ 20)).map (· + offset / 2 ^ 20)

/-- An item with this acting Room may change an object of a Room (R457). -/
def mayAct (acting room : Nat) : Bool := acting == 0 || acting == room

/-- The code of the first check that an item's own entry fails, in the order of Table WI-2 (R459). -/
def entryCheck (s : State) (q : Nat) (it : Item) : Option Nat :=
  let acting := (s.queue q).room
  let denied := fun sn => !mayAct acting (s.src sn).room
  match it.kind with
  | 1 =>
    if decide (2 < it.byte 17) || (it.byte 17 == 1 && decide (4095 < fieldAt it.entry 20 2)) ||
        (it.byte 17 == 0 && (List.range (ipiCount it)).any fun k =>
          decide (4095 < fieldAt it.entry (32 + 2 * k) 2)) then some 0x10
    else none
  | 4 =>
    if 1 < it.byte 17 then some 0x10
    else if denied (0x101200 + it.byte 16) then some 0x11
    else none
  | 5 => if denied (0x101200 + it.byte 16) then some 0x11 else none
  | 6 =>
    let off := appendOffset it
    let len := appendLength it
    let segs := (segmentsOf off len).filter (· < 64)
    if (len != 0 && segs.any fun g => !mayAct acting (s.segRoom g)) ||
        (bit it.flags 3 && denied (0x101300 + it.byte 22)) then some 0x11
    else if 0x4000000 < off + len then some 0x12
    else none
  | 8 =>
    let a := fieldAt it.entry 16 6
    if 4096 < a % 4096 + storeLength it then some 0x12 else none
  | 10 =>
    if decide (2 < it.byte 16) || decide (15 < it.byte 17) || decide (15 < it.byte 18) ||
        decide (objectSpace (it.byte 16) ≤ fieldAt it.entry 20 4) then some 0x10
    else if acting != 0 then some 0x11
    else none
  | 11 =>
    if decide (15 < it.byte 16) || decide (1 < it.byte 17) then some 0x10
    else if !mayAct acting (it.byte 16) then some 0x11
    else none
  | _ => none

/-- One of the entry's quantities lies outside its range (R461). -/
def entryClamped (it : Item) : Bool :=
  match it.kind with
  | 1 => it.byte 17 != 2 && decide (ipiCount it ≠ fieldAt it.entry 18 2)
  | 2 => decide (1119232 < recordCount it)
  | 3 => decide (65536 < recordCount it)
  | 4 => decide (fieldAt it.entry 20 4 = 0) || (it.byte 17 == 1 && decide (fieldAt it.entry 24 4 < 10))
  | 6 => decide (appendLength it ≠ fieldAt it.entry 20 2)
  | 8 => decide (32 < it.byte 22)
  | 10 => decide (reassignCount it ≠ fieldAt it.entry 24 4)
  | _ => false

/-! ### Steps that are ready -/

/-- The item's next step from here begins with a read of host memory: of a bitmap, of records or of an append's data,
but for zero counts (R462, R470, R476, R493, R510). A Swing's step 1 reads nothing. -/
def Item.needsPort (it : Item) : Bool :=
  match it.kind with
  | 1 => fieldAt it.entry 17 1 == 2 && it.step == 0
  | 2 => if it.step == 0 then fieldAt it.entry 24 4 != 0 else decide (it.pos < it.count)
  | 3 => it.step != 0 && decide (it.pos < it.count)
  | 6 => !bit it.flags 2 && it.step == 0 && fieldAt it.entry 20 2 != 0
  | _ => false

/-- The first item of a queue whose last issued step is still to come (R429, R455). -/
def currentItem (q : Queue) : Option Item := q.items.find? fun it => !it.issued

/-- Pieces of a port's stream of BAR4 writes that a FENCE with LEDGER set waits for (R497). -/
def fencePieces (s : State) (port : Port) (mark : Nat) : Bool :=
  (s.ledger.stream ++ s.ledger.inbox).any fun p =>
    p.port == port && p.append.isNone && decide (p.id < mark)

/-- The item is the first of its queue: every earlier one has completed, its completion passed on (R436). -/
def isHead (s : State) (q : Nat) (it : Item) : Bool := (s.queue q).items.head?.map Item.slot == some it.slot

/-- What an item that holds the engine waits for has come: nothing, its port may issue (R448), its earlier items have
completed (R500; of a FENCE, with the writes of its LEDGER scope persistent: R496, R497), or its read's data are in. -/
def stepGoesOn (s : State) (q : Nat) (it : Item) : Bool :=
  match it.wait with
  | .port => (s.port (s.queue q).port).canIssue
  | .earlier =>
    isHead s q it &&
      !(it.kind == 7 && bit (fieldAt it.entry 16 1) 1 && fencePieces s (s.queue q).port it.pieces)
  | .nothing | .arrived _ => true
  | _ => false

/-- The ring size (R401). -/
def Queue.size (q : Queue) : Nat := 2 ^ q.sizeLog2

/-- Item contexts in use in a Queue island (R426). -/
def contextsUsed (s : State) (island : Nat) : Nat :=
  (List.range 16).foldl (fun n k => n + (s.queue (16 * island + k)).items.length) 0

/-- No completion held and no item left by a power failure comes before the next entry (R450, R547). -/
def takingOpen (d : Queue) : Bool := d.items.all fun it => !it.held && !it.recovered

/-- The queue may take the entry at TAKE (R427, R450, R547): it is RUNNING, the entry is owned and
fetched, and no item comes first. -/
def canTake (s : State) (q : Nat) : Bool :=
  let d := s.queue q
  let v := s.qvol q
  v.state == .running && decide (d.items.length < 32) && decide (contextsUsed s (q / 16) < 64) &&
    takingOpen d && v.window.any fun f => f.slot == d.take && f.owned && f.fault.isNone

/-- The item that holds an island's engine inside a step (R431). -/
def State.engine (s : State) (island : Nat) : Option (Nat × Nat) :=
  (s.queues.engine.find? fun p => p.1 == island).map Prod.snd

/-- The item that holds the queue's engine, if it is one of this queue's. -/
def engineItem (s : State) (q : Nat) : Option Item :=
  match s.engine (q / 16) with
  | some (k, slot) => if k == q then (s.queue q).items.find? fun it => it.slot == slot else none
  | none => none

/-- The item has a step ready to issue: it waits for nothing, and its port may issue where its next step begins with a
read (R448); not where its own entry ends it first (R459), nor where a power failure has (Table WI-14). -/
def itemReady (s : State) (q : Nat) (it : Item) : Bool :=
  it.wait == .nothing &&
    (!it.needsPort || (s.port (s.queue q).port).canIssue ||
      (it.step == 0 && (it.recovered || (entryCheck s q it).isSome)))

/-- A taken item of the queue has a step ready to issue: the one that holds the engine, or else the current one; none
while the queue is DISABLED (R427, R431, R449). -/
def nextStep (s : State) (q : Nat) : Option Item :=
  if (s.qvol q).state == .disabled then none
  else
    match engineItem s q with
    | some it => if stepGoesOn s q it then some it else none
    | none => (currentItem (s.queue q)).filter (itemReady s q)

/-- A taken item has such a step. -/
def hasStep (s : State) (q : Nat) : Bool := (nextStep s q).isSome

/-- The queue has work (R427). -/
def hasWork (s : State) (q : Nat) : Bool := hasStep s q || canTake s q

/-- The engine taken by an item. -/
def State.holdEngine (s : State) (q slot : Nat) : State :=
  { s with queues := { s.queues with
    engine := mput (256, 0) (q / 16) (q, slot) s.queues.engine } }

/-- The engine freed. -/
def State.freeEngine (s : State) (island : Nat) : State :=
  { s with queues := { s.queues with engine := mput (256, 0) island (256, 0) s.queues.engine } }

/-! ### Time -/

/-- Queues that wait for their engine gain QueueWaitTime (R433). -/
def waitQueues (ns : Nat) (s : State) : State :=
  s.queues.engine.foldl
    (fun s p =>
      (List.range 16).foldl
        (fun s k =>
          let q := 16 * p.1 + k
          if q != p.2.1 && hasWork s q then
            s.modQVol q fun v => { v with waitTime := satAdd 64 v.waitTime ns }
          else s) s) s

/-- Posted-credit waits of a port: IntakeStallTime while its staging buffer is full (R287), and the time
its requests have waited for the host's credits (R762). -/
def PortState.elapse (p : PortState) (ns : Nat) : PortState :=
  { p with
    stallTime := if 256 ≤ p.staging.length then satAdd 64 p.stallTime ns else p.stallTime
    creditWait := if p.out.isEmpty || !p.canIssue then 0 else p.creditWait + ns }

/-- Time passes (R287, R433, R603). -/
def State.elapse (s : State) (ns : Nat) : State :=
  let s := waitQueues ns s
  let s := { s with
    now := s.now + ns
    portA := s.portA.elapse ns
    portB := s.portB.elapse ns }
  if s.durab.throttle then
    { s with durab := { s.durab with throttleTime := satAdd 64 s.durab.throttleTime ns } }
  else s

/-- Time passes until a moment, if it is still to come. -/
def State.elapseTo (s : State) (t : Nat) : State := if s.now < t then s.elapse (t - s.now) else s

end Sys2Proof.Machine
end

