-- ==== Sys2Proof/Machine/Wired.lean ====
section
/-!
DEFINITION. Wired sources (WS): the line modes and the requests of their Gather islands, the direct
pins, and the Sill lanes with their frames, lock, sequence checks, watchdog and control writes.
-/

namespace Sys2Proof.Machine

open Sys2Proof

/-! ### Requests of wired lines -/

/-- A request joins the one of the same line that still waits (R215): ASSERT becomes the OR, LEVEL the
latest; none where no request of the line waits. One that waits since before the island's cut keeps what the cut has
of it (R615). -/
def mergeWired (mark sn : Nat) (a l : Bool) : List (Sent Event) → Option (List (Sent Event))
  | [] => none
  | ⟨i, m, .wired sn' a' l'⟩ :: es =>
    if sn' = sn ∧ m = mark then some (⟨i, m, .wired sn (a' || a) l⟩ :: es)
    else (mergeWired mark sn a l es).map (⟨i, m, .wired sn' a' l'⟩ :: ·)
  | e :: es => (mergeWired mark sn a l es).map (e :: ·)

/-- A wired line's state-update request enters its Gather island (R211, R215). -/
def wiredRequest (sn : Nat) (assert level : Bool) (s : State) : State :=
  match mergeWired (s.mark (gatherOf sn)) sn assert level (s.gathered (gatherOf sn)) with
  | some es => s.modFabric fun x => { x with gatherQ := mput [] (gatherOf sn) es x.gatherQ }
  | none => s.enqueue (gatherOf sn) (.wired sn assert level)

/-- A line of this mode is asserted at this value (Table WS-1). -/
def modeAsserts (mode : Nat) (v : Bool) : Bool :=
  match mode with
  | 1 => v
  | 2 => !v
  | _ => false

/-- A change of an edge-mode line from `old` to `new` is an event (Table WS-1). -/
def edgeEvent (mode : Nat) (old new : Bool) : Bool :=
  match mode with
  | 3 => !old && new
  | 4 => old && !new
  | 5 => old != new
  | _ => false

/-- An edge mode (Table WS-1). -/
def isEdgeMode (mode : Nat) : Bool := mode == 3 || mode == 4 || mode == 5

/-! ### Direct pins (WS.2) -/

/-- A pin's configuration. -/
def State.pinCfg (s : State) (p : Nat) : PinCfg := mget .initial s.dur.pins p

/-- A pin's filtered value. -/
def State.pinValue (s : State) (p : Nat) : Bool := mget false s.wired.pins p

/-- The time from which a pin's filter counts: its last change, the last write of its FILTER (R221), or the start of
sampling (R257). -/
def State.pinSince (s : State) (p : Nat) : Nat := max s.wired.sampledFrom (mget 0 s.wired.pinSince p - 1)

/-- A pin's filter counts anew from now. -/
def State.restartFilter (s : State) (p : Nat) : State :=
  { s with wired := { s.wired with pinSince := mput 0 p (s.now + 1) s.wired.pinSince } }

/-- PIN_QUALIFY: a pin's synchronised input has held a new level for FILTER x 10 ns; its filtered
value changes and its line asks as its mode says (R210, R211, R218). -/
def execPinQualify (pin : Fin 512) (level : Bool) (s : State) : Host.Outcome State Fault Refusal :=
  answer s <| onArrival [idGather (gatherOf (0x100000 + pin))] fun s =>
    let sn := 0x100000 + pin.val
    let old := s.pinValue pin
    if !s.wiredLive || old == level then s
    else
      let mode := (s.pinCfg pin).mode
      let s := (s.elapseTo (s.pinSince pin + 10 * (s.pinCfg pin).filter)).restartFilter pin
      let s := { s with wired := { s.wired with pins := mput false pin level s.wired.pins } }
      let asserted := modeAsserts mode level
      let event := (asserted && !modeAsserts mode old) || edgeEvent mode old level
      if event || isLevelMode mode then wiredRequest sn event asserted s else s

/-- The request that follows a change of a line's MODE (R216). -/
def modeRequest (sn mode : Nat) (asserted : Bool) (s : State) : State :=
  let a := isLevelMode mode && asserted
  wiredRequest sn a a s

/-- PinConfig written (R216, R219): FILTER below 2 is clamped, and a count in progress restarts (R221). -/
def setPinCfg (p mode filter : Nat) (s : State) : State :=
  let old := s.pinCfg p
  let new : PinCfg := { mode := mode, filter := max 2 filter }
  let s := ({ s with dur := { s.dur with pins := mput .initial p new s.dur.pins } }.touchIf (old != new)
    (objectLine (1000 + p))).restartFilter p
  if old.mode == mode then s
  else modeRequest (0x100000 + p) mode (modeAsserts mode (s.pinValue p)) s

/-- The pins of a Gather island that satisfy a test, as inputs of one of its cycles: round-robin, starting after the
one that was served first in the last such cycle (R840). -/
def pinsInTurn (g : Nat) (test : Nat → Bool) (s : State) : List Nat :=
  ((List.range 64).map fun k => 64 * (g - 56) + (mget 0 s.fabric.gatherTurn g + k) % 64).filter test

/-- A Gather island's pins sample together (R257): every pin that can matter sends its LEVEL, without an event, in the
order of R840. -/
def samplePins (s : State) (g : Nat) : State :=
  let pins := pinsInTurn g (fun p => (s.pinCfg p).mode != 0 || (s.src (0x100000 + p)).level) s
  let s := pins.foldl
    (fun s p => wiredRequest (0x100000 + p) false (modeAsserts (s.pinCfg p).mode (s.pinValue p)) s) s
  match pins with
  | p :: _ :: _ => s.modFabric fun f => { f with gatherTurn := mput 0 g (p % 64 + 1) f.gatherTurn }
  | _ => s

/-- Sampling starts at every Gather island of direct pins (R257). -/
def startSampling (s : State) : State :=
  ((List.range 8).map (56 + ·)).foldl samplePins
    { s with wired := { s.wired with sampling := true, sampledFrom := s.now } }

/-! ### Sill lanes (WS.3 to WS.6) -/

/-- A lane's control record. -/
def State.laneCfg (s : State) (n : Nat) : LaneCfg := mget .initial s.dur.lanes n

/-- A lane's control record set. -/
def State.setLaneCfg (s : State) (n : Nat) (c : LaneCfg) : State :=
  { s with dur := { s.dur with lanes := mput .initial n c s.dur.lanes } }.touchIf (s.laneCfg n != c)
    (objectLine (1600 + n))

/-- The SN of line i of lane n. -/
def lineSn (n i : Nat) : Nat := 0x100200 + 64 * n + i

/-- A flag of LaneStatus, numbered from bit 8, set in every requester's copy. -/
def Lane.flag (l : Lane) (n : Nat) : Lane :=
  { l with flags := l.flags.all (· ||| BitVec.ofNat 8 (2 ^ n)) }

/-- Two chips of a cell as the receiver decodes them (R223, R224, R229). -/
def decodeCell (invert : Bool) (c : Chips) : Option Bool :=
  if c.1 == c.2 then none else some (c.2 != invert)

/-- The receiver recognises a sync by chips 1 to 31 (R227, R228). -/
def isSync (w : BitVec 32) : Bool := (w ^^^ 0xF0F09966) <<< 1 == 0

/-- Bits, most significant first, as a number. -/
def msbNat (bs : List Bool) : Nat := bs.foldl (fun n b => 2 * n + b2n b) 0

/-- The value of SEQ, when all its eight cells are good. -/
def seqOf (cells : List (Option Bool)) : Option Nat :=
  let c := cells.take 8
  if c.length = 8 && c.all Option.isSome then some (msbNat (c.map (·.getD false))) else none

/-- The CRC check of R231 over cells 16 to 95. -/
def crcPasses (cells : List (Option Bool)) : Bool := crc8 (cells.map (·.getD false)) == 0

/-- Bit i of the lane's enforcement (R235). -/
def State.crcEnforced (s : State) (n : Nat) : Bool := s.dur.g.crcEnforce.getLsbD n

/-- What applying a frame does to one line (R240, R242, R251, R257): its request, if one is due. `all` says that the
frame sends every line's LEVEL. -/
def applyLine (n : Nat) (fromOff all edgeAll : Bool) (old new : BitVec 64) (s : State) (i : Nat) : State :=
  let sn := lineSn n i
  let mode := lineMode s sn
  let o := old.getLsbD i
  let v := new.getLsbD i
  let was := !fromOff && modeAsserts mode o
  let is' := modeAsserts mode v
  let event := (is' && !was) || edgeEvent mode o v || (edgeAll && isEdgeMode mode)
  if event || all || (isLevelMode mode && is' != was) then wiredRequest sn event is' s else s

/-- The 64 line values of a frame: a line whose cell is missing or errored keeps its held value. -/
def frameLines (held : BitVec 64) (cells : List (Option Bool)) : BitVec 64 :=
  BitVec.ofNat 64 ((List.range 64).foldl (fun v i =>
    v + 2 ^ i * b2n ((cells.getD (8 + i) none).getD (held.getLsbD i))) 0)

/-- A frame is applied (R240, R241, R242): its lines in ascending order, then what the lane holds. -/
def applyFrame (n seq : Nat) (gap : Bool) (cells : List (Option Bool)) (s : State) : State :=
  let l := s.lane n
  let new := frameLines l.held cells
  let edgeAll := (s.laneCfg n).gapEdge && (gap || l.fromStale)
  let s := (List.range 64).foldl (applyLine n l.fromOff (l.fromOff || l.fromRecovery) edgeAll l.held new) s
  s.modLane n fun l => { l with
    held := new
    lastSeq := seq
    fromOff := false
    fromStale := false
    fromRecovery := false
    lastApplied := s.now
    framesApplied := satAdd 64 l.framesApplied 1 }

/-- The sequence check before a frame is applied in LOCKED (R238). -/
def checkedApply (n seq : Nat) (cells : List (Option Bool)) (s : State) : State :=
  let last := (s.lane n).lastSeq
  let d := (seq + 256 - last) % 256
  if d = 1 then applyFrame n seq false cells s
  else if d = 0 then
    s.modLane n fun l => { l.flag 5 with duplicates := satAdd 64 l.duplicates 1 }
  else
    applyFrame n seq true cells (s.modLane n fun l =>
      { l.flag 4 with framesMissed := satAdd 64 l.framesMissed ((d + 255) % 256) })

/-- A frame as far as it can be used without enforcement: SEQ must be whole. -/
def lenientApply (n : Nat) (cells : List (Option Bool)) (s : State) : State :=
  match seqOf cells with
  | some seq => checkedApply n seq cells s
  | none => s

/-- A short frame in LOCKED (Table WS-4, R841). -/
def shortFrame (n : Nat) (enf : Bool) (cells : List (Option Bool)) (s : State) : State :=
  let s := s.modLane n fun l => { l.flag 2 with shortFrames := satAdd 64 l.shortFrames 1 }
  let s :=
    if cells.all Option.isSome then s
    else s.modLane n fun l => { l.flag 1 with codeErrors := satAdd 64 l.codeErrors 1 }
  if enf then s else lenientApply n cells s

/-- A frame of 96 cells in LOCKED: good, CRC error or code error (Table WS-4). -/
def wholeFrame (n : Nat) (enf : Bool) (cells : List (Option Bool)) (s : State) : State :=
  if !cells.all Option.isSome then
    let s := s.modLane n fun l => { l.flag 1 with codeErrors := satAdd 64 l.codeErrors 1 }
    if enf then s else lenientApply n cells s
  else if crcPasses cells then lenientApply n cells s
  else
    let s := s.modLane n fun l => { l.flag 0 with crcErrors := satAdd 64 l.crcErrors 1 }
    if enf then s else lenientApply n cells s

/-- The chips of 80 cells from cell 16 on, decoded; a cell that is not there is errored. -/
def frameCells (invert : Bool) (f : SillFrame) : List (Option Bool) :=
  (List.range 80).map fun i => (f.cells[i]?).bind (decodeCell invert)

/-- The frame ends before cell 96, as its receiver knew when it had received cell 95: the next sync's 16 cells were there
(Table WS-4, R228, R842). -/
def frameCut (f : SillFrame) : Option Nat := f.nextSync.filter fun k => decide (k ≤ 80)

/-- The next sync began before cell 96 and was recognised only later (R842). -/
def lateSync (f : SillFrame) : Bool := f.nextSync.any fun k => decide (80 < k ∧ k < 96)

/-- A frame in a LOCKED lane (R235, R236, R842). -/
def lockedFrame (n : Nat) (f : SillFrame) (s : State) : State :=
  let cells := frameCells (s.laneCfg n).invert f
  let l := s.lane n
  let enf := if l.resync then s.crcEnforced n else l.enforced
  match frameCut f with
  | some k => shortFrame n enf (cells.take (k - 16)) s
  | none =>
    let s := wholeFrame n enf cells s
    if lateSync f then
      s.modLane n fun l => { l.flag 2 with shortFrames := satAdd 64 l.shortFrames 1 }
    else if f.nextSync == some 96 then s
    else s.modLane n fun l => { l.flag 3 with longFrames := satAdd 64 l.longFrames 1 }

/-- A frame in a HUNTING or STALE lane (R233, R247, R248): the second of two good ones locks it. -/
def huntingFrame (n : Nat) (f : SillFrame) (s : State) : State :=
  let cells := frameCells (s.laneCfg n).invert f
  let l := s.lane n
  let good := (frameCut f).isNone && cells.all Option.isSome && crcPasses cells
  let seq := (seqOf cells).getD 0
  if good && l.goodSeq == some ((seq + 255) % 256) then
    let s := s.modLane n fun l => { l with state := .locked, goodSeq := none }
    let s := if l.state == .stale then s.raise (0x101000 + n) else s
    applyFrame n seq false cells s
  else
    s.modLane n fun l => { l with goodSeq := if good && f.nextSync == some 96 then some seq else none }

/-- A LaneControl write takes effect (R250): in LOCKED at the end of the frame, elsewhere at once. -/
def takePendingCtl (n : Nat) (s : State) : State :=
  match (s.lane n).pendingCtl with
  | some c => (s.setLaneCfg n c).modLane n fun l => { l with pendingCtl := none }
  | none => s

/-- SILL_FRAME: a whole frame is received on a lane (R228, R233, R235). A write of the lane's
enforcement bit counts from the next sync on (R237). -/
def execSillFrame (lane : Fin 56) (frame : SillFrame) (s : State) : Host.Outcome State Fault Refusal :=
  answer s <| onArrival [idGather lane] fun s =>
    let invert := (s.laneCfg lane).invert
    let sync := if invert then ~~~frame.sync else frame.sync
    let hunting := (s.lane lane).state == .hunting || (s.lane lane).state == .stale
    if !s.wiredLive || (s.lane lane).state == .off then s
    else if !isSync sync then
      if hunting && isSync (~~~sync) then s.modLane lane fun l => l.flag 7 else s
    else
      let s := if hunting then huntingFrame lane frame s else lockedFrame lane frame s
      let s := takePendingCtl lane s
      s.modLane lane fun l => { l with
        enforced := s.crcEnforced lane
        resync := frame.nextSync.isNone }

/-- What STALE_POLICY gives one line at the entry into STALE (Table WS-5, R246). -/
def staleLine (n policy : Nat) (s : State) (i : Nat) : State :=
  let sn := lineSn n i
  let mode := lineMode s sn
  let asserted := policy == 2
  if policy == 0 || mode == 0 then s
  else if isLevelMode mode then
    let v := if mode == 1 then asserted else !asserted
    let s := s.modLane n fun l => { l with
      held := if v then l.held ||| BitVec.ofNat 64 (2 ^ i) else l.held &&& ~~~(BitVec.ofNat 64 (2 ^ i)) }
    wiredRequest sn asserted asserted s
  else if asserted then wiredRequest sn true false s
  else s

/-- LANE_TIMEOUT: the frame-timeout watchdog of a LOCKED lane expires and the lane enters STALE
(R243, R245, R248, R250), TIMEOUT frame periods after the last applied frame. -/
def execLaneTimeout (lane : Fin 56) (s : State) : Host.Outcome State Fault Refusal :=
  answer s <| onArrival [idGather lane] fun s =>
    let l := s.lane lane
    if l.state != .locked then s
    else
      let s := s.elapseTo (l.lastApplied + 480 * (s.laneCfg lane).timeout)
      let s := takePendingCtl lane s
      let s := s.modLane lane fun l =>
        { l.flag 6 with
          state := .stale
          goodSeq := none
          fromStale := true
          timeouts := satAdd 64 l.timeouts 1 }
      let s := (List.range 64).foldl (staleLine lane (s.laneCfg lane).stalePolicy) s
      s.raise (0x101000 + lane)

/-- ENABLE 1 to 0 (R250, R251): the receiver stops, each level-mode line sends LEVEL 0. -/
def laneDisable (n : Nat) (s : State) : State :=
  let wasStale := (s.lane n).state == .stale
  let s := s.modLane n fun l => { l with
    state := .off
    goodSeq := none
    pendingCtl := none
    fromOff := true
    fromRecovery := false
    fromStale := l.fromStale || wasStale }
  let s := (List.range 64).foldl
    (fun s i =>
      if isLevelMode (lineMode s (lineSn n i)) then wiredRequest (lineSn n i) false false s else s) s
  if wasStale then s.raise (0x101000 + n) else s

/-- LaneControl written (R244, R250). -/
def setLaneCtl (n : Nat) (c : LaneCfg) (s : State) : State :=
  let c := { c with timeout := clamp 3 4096 c.timeout }
  let old := s.laneCfg n
  if old.enable && !c.enable then laneDisable n (s.setLaneCfg n c)
  else if (s.lane n).state == .locked then s.modLane n fun l => { l with pendingCtl := some c }
  else
    let s := s.setLaneCfg n c
    if c.enable && !old.enable then
      s.modLane n fun l => { l with state := .hunting, goodSeq := none }
    else s

/-- A Sill line is taken as asserted under a mode (R216, R251, Table WS-5). In a lane enabled anew the lines are taken as
deasserted until its first applied frame, as R251 says of that frame; for a write of MODE before it this is the model's
reading (DEDUCED, log entry 81). -/
def sillAsserted (s : State) (n i mode : Nat) : Bool :=
  let l := s.lane n
  if l.state == .off || l.fromOff then false
  else if l.state == .stale && (s.laneCfg n).stalePolicy != 0 && isLevelMode mode then
    (s.laneCfg n).stalePolicy == 2
  else modeAsserts mode (l.held.getLsbD i)

/-- LineConfig written (R216, R246). -/
def setLineCfg (n i mode : Nat) (s : State) : State :=
  let k := 64 * n + i
  let old := mget 0 s.dur.lines k
  let s := { s with dur := { s.dur with lines := mput 0 k mode s.dur.lines } }.touchIf (old != mode)
    (objectLine (2000 + k))
  if old == mode then s
  else
    let a := sillAsserted s n i mode
    let s :=
      if (s.lane n).state == .stale && (s.laneCfg n).stalePolicy != 0 && isLevelMode mode then
        s.modLane n fun l => { l with
          held := if (mode == 1) == a then l.held ||| BitVec.ofNat 64 (2 ^ i)
            else l.held &&& ~~~(BitVec.ofNat 64 (2 ^ i)) }
      else s
    modeRequest (lineSn n i) mode a s

/-- The lanes after recovery (R257): HUNTING with held values of zero, or OFF. -/
def lanesAfterRecovery (s : State) : State :=
  let lanes := s.dur.lanes.foldl
    (fun m p =>
      if p.2.enable then
        mput .initial p.1 { Lane.initial with state := .hunting, fromOff := false, fromRecovery := true } m
      else m)
    ([] : SMap Lane)
  { s with wired := { Wired.initial with lanes := lanes } }

end Sys2Proof.Machine
end

