-- ==== Sys2Proof/Machine/Letterbox.lean ====
section
/-!
DEFINITION. Message intake (LB): the Letterbox writes and their checks, the staging buffers, and the
state update a Store bank applies, with its notes, its Room check and the dirty-budget throttle.
-/

namespace Sys2Proof.Machine

open Sys2Proof

/-! ### The dirty-budget throttle (R603, R604) -/

/-- Banks hold a request under their quota: THROTTLED is set and SN 0x10_1062 raised when THROTTLE becomes 1
(R603, R604). -/
def throttleEngage (banks : List Nat) (s : State) : State :=
  let t := { s with durab := { s.durab with holding := banks.foldl (fun l b => insertSorted b l) s.durab.holding } }
  if s.durab.throttle || banks.isEmpty then t
  else
    let t := { t with durab := { t.durab with status := t.durab.status.all (· ||| 2) } }
    (t.mgmt 5).raise 0x101062

/-- The banks at their quota of which a change would dirty a clean line (R603). -/
def heldBanks (s s' : State) : List Nat :=
  (s'.durab.dirty.filter fun l => decide (l ∉ s.durab.dirty) && throttled s l).map Line.bank

/-- A bank applies a change, or holds its request because the change would dirty a clean line of a
bank at its quota (R603). -/
def guarded (f : State → State) (s : State) : State :=
  if (heldBanks s (f s)).isEmpty then f s else throttleEngage (heldBanks s (f s)) s

/-- A bank below its quota holds nothing any more; THROTTLE reads 0 once no bank does (R603, R606). -/
def throttleRelease (s : State) : State :=
  { s with durab := { s.durab with
    holding := s.durab.holding.filter fun b => s.dur.g.mirrorEnable && decide (quota s ≤ bankDirty s b) } }

/-! ### Letterbox writes (LB.2 to LB.4, LB.6) -/

/-- A rejected Letterbox write (R269, R270): its counter, LetterboxLastReject and the port's source. -/
def letterboxReject (port : Port) (requester : BitVec 16) (offset reason room sn : Nat) (s : State) :
    State :=
  let s := s.modPort port fun p =>
    match reason with
    | 1 => { p with malformed := satAdd 64 p.malformed 1 }
    | 2 => { p with unknownSn := satAdd 64 p.unknownSn 1 }
    | 3 => { p with roomClosed := satAdd 64 p.roomClosed 1 }
    | _ => { p with roomMismatch := satAdd 64 p.roomMismatch 1 }
  let s := s.modConducts fun c => { c with
    lastReject := ⟨true, port, reason, room, sn, requester, offset / 4 * 4⟩ }
  (s.modPort port fun p => p.mgmt 4).raise (0x101040 + port.num)

/-- A zero-length write: one DWORD with no byte enabled (R264). -/
def HostWrite.isEmpty (w : HostWrite) : Bool := decide (w.data.length ≤ 4) && w.enables.all (!·)

/-- A write of exactly `n` bytes, aligned to `n`, every byte enabled (R262, R265). -/
def HostWrite.isWhole (w : HostWrite) (n : Nat) : Bool :=
  w.data.length == n && w.enables.length == n && w.enables.all id && w.offset % n == 0

/-- An access waits, behind those that wait already. -/
def State.hold (s : State) (r : Req) (a : Access) : State := { s with held := s.held ++ [(r, a)] }

/-- A Letterbox write. -/
def Access.isLetterbox : Access → Bool
  | .letterbox _ _ => true
  | _ => false

/-- A port's Link island cannot take a Letterbox write now: it has no clock, or holds earlier ones (R44, R82). -/
def linkHolds (s : State) (port : Port) : Bool :=
  !(s.running && s.clocked (idLink port)) || s.held.any fun x => x.1 == port.req && x.2.isLetterbox

/-- A Letterbox write is checked in the order of Table LB-4 and, if it passes checks 1 to 3, staged
(R262 to R267, R283, R286, R290). `note` says that it lies in the note page. -/
def letterboxWrite (port : Port) (requester : BitVec 16) (w : HostWrite) (note : Bool) (s : State) :
    State :=
  let room := bits w.offset 11 8
  let sn := fieldAt w.data 0 3
  if HostWrite.isEmpty w || !s.powered || !(s.port port).linkUp then s
  else if !s.keeper.rdy then
    s.modPort port fun p => { p with notReady := satAdd 64 p.notReady 1 }
  else if stagingFull s port then s
  else if linkHolds s port then s.hold port.req (.letterbox requester w)
  else if !HostWrite.isWhole w (if note then 32 else 4) then
    letterboxReject port requester w.offset 1 room 0 s
  else if 0x100000 ≤ sn then letterboxReject port requester w.offset 2 room sn s
  else if !s.dur.g.roomEnable.getLsbD room then letterboxReject port requester w.offset 3 room sn s
  else
    let e := Event.letterbox port requester w.offset sn room
      (if note then some (bytesAt w.data 16 16) else none)
    s.modPort port fun p => { p with staging := p.staging ++ [{ gather := gatherOf sn, event := e }] }

/-- A posted write lands in a Letterbox page of BAR0: the single-write page, the note page or neither
(R258). -/
def letterboxPage (offset : Nat) : Option Bool :=
  if 0x8000 ≤ offset && offset < 0x9000 then some false
  else if 0x9000 ≤ offset && offset < 0xA000 then some true
  else none

/-- A posted write judged by the page it lands in (R258, R261). -/
def letterboxArrival (port : Port) (requester : BitVec 16) (w : HostWrite) (s : State) : State :=
  match letterboxPage w.offset with
  | some note => letterboxWrite port requester w note s
  | none => s

/-- LETTERBOX_SINGLE_WRITE (R262). -/
def execLetterboxSingleWrite (port : Port) (requester : BitVec 16) (write : HostWrite) (s : State) :
    Host.Outcome State Fault Refusal :=
  answer s (letterboxArrival port requester write)

/-- LETTERBOX_DOUBLE_WRITE (R265). -/
def execLetterboxDoubleWrite (port : Port) (requester : BitVec 16) (write : HostWrite) (s : State) :
    Host.Outcome State Fault Refusal :=
  answer s (letterboxArrival port requester write)

/-- Letterbox events of a port in a Gather island's FIFO. -/
def intakeUsed (s : State) (port : Port) (g : Nat) : Nat := sentBy (idLink port) (s.gathered g)

/-- INTAKE_FORWARD: the oldest staged entry bound for a Gather island crosses to it, when its Intake
FIFO has room (R44, R46, R284, R285). -/
def execIntakeForward (port : Port) (gather : Fin 64) (s : State) :
    Host.Outcome State Fault Refusal :=
  answer s <| onIslands [idLink port, idGather gather] fun s =>
    match takeFirst (fun e => e.gather == gather.val) (s.port port).staging with
    | none => s
    | some (e, rest) =>
      if 16 ≤ intakeUsed s port gather then s
      else (s.modPort port fun p => { p with staging := rest }).arrive gather (s.sent (idLink port) e.event)

/-! ### The state update at the Store bank -/

/-- The source of an event. -/
def Event.sn : Event → Nat
  | .letterbox _ _ _ sn _ _ => sn
  | .wired sn _ _ => sn
  | .raise sn => sn
  | .warn sn => sn
  | .ipi sn _ _ => sn

/-- A source's note queue or NOTE_LOST changed; what a selection of it would carry is told to its Rank island while it
is Pending (R336, DL.3). -/
def tellPending (sn : Nat) (old new : Source) (s : State) : State :=
  let s := s.putSrc sn new
  if old.state == .pending && candOf old != candOf new then s.notifyRoute sn new.target new.cls (some (candOf new))
  else s

/-- An accepted double write: its note takes a slot and joins the queue's tail, or is dropped
(R273, R278, R279). -/
def storeNote (port : Port) (sn : Nat) (note : List Byte) (s : State) : State :=
  let r := s.src sn
  if r.notes.length < s.dur.g.noteLimit && 0 < notesFree s (bankOf sn) then
    let s := (tellPending sn r { r with notes := r.notes ++ [note] } s).touch
      (noteLine sn (r.noteHead + r.notes.length))
    s.modPort port fun p => { p with notes := satAdd 64 p.notes 1 }
  else
    let s := if r.noteLost then s else tellPending sn r { r with noteLost := true } s
    (s.modPort port fun p => { p with notesDropped := satAdd 64 p.notesDropped 1 }).raiseFrom
      (idBank (bankOf sn)) 0x101042

/-- The Store bank applies one request (R212, R214, R266 to R274, R293, R625). -/
def applyRequest (e : Event) (s : State) : State :=
  match e with
  | .letterbox port requester offset sn room note =>
    if (s.src sn).room != room then letterboxReject port requester offset 4 room sn s
    else
      let s := s.modPort port fun p => { p with accepted := satAdd 64 p.accepted 1 }
      match note with
      | some n => applyEvent sn (storeNote port sn n s)
      | none => applyEvent sn s
  | .wired sn assert level =>
    let r := s.src sn
    let s := if r.level == level then s else s.putSrc sn { r with level := level }
    if assert then applyEvent sn s else s
  | .raise sn => applyEvent sn s
  | .warn sn =>
    let s := applyEvent sn s
    let tn := ipiTarget sn
    s.putTgt tn { s.tgt tn with warnArmed := true, warnClaimed := false }
  | .ipi sn _ _ => applyEvent sn s

end Sys2Proof.Machine
end

