-- ==== Sys2Proof/Machine/Bank.lean ====
section
/-!
DEFINITION. The three request ports of a Store bank (IH.4.1): the Update ports with their round-robin among the
Gather islands, the Claim port, the order in which requests for one record are applied, and what a bank does with a
claim and with an EOI.
-/

namespace Sys2Proof.Machine

open Sys2Proof

/-! ### Claims and EOIs at a bank -/

/-- An EOI error (R363, R364), found by an island. -/
def eoiError (island tn : Nat) (c : Cls) (sn reason : Nat) (s : State) : State :=
  let s := s.modFabric fun x => { x with eoiErrors := satAdd 64 x.eoiErrors 1 }
  let s := s.modConducts fun k => { k with
    eoiError := { valid := true, tn := tn, cls := c, sn := sn, reason := reason } }
  if s.dur.g.eoiRaise then s.raiseFrom island 0x101050 else s

/-- A bank's decision on a claim (R307, R308), and its answer on its way to the Rank island (R357). -/
def decideClaim (tn : Nat) (c : Cls) (sn : Nat) (note : Bool) (s : State) : State :=
  let ok := claimAccepted s tn c sn
  let lost := (s.src sn).noteLost
  let s := if ok then acceptClaim tn c sn note s else s
  s.notifyRank sn tn (.answer tn c sn ok (ok && lost) s.now)

/-- What a bank does with a request of its Claim channel: a claim is judged; an EOI is applied to a source that the
target and class hold, and is otherwise an EOI error (R308, R838). -/
def applyClaimReq (bank : Nat) (r : ClaimReq) (s : State) : State :=
  match r with
  | .claim tn c sn note => decideClaim tn c sn note s
  | .eoi tn c sn => if heldBy s tn c sn then acceptEoi tn c sn s else eoiError (idBank bank) tn c sn 3 s

/-- The source that a request on a Claim channel names. -/
def ClaimReq.sn : ClaimReq → Nat
  | .claim _ _ sn _ => sn
  | .eoi _ _ sn => sn

/-- Transfers of a bank that stand in a Rank island's Notify FIFO, apart from claim answers (Table IH-2). -/
def notifyUsed (s : State) (bank rank : Nat) : Nat :=
  ((mget [] s.fabric.notifyQ rank).filter fun x => x.sender == idBank bank && !x.body.reserved).length

/-- A bank's request that would send more than a Notify channel's 32 places hold waits in its port (R44). -/
def notifyHeld (bank : Nat) (f : State → State) (s : State) : State :=
  let s' := f s
  if (List.range 16).any fun r => decide (max 32 (notifyUsed s bank r) < notifyUsed s' bank r) then s else s'

/-- A bank applies a request that stood in one of its ports: under the cut that the request belongs to (R615), while
its dirty budget (R603) and the Notify channels (R44) have room. -/
def bankApply {α : Type} (bank : Nat) (x : Sent α) (f : State → State) (s : State) : State :=
  guarded (notifyHeld bank (receiving x [idBank bank] f)) s

/-- The oldest request of a bank's Claim port is applied. -/
def claimStep (bank : Nat) (s : State) : State :=
  match mget [] s.fabric.claimQ bank with
  | [] => s
  | x :: rest =>
    bankApply bank x (fun s =>
      applyClaimReq bank x.body (s.modFabric fun f => { f with claimQ := mput [] bank rest f.claimQ })) s

/-- BANK_CLAIM: a Store bank judges the claim at the head of its Claim channel (R308). -/
def execBankClaim (bank : Fin 32) (s : State) : Host.Outcome State Fault Refusal :=
  answer s <| handshake [idBank bank] fun s =>
    match (mget [] s.fabric.claimQ bank).head?.map Sent.body with
    | some (.claim _ _ _ _) => claimStep bank s
    | _ => s

/-- BANK_EOI: a Store bank applies the EOI at the head of its Claim channel, or reports it (R838). -/
def execBankEoi (bank : Fin 32) (s : State) : Host.Outcome State Fault Refusal :=
  answer s <| handshake [idBank bank] fun s =>
    match (mget [] s.fabric.claimQ bank).head?.map Sent.body with
    | some (.eoi _ _ _) => claimStep bank s
    | _ => s

/-! ### The Update ports (R57, R59) -/

/-- An Update port, by 2 x bank + port: port 0 serves the even-numbered Gather islands, port 1 the odd ones. -/
def updatePort (g sn : Nat) : Nat := 2 * bankOf sn + g % 2

/-- The Gather island's oldest request is for an Update port, and the island can complete a handshake. -/
def contends (s : State) (key g : Nat) : Bool :=
  match s.gathered g with
  | x :: _ => updatePort g x.body.sn == key && s.clocked (idGather g) && ((s.island (idGather g)).level == .awake)
  | [] => false

/-- The Gather island to which an Update port grants next: round-robin among its 32, starting after the one granted
last (R57). The first grant after reset starts at the lowest (DESIGN CHOICE, log entry 71). -/
def nextGranted (s : State) (key : Nat) : Option Nat :=
  let from' := mget 0 s.fabric.lastGrant key
  ((List.range 32).map fun k => 2 * ((from' + k) % 32) + key % 2).find? (contends s key)

/-- An Update port grants one request, while its FIFO of eight has room: the request crosses to the bank, and what its
sender holds for the Gather island follows (R44, R46, R57). -/
def grantOne (key : Nat) (s : State) : State :=
  if 8 ≤ (mget [] s.fabric.updateQ key).length then s
  else
    match nextGranted s key with
    | none => s
    | some g =>
      match s.gathered g with
      | [] => s
      | x :: rest =>
        let s := s.modFabric fun f => { f with
          gatherQ := mput [] g rest f.gatherQ
          updateQ := mmod [] f.updateQ key (· ++ [x])
          lastGrant := mput 0 key (g / 2 + 1) f.lastGrant }
        s.submitNext x.sender g

/-- The oldest request of an Update port is applied. -/
def updateApply (key : Nat) (s : State) : State :=
  match mget [] s.fabric.updateQ key with
  | [] => s
  | x :: rest =>
    bankApply (key / 2) x (fun s =>
      applyRequest x.body (s.modFabric fun f => { f with updateQ := mput [] key rest f.updateQ })) s

/-- The record that the oldest request of an Update port is for. -/
def updateHead (s : State) (key : Nat) : Option Nat := (mget [] s.fabric.updateQ key).head?.map fun x => x.body.sn

/-- The record that the oldest request of a bank's Claim port is for. -/
def claimHead (s : State) (bank : Nat) : Option Nat := (mget [] s.fabric.claimQ bank).head?.map fun x => x.body.sn

/-- One record's requests that wait on several ports are applied in the order Claim port, Update port 0, Update port 1
(R59): those before a port's oldest request, and then it. A request that is held keeps those after it waiting. -/
def updateOrdered (key : Nat) (s : State) : State :=
  match updateHead s key with
  | none => s
  | some sn =>
    let bank := key / 2
    let s := if claimHead s bank == some sn then claimStep bank s else s
    if claimHead s bank == some sn then s
    else
      let s := if key % 2 == 1 && updateHead s (key - 1) == some sn then updateApply (key - 1) s else s
      if key % 2 == 1 && updateHead s (key - 1) == some sn then s else updateApply key s

/-- The Update port at which a Gather island's request waits: one already granted, else its oldest. -/
def portOf (s : State) (g : Nat) : Option Nat :=
  match s.fabric.updateQ.find? fun p => p.2.any fun x => gatherOf x.body.sn == g with
  | some p => some p.1
  | none => (s.gathered g).head?.map fun x => updatePort g x.body.sn

/-- The islands that the step needs: the bank, and the Gather island while its request is not yet granted. -/
def updateIslands (s : State) (g key : Nat) : List Nat :=
  if (mget [] s.fabric.updateQ key).any fun x => gatherOf x.body.sn == g then [idBank (key / 2)]
  else [idGather g, idBank (key / 2)]

/-- The Update port at which a Gather island's request waits grants one request and applies its oldest (R57, R59, R68,
R840). -/
def updateStep (g : Nat) (s : State) : State :=
  match portOf s g with
  | none => s
  | some key => handshake (updateIslands s g key) (fun s => updateOrdered key (grantOne key s)) s

end Sys2Proof.Machine
end

