-- ==== Sys2Proof/Machine/Xlate.lean ====
section
/-!
DEFINITION. Translation (TF): the walk caches, the start of a walk and its grant, the reading of a
page-table entry, invalidation and its fences, and the Fault Ledger.
-/

namespace Sys2Proof.Machine

open Sys2Proof

/-! ### Fault types (Table TF-6) -/

def fNotPresent : Nat := 0x80
def fNoRead : Nat := 0x81
def fNoWrite : Nat := 0x82
def fWalkError : Nat := 0x83
def fDisabled : Nat := 0x84
def fHostError : Nat := 0x85
def fRange : Nat := 0x86
def fNotIssued : Nat := 0x87

/-! ### The Fault Ledger (TF.8) -/

/-- An empty slot of the Fault Ledger: all zeros (R555). -/
def FaultRec.zero : FaultRec :=
  { type := 0, path := 0, held := false, abandoned := false, room := 0, iova := 0, level := 0,
    queue := some 0, index := 0, tn := some 0, cls := .normal, step := 0, epoch := 0, sequence := 0,
    image := [], tag := 0, kind := 0 }

/-- A record of no path yet: the fields of a fault that belongs to no queue and no target. -/
def FaultRec.blank : FaultRec := { FaultRec.zero with level := 0xFF, queue := none, tn := none }

/-- A fault's record enters the Fault Ledger (R535, R552, R553): at HEAD, or as an overflow when it is full; the
Room's count, FAULT in both ports, and the raise. -/
def recordFault (r : FaultRec) (s : State) : State :=
  let s := { s with xlate := { s.xlate with
    faultCount := mmod 0 s.xlate.faultCount r.room (satAdd 64 · 1) } }
  let f := s.dur.faults
  let s :=
    if f.count < 4096 then
      let n := (f.sequence + 1) % 2 ^ 32
      let s := { s with dur := { s.dur with faults := { f with
        recs := mput .zero f.head { r with epoch := s.dur.g.epoch, sequence := n } f.recs
        head := (f.head + 1) % 4096
        count := f.count + 1
        sequence := n } } }
      (({ s with xlate := { s.xlate with new := Per3.const true } }).touch (faultLine f.head)).touch (objectLine 400)
    else
      let s := { s with dur := { s.dur with faults := { f with overflow := satAdd 64 f.overflow 1 } } }
      ({ s with xlate := { s.xlate with overflow := Per3.const true } }).touch (objectLine 400)
  let s := s.mgmt 3
  if s.dur.g.faultRaise then s.raiseFrom (idXlate (r.room % 4)) 0x101070 else s

/-- A fault is reported; its record waits, behind those that wait already, while the bank that would hold it is at its
quota (R551, R603). -/
def reportFault (r : FaultRec) (s : State) : State :=
  let hold := (heldBanks s (recordFault r s))
  if s.xlate.heldFaults.isEmpty && hold.isEmpty then recordFault r s
  else throttleEngage hold { s with xlate := { s.xlate with heldFaults := s.xlate.heldFaults ++ [r] } }

/-- The records that waited enter in order, as far as their banks can take them. -/
def releaseFaults (s : State) : State :=
  s.xlate.heldFaults.foldl (fun s r => reportFault r s) { s with xlate := { s.xlate with heldFaults := [] } }

/-- The oldest records are released (R554). -/
def consumeFaults (n : Nat) (s : State) : State :=
  let f := s.dur.faults
  let k := min n f.count
  if k = 0 then s
  else
    let recs := f.recs.filter fun p => !decide ((p.1 + 4096 - f.tail) % 4096 < k)
    { s with dur := { s.dur with faults := { f with
        recs := recs
        tail := (f.tail + k) % 4096
        count := f.count - k } } }.touch (objectLine 400)

/-! ### Walk caches (Table TF-3) -/

/-- A leaf entry covers an IOVA of its Room. -/
def Cached.covers (e : Cached) (room iova : Nat) : Bool :=
  e.room == room && e.page == (if e.big then iova / 2 ^ 21 else iova / 2 ^ 12)

/-- The bus address a leaf gives. -/
def Cached.addr (e : Cached) (iova : Nat) : Nat :=
  e.target + (if e.big then iova % 2 ^ 21 else iova % 2 ^ 12)

/-- The pointer a directory cache holds for an IOVA: its span is 2 to the power `n` bytes. -/
def dirLookup (dir : List Cached) (room iova n : Nat) : Option Nat :=
  (dir.find? fun e => e.room == room && e.page == iova / 2 ^ n).map Cached.target

/-- An entry enters a walk cache of the given capacity; a full one drops an entry of the
implementation's choice. -/
def cacheInsert (cap no free : Nat) (e : Cached) (l : List Cached) : List Cached :=
  let l := l.filter fun x => !(x.room == e.room && x.page == e.page && x.big == e.big)
  let l := if l.length < cap then l else l.eraseIdx (Config.cacheVictim no free % l.length)
  l ++ [e]

/-- A walk-cache entry of a given span covers a page of the scope: all of the Room, or a page range. -/
def inScope (room : Nat) (range : Option (Nat × Nat)) (n : Nat) (e : Cached) : Bool :=
  e.room == room &&
    match range with
    | none => true
    | some (first, count) =>
      let lo := e.page * 2 ^ (n - 12)
      decide (lo < first + count) && decide (first < lo + 2 ^ (n - 12))

/-! ### The start of a translation -/

/-- What a request for a translation meets at once: an address, a fault with the level of P = 0, or a
walk that it must await. -/
inductive Xlated where
  | hit (addr : Nat)
  | fault (code : Nat) (level : Nat)
  | walking
  deriving DecidableEq, Repr

/-- The permission test of a leaf (R517). -/
def Cached.permits (e : Cached) (write : Bool) (iova : Nat) : Xlated :=
  if write && !e.w then .fault fNoWrite 0xFF
  else if !write && !e.r then .fault fNoRead 0xFF
  else .hit (e.addr iova)

/-- Where a walk of an IOVA starts: the level and its table, from the deepest directory that holds a
pointer, else level 3 at the Room's root (R513, R515, R520). -/
def walkStart (s : State) (room iova : Nat) : Nat × Nat :=
  let x := s.xisland (room % 4)
  match dirLookup x.dir1 room iova 21, dirLookup x.dir2 room iova 30, dirLookup x.dir3 room iova 39 with
  | some t, _, _ => (0, t)
  | none, some t, _ => (1, t)
  | none, none, some t => (2, t)
  | none, none, none => (3, (s.xroom room).root)

/-- The bus address of the entry read at a level (R515, Table TF-1). -/
def entryAddr (level table iova : Nat) : Nat := table + 8 * bits iova (20 + 9 * level) (12 + 9 * level)

/-- A page-table read is issued, or cannot be (R518, R521). -/
def issueWalkRead (s : State) (room addr : Nat) : Option State :=
  let p := (s.xroom room).walkPort
  if (s.port p).canIssue then some (s.emit (.memRead p addr 8)) else none

/-- A walk begins: the pipeline has room for it (R62, R518, R521). -/
def beginWalk (r : XReq) (s : State) : State × Xlated :=
  let i := r.room % 4
  let (level, table) := walkStart s r.room r.iova
  let s := { s with xlate := { s.xlate with
    walkCount := mmod 0 s.xlate.walkCount r.room (satAdd 64 · 1) } }
  match issueWalkRead s r.room (entryAddr level table r.iova) with
  | none => (s, .fault fWalkError 0xFF)
  | some s =>
    (s.modXIsland i fun x => { x with
      walks := x.walks ++ [{ id := x.nextId, readAt := s.now, req := r, level := level, table := table, stale := false, dead := false }]
      nextId := x.nextId + 1 }, .walking)

/-- A granted request: a leaf of the walk cache answers it, or a walk begins (R60, R62, R514, R517). -/
def grant (r : XReq) (s : State) : State × Xlated :=
  if !(s.xroom r.room).enable then (s, .fault fDisabled 0xFF)
  else
    match (s.xisland (r.room % 4)).leaf.find? (fun e => e.covers r.room r.iova) with
    | some e => (s, e.permits r.write r.iova)
    | none => beginWalk r s

/-- A request joins the waiting requests of its group (R62). -/
def waitForGrant (r : XReq) (s : State) : State :=
  s.modXIsland (r.room % 4) fun x =>
    match r.use with
    | .pane _ _ => { x with waitDelivery := x.waitDelivery ++ [r] }
    | .ledgerCopy _ _ => { x with waitLedger := x.waitLedger ++ [r] }
    | _ => { x with waitQueue := x.waitQueue ++ [r] }


/-- The groups in the order in which the rotation of R62 looks at them from a slot on: slots 0 to 3
are the Delivery group's, 4 and 5 the Queue group's, 6 the Ledger group's. -/
def slotGroup (slot : Nat) : Nat := if slot < 4 then 0 else if slot < 6 then 1 else 2

/-- The island that sent a request, by its number within its type (Table IH-2). -/
def XReq.island (r : XReq) : Nat :=
  match r.use with
  | .pane tn _ => tn / 64
  | .ledgerCopy i _ => i
  | .ringFetch q _ _ => q / 16
  | .completion q _ => q / 16
  | .itemRead q _ _ => q / 16
  | .hostStore q _ => q / 16

/-- The request that a group's round-robin over its `n` islands takes, from the island at which it starts: the oldest of
the first island that has one, with the rest in order and where the round-robin starts next (R62). -/
def takeTurn (start n : Nat) (l : List XReq) : Option (XReq × List XReq × Nat) :=
  ((List.range n).map fun k => (start + k) % n).findSome? fun i =>
    (takeFirst (fun r : XReq => r.island == i) l).map fun (r, rest) => (r, rest, (i + 1) % n)

/-- The next request that the rotation grants, and the island after it: a slot whose group has none waiting is
skipped (R62). -/
def nextGrant (x : XIsland) : Nat → Option (XReq × XIsland)
  | 0 => none
  | n + 1 =>
    let slot := (x.rotation + 6 - n) % 7
    let next := (slot + 1) % 7
    let g := slotGroup slot
    let taken :=
      if g == 0 then (takeTurn x.turnDelivery 64 x.waitDelivery).map fun (r, l, t) =>
        (r, { x with waitDelivery := l, turnDelivery := t, rotation := next })
      else if g == 1 then (takeTurn x.turnQueue 16 x.waitQueue).map fun (r, l, t) =>
        (r, { x with waitQueue := l, turnQueue := t, rotation := next })
      else (takeTurn x.turnLedger 4 x.waitLedger).map fun (r, l, t) =>
        (r, { x with waitLedger := l, turnLedger := t, rotation := next })
    match taken with
    | some p => some p
    | none => nextGrant x n

/-- A translation of `len` bytes is requested (R512, R514, R519). It waits for a grant while the walk
pipeline holds 32 walks or other requests wait; alone, it is the one that the rotation grants next (R62). -/
def translate (r : XReq) (len : Nat) (s : State) : State × Xlated :=
  let x := s.xisland (r.room % 4)
  if 2 ^ 48 < r.iova + len then (s, .fault fRange 0xFF)
  else
    let idle := x.waitDelivery.isEmpty && x.waitQueue.isEmpty && x.waitLedger.isEmpty
    let s := waitForGrant r s
    if 32 ≤ x.walks.length || !idle then (s, .walking)
    else
      match nextGrant (s.xisland (r.room % 4)) 7 with
      | none => (s, .walking)
      | some (r, x) => grant r (s.modXIsland (r.room % 4) fun _ => x)

/-! ### A page-table entry read (R515 to R517, R520, R521) -/

/-- How a table read ends a walk, or continues it with the next table. -/
inductive WalkStep where
  | done (x : Xlated)
  | next (table : Nat)
  deriving DecidableEq, Repr

/-- ADDRESS of a page-table entry (Table TF-2). -/
def pteAddr (e : Nat) : Nat := bits e 51 12 * 4096

/-- A leaf of a walk. -/
def pteLeaf (w : Walk) (e : Nat) : Cached :=
  let big := w.level == 1
  { room := w.req.room
    page := if big then w.req.iova / 2 ^ 21 else w.req.iova / 2 ^ 12
    target := if big then alignDown (pteAddr e) 21 else pteAddr e
    big := big
    r := bit e 1
    w := bit e 2 }

/-- A directory entry of a walk that spans 2 to the power `n` bytes. -/
def dirEntry (w : Walk) (e n : Nat) : Cached :=
  { room := w.req.room, page := w.req.iova / 2 ^ n, target := pteAddr e, big := false, r := false,
    w := false }

/-- What the entry a walk read gives (Table TF-2, R516, R517). -/
def readEntry (w : Walk) (e : Nat) : WalkStep :=
  if !bit e 0 then .done (.fault fNotPresent w.level)
  else if w.level == 0 || (w.level == 1 && bit e 3) then
    .done ((pteLeaf w e).permits w.req.write w.req.iova)
  else .next (pteAddr e)

/-- The entry enters its walk cache if it was present and no invalidation overtook the walk (R520,
R527). -/
def cacheEntry (w : Walk) (e : Nat) (s : State) : State :=
  if w.stale || !bit e 0 then s
  else
    let free := s.free
    s.draw.modXIsland (w.req.room % 4) fun x =>
      match w.level with
      | 0 => { x with leaf := cacheInsert 4096 0 free (pteLeaf w e) x.leaf }
      | 1 =>
        if bit e 3 then { x with leaf := cacheInsert 4096 0 free (pteLeaf w e) x.leaf }
        else { x with dir1 := cacheInsert 512 1 free (dirEntry w e 21) x.dir1 }
      | 2 => { x with dir2 := cacheInsert 64 2 free (dirEntry w e 30) x.dir2 }
      | _ => { x with dir3 := cacheInsert 16 3 free (dirEntry w e 39) x.dir3 }

/-- A walk leaves its island's pipeline. -/
def endWalk (island id : Nat) (s : State) : State :=
  s.modXIsland island fun x => { x with walks := x.walks.filter (fun w => w.id != id) }

/-- A walk's table read has returned, or failed: the walk goes on to the next table, or ends with what
it gives (R515 to R521). -/
def walkAdvance (island : Nat) (w : Walk) (result : HostRead) (s : State) : State × WalkStep :=
  match result with
  | .data bytes =>
    let e := fieldAt bytes 0 8
    let s := cacheEntry w e s
    match readEntry w e with
    | .done x => (endWalk island w.id s, .done x)
    | .next table =>
      let level := w.level - 1
      match issueWalkRead s w.req.room (entryAddr level table w.req.iova) with
      | none => (endWalk island w.id s, .done (.fault fWalkError 0xFF))
      | some s =>
        (s.modXIsland island fun x => { x with
          walks := x.walks.map fun v =>
            if v.id == w.id then { v with level := level, table := table, readAt := s.now } else v }, .next table)
  | _ => (endWalk island w.id s, .done (.fault fWalkError 0xFF))

/-! ### Invalidation (TF.3) -/

/-- A latch of a target of the Room is in the scope. -/
def latchInScope (s : State) (room : Nat) (range : Option (Nat × Nat)) (key : Nat) (d : DSlot) : Bool :=
  (s.tgt (key / 2)).room == room &&
    match d.latch, range with
    | none, _ => false
    | some _, none => true
    | some l, some (first, count) => decide (first ≤ l.page) && decide (l.page < first + count)

/-- An invalidation takes effect (R526, R527): caches and latches in scope are emptied, walks of the
Room under way are not cached, and a fence is opened for them (R528). -/
def invalidate (room : Nat) (range : Option (Nat × Nat)) (item : Option (Nat × Nat)) (s : State) :
    State :=
  let i := room % 4
  let walks := ((s.xisland i).walks.filter (fun w => w.req.room == room)).map (fun w => (i, w.id))
  let s := s.modXIsland i fun x => { x with
    leaf := x.leaf.filter fun e => !inScope room range (if e.big then 21 else 12) e
    dir1 := x.dir1.filter fun e => !inScope room range 21 e
    dir2 := x.dir2.filter fun e => !inScope room range 30 e
    dir3 := x.dir3.filter fun e => !inScope room range 39 e
    walks := x.walks.map fun w => if w.req.room == room then { w with stale := true } else w }
  let keys := (s.fabric.dslots.filter (fun p => latchInScope s room range p.1 p.2)).map Prod.fst
  let s := keys.foldl
    (fun s k => s.modSlot (k / 2) (Cls.at (k % 2)) fun d => { d with latch := none }) s
  let n := s.xlate.issued + 1
  { s with xlate := { s.xlate with
    issued := n
    fences := s.xlate.fences ++ [{ number := n.toNat, room := room, walks := walks, item := item }] } }

/-- A fence may complete: the walks it waits for have ended (R528). -/
def fenceReady (s : State) (f : Fence) : Bool :=
  f.walks.all fun w => !((s.xisland w.1).walks.any (fun v => v.id == w.2))

/-- A Room's tables or control change: all of the Room is invalidated (Table TF-5). -/
def setXlateRoom (m : Nat) (f : XlateRoom → XlateRoom) (s : State) : State :=
  let s := { s with dur := { s.dur with xlate := mmod .initial s.dur.xlate m f } }.touchIf
    (f (s.xroom m) != s.xroom m) (objectLine (500 + m))
  invalidate m none none s

/-- InvalidateRange: PAGES 0 invalidates nothing and opens no fence (Table TF-10). -/
def invalidateRange (room iova pages : Nat) (s : State) : State :=
  if pages = 0 then s else invalidate room (some (iova / 4096, pages)) none s

end Sys2Proof.Machine
end

