-- ==== Sys2Proof/Machine/Conduct.lean ====
section
/-!
DEFINITION. What a host access to a register meets before its register acts: a link that is down, a
controller that is not ready (CN.3.1), an island that is halted (R100) or asleep (R665, R666).
-/

namespace Sys2Proof.Machine

open Sys2Proof

/-- What an access meets. -/
inductive Gate where
  | unanswered
  | zero
  | notReady
  | halted
  | held
  | pass
  deriving DecidableEq, Repr

/-- The gate of a register access on a port (R97, R98, R100). `always` marks the identity, Hatch and
conduct pages; `ids` are the islands that own the register. A Management island whose boot ROM failed
serves nothing (R708). An access whose Link island or whose register's island has no clock is held (R44, R81, R82). -/
def accessGate (s : State) (port : Port) (always : Bool) (ids : List Nat) : Gate :=
  if !s.powered || !(s.port port).linkUp then .unanswered
  else if s.keeper.bootFail then .zero
  else if !s.keeper.rdy && !always then .notReady
  else if ids.any (fun i => decide (i ∈ s.dap.halted)) then .halted
  else if (idLink port :: ids).any (fun i => mget 0 s.power.lockLost i != 0) then .held
  else .pass

/-- The end of a read of host memory reaches the islands that made it; while one of them has no clock it waits (R44,
R82). -/
def readArrives (p : Port) (a : Access) (ids : List Nat) (f : State → State) (s : State) : State :=
  if s.running && ids.any (fun i => !s.clocked i) then s.hold p.req a else onArrival ids f s

/-- A 32-bit read completes with its word, or with the bytes of it that the read asked for (R91). -/
def State.answerRead (s : State) (r : Reader) (v : Word) : State :=
  if r.first = 0 && r.count = 4 then s.emit (.readWord r.port v)
  else s.emit (.readBytes r.port (bytesAt (leBytes 4 v.toNat) r.first r.count) false)

/-- A port's read of a whole register. -/
def Reader.whole (port : Port) : Reader := ⟨port, 0, 4⟩

/-- The window and 4 KiB page of an access, and whether it is a posted write; a write of an object has none. -/
def Access.page : Access → Option (Window × Nat × Bool)
  | .read w off _ _ => some (w, off / 4096, false)
  | .write w off _ => some (w, off / 4096, true)
  | .part w off => some (w, off / 4096, true)
  | .letterbox _ w => some (.bar0, w.offset / 4096, true)
  | .dict _ _ _ _ => none
  | .hostRead _ _ => none

/-- A Letterbox write of a port to a page of BAR0 (8 or 9). -/
def Event.inPage (port : Port) (page : Nat) : Event → Bool
  | .letterbox p _ offset _ _ _ => p == port && offset / 4096 == page
  | _ => false

/-- Letterbox writes that a port received have not all taken effect at their banks, in the pages that a test names
(R93, R94, R273). -/
def letterboxPending (s : State) (port : Port) (pages : List Nat) : Bool :=
  let is := fun (e : Event) => pages.any fun k => Event.inPage port k e
  (s.port port).staging.any (fun x => is x.event) ||
    (s.fabric.gatherQ ++ s.fabric.submitHeld ++ s.fabric.updateQ).any fun q => q.2.any fun x => is x.body

/-- An access reads SYNC. -/
def Access.isSync : Access → Bool
  | .read .bar0 off _ _ => off == 0x14
  | _ => false

/-- An access is a read of a register. -/
def Access.isRead : Access → Bool
  | .read _ _ _ _ => true
  | _ => false

/-- An access comes after an earlier one of its port: a posted write to its own page (R93), or, for a read of SYNC, to any
page (R94). -/
def Access.after (a b : Access) : Bool :=
  match b.page, a.page with
  | some (w, n, true), some (w', n', _) => a.isSync || (w == w' && n == n')
  | _, _ => false

/-- The pages of BAR0 whose Letterbox writes a read comes after (R93, R94). -/
def Access.letterboxPages (a : Access) : List Nat :=
  match a with
  | .read .bar0 off _ _ => if off == 0x14 then [8, 9] else [off / 4096]
  | _ => []

/-- An access of a port comes after posted writes of the port that have not taken effect: those to its own page (R93),
or, for a read of SYNC, those to any page of BAR0 and BAR2 (R94). A posted write also waits in its port's posted path
behind BAR4 writes that a full Ledger write channel holds (LG.11, R286). -/
def waitsBehind (s : State) (port : Port) (a : Access) : Bool :=
  s.held.any (fun x => x.1 == port.req && a.after x.2) ||
  (!a.isRead && s.ledger.stream.any fun p => p.port == port && p.append.isNone) ||
  letterboxPending s port a.letterboxPages

/-- A read reaches islands: one that dozes wakes, one that is retained answers from its register shell
(R665, R668). -/
def State.wakeForRead (s : State) (ids : List Nat) : State :=
  ids.foldl (fun s i => if (s.island i).level = .dozing then s.wakeUp i else s) s

/-- A write reaches islands: those that sleep wake (R666, R668). -/
def State.wakeForWrite (s : State) (ids : List Nat) : State :=
  ids.foldl (fun s i => (s.wakeUp i).busy i) s

/-- An access: nothing where the port is down, `zero` where it is not ready (R98) or its island is halted (R100), its
effect once its island can take it and every earlier write that it must follow has taken effect. -/
def hostAccess (port : Port) (a : Access) (always : Bool) (ids : List Nat) (zero pass : State → State)
    (s : State) : State :=
  match accessGate s port always ids with
  | .unanswered => s
  | .zero => zero s
  | .notReady => zero (s.conductBit port.req 3)
  | .halted => zero (s.conductBit port.req 4)
  | .held => s.hold port.req a
  | .pass => if waitsBehind s port a then s.hold port.req a else pass s

/-- A 32-bit read: its side effect and its value, or the zero of R98 and R100. -/
def hostRead (r : Reader) (a : Access) (always : Bool) (ids : List Nat) (f : State → State × Word) (s : State) :
    State :=
  hostAccess r.port a always ids (fun s => s.answerRead r 0)
    (fun s => (f (s.wakeForRead ids)).1.answerRead r (f (s.wakeForRead ids)).2) s

/-- A 32-bit write: its effect, or none under R98 and R100, or while the staging buffer is full (R286). A change that a
bank's quota holds waits (R603). -/
def hostWrite (port : Port) (a : Access) (always : Bool) (ids : List Nat) (f : State → State) (s : State) : State :=
  if s.keeper.rdy && stagingFull s port then s
  else
    hostAccess port a always ids id
      (fun s =>
        let s := s.wakeForWrite ids
        let s' := crossing ids f s
        if (heldBanks s s').isEmpty then s' else (throttleEngage (heldBanks s s') s).hold port.req a) s

end Sys2Proof.Machine
end

