-- ==== Sys2Proof/Machine/Delivery.lean ====
section
/-!
DEFINITION. Delivery, claim and completion (DL): offers and their Pane and wake writes, the claim read
and its answer, the EOI, the Shutter, the mask window, the Louvre, target reset and the watchdog.
-/

namespace Sys2Proof.Machine

open Sys2Proof

/-! ### What a slot holds -/

/-- The source a target holds Active in a class, as its Delivery island has it: the class is HOLDING, or an accepted
claim's read waits for its Pane write (R358, R362). -/
def heldSource (s : State) (tn : Nat) (c : Cls) : Option Nat :=
  let d := s.dslot tn c
  match d.holding with
  | some sn => some sn
  | none => if d.accepted.isSome && !d.expired then d.offer.map OfferData.sn else none

/-- The Louvre holds the class (R378, R381). -/
def louvreHolds (s : State) (tn : Nat) (c : Cls) : Bool :=
  match (s.dslot tn c).lastWake with
  | none => false
  | some t => decide (s.now < t + 10 * (s.tgt tn).louvre c)

/-- Delivery descriptors of a Delivery island that wait in a Link island's Outbound FIFO. -/
def outboundUsed (s : State) (port : Port) (island : Nat) : Nat :=
  ((s.port port).out.filter fun r =>
    match r with
    | .delivery _ tn _ _ _ _ => tn / 64 == island
    | _ => false).length

/-- The Outbound FIFO toward the target's port has room (Table IH-2). -/
def outboundRoom (s : State) (tn : Nat) : Bool := decide (outboundUsed s (s.tgt tn).port (tn / 64) < 32)

/-- R354 holds the target's port. -/
def portHeld (s : State) (tn : Nat) : Bool := !(s.port (s.tgt tn).port).canIssue

/-- The held offer may be delivered now (R350, R354, R358). -/
def deliverable (s : State) (tn : Nat) (c : Cls) : Bool :=
  !s.fabric.shutter && (s.tgt tn).enable && !louvreHolds s tn c && !portHeld s tn && outboundRoom s tn

/-! ### Building a delivery -/

/-- A Pane slot (Table DL-11). -/
def paneBytes (o : OfferData) (c : Cls) (seq : BitVec 32) (replaced : Bool) : List Byte :=
  leBytes 3 o.sn ++
  [BitVec.ofNat 8 (b2n o.note.isSome + 2 * b2n o.noteLost + 4 * c.num + 8 * b2n replaced)] ++
  leBytes 4 seq.toNat ++
  [BitVec.ofNat 8 o.priority, BitVec.ofNat 8 o.room] ++ List.replicate 6 0 ++
  bytesAt (o.note.getD []) 0 16 ++ List.replicate 32 0

/-- The wake write of a target and class, none while its ADDRESS is 0 (R347). -/
def wakeOf (t : Target) (c : Cls) : Option (Nat × Word) :=
  let a := alignDown (t.wakeAddr c) 2
  if a = 0 then none else some (a, t.wakeData c)

/-- The held offer's descriptor is built and passed to the Outbound channel (R71, R350, R352): the Pane
write at `pane`, if there is one, then the wake write if it is due. -/
def buildDelivery (tn : Nat) (c : Cls) (pane : Option Nat) (withWake : Bool) (s : State) : State :=
  let d := s.dslot tn c
  match d.offer with
  | none => s
  | some o =>
    let t := s.tgt tn
    let seq := if pane.isSome then d.seq + 1 else d.seq
    let wake := if withWake then wakeOf t c else none
    let p := pane.map fun a => (a, paneBytes o c seq d.replaced)
    let s := s.modSlot tn c fun d => { d with
      stage := .issued pane.isSome
      paneIssued := d.paneIssued || pane.isSome
      seq := seq
      descr := if p.isNone && wake.isNone then none else some (t.port, s.fabric.nextDescr)
      wakeBefore := d.lastWake
      lastWake := if wake.isSome then some s.now else d.lastWake }
    if p.isNone && wake.isNone then s
    else
      (s.modFabric fun f => { f with nextDescr := f.nextDescr + 1 }).passToLink t.port
        (.delivery s.fabric.nextDescr tn c o.sn p wake)

/-- A Pane write faulted (R537): the record, PANE_EN of the class cleared, the wake write due. -/
def paneFault (tn : Nat) (c : Cls) (code level : Nat) (s : State) : State :=
  let t := s.tgt tn
  let s := reportFault { FaultRec.blank with
    type := code
    path := 6
    room := t.room
    iova := alignDown (t.pane c) 6
    level := level
    tn := some tn
    cls := c } s
  (s.putTgt tn ((s.tgt tn).setPaneEn c false)).modSlot tn c fun d =>
    { d with stage := .waiting, faulted := true }

/-- A Pane write is wanted for the held offer (R346, R538, R539). -/
def paneWanted (s : State) (tn : Nat) (c : Cls) : Bool :=
  (s.tgt tn).paneEn c && !(s.dslot tn c).faulted

/-- A Pane write's address from the class's latch, filled from its translation (R61, R345, R524). -/
def paneAddress (tn : Nat) (c : Cls) (s : State) : State × Xlated :=
  let t := s.tgt tn
  let iova := alignDown (t.pane c) 6
  match (s.dslot tn c).latch with
  | some l =>
    if l.page == iova / 4096 then (s, .hit (l.frame * 4096 + iova % 4096))
    else translate { room := t.room, iova := iova, write := true, use := .pane tn c } 64 s
  | none => translate { room := t.room, iova := iova, write := true, use := .pane tn c } 64 s

/-- The latch of a class filled (R524). -/
def fillLatch (tn : Nat) (c : Cls) (addr : Nat) (s : State) : State :=
  s.modSlot tn c fun d => { d with
    latch := some { page := alignDown ((s.tgt tn).pane c) 6 / 4096, frame := addr / 4096 } }

/-- The held offer's source was masked longer than W_MASK ago: nothing is issued for it (R373). -/
def offerMasked (s : State) (tn : Nat) (c : Cls) : Bool :=
  match (s.dslot tn c).offer with
  | some o => maskOver s o.sn
  | none => false

/-- The held offer is delivered if everything allows it (R350, R373). Its Pane's translation may have to be
awaited. -/
def deliverStep (tn : Nat) (c : Cls) (s : State) : State :=
  let d := s.dslot tn c
  if d.offer.isNone || d.stage != .waiting || d.claiming.isSome || !deliverable s tn c || offerMasked s tn c then s
  else if !paneWanted s tn c then buildDelivery tn c none true s
  else
    match paneAddress tn c s with
    | (s, .hit a) => buildDelivery tn c (some a) true (fillLatch tn c a s)
    | (s, .fault code level) => buildDelivery tn c none true (paneFault tn c code level s)
    | (s, .walking) => s.modSlot tn c fun d => { d with stage := .translating }

/-- DELIVER (R350). -/
def execDeliver (tn : Fin 4096) (cls : Cls) (s : State) : Host.Outcome State Fault Refusal :=
  answer s <| onIslands [idDelivery (tn / 64)] (deliverStep tn cls)

/-! ### Selections at the Delivery island -/

/-- A selection or retraction is taken for its slot (R349, R350, R351): while a claim awaits its answer
it is held (R356). -/
def takeSelect (m : Select) (s : State) : State :=
  match m with
  | .select tn c o =>
    s.modSlot tn c fun d =>
      if d.claiming.isSome then { d with heldSel := some m }
      else { d with offer := some o, stage := .waiting, replaced := d.paneIssued, faulted := false }
  | .retract tn c =>
    s.modSlot tn c fun d =>
      if d.claiming.isSome then { d with heldSel := some m }
      else { d with
        offer := none
        stage := .waiting
        replaced := false
        paneIssued := false
        faulted := false }
  | .done tn c sn =>
    s.modSlot tn c fun d => if d.holding == some sn then { d with holding := none, wdog := none } else d
  | .answer _ _ _ _ _ _ => s

/-- The oldest transfer of a Delivery island's Select channel removed. -/
def dropSelect (island : Nat) (rest : List (Sent Select)) (s : State) : State :=
  s.modFabric fun x => { x with selectQ := mput [] island rest x.selectQ }

/-- The ends of held sources that stand first in a Delivery island's Select channel are taken (R335). -/
def takeDones (island : Nat) : List (Sent Select) → State → State
  | ⟨_, _, .done tn c sn⟩ :: rest, s => takeDones island rest (takeSelect (.done tn c sn) (dropSelect island rest s))
  | _, s => s

/-- OFFER: a Delivery island takes a selection or replacement (R349, R356). -/
def execOffer (delivery : Fin 64) (s : State) : Host.Outcome State Fault Refusal :=
  answer s <| handshake [idDelivery delivery] fun s =>
    let s := takeDones delivery (mget [] s.fabric.selectQ delivery) s
    match mget [] s.fabric.selectQ delivery with
    | ⟨_, _, .select tn c o⟩ :: rest => takeSelect (.select tn c o) (dropSelect delivery rest s)
    | _ => s

/-- RETRACTION: a Delivery island takes a retraction (R351). -/
def execRetraction (delivery : Fin 64) (s : State) : Host.Outcome State Fault Refusal :=
  answer s <| handshake [idDelivery delivery] fun s =>
    let s := takeDones delivery (mget [] s.fabric.selectQ delivery) s
    match mget [] s.fabric.selectQ delivery with
    | ⟨_, _, .retract tn c⟩ :: rest => takeSelect (.retract tn c) (dropSelect delivery rest s)
    | _ => s

/-! ### The claim read (DL.4.1) -/

/-- A request of the target's Delivery island on a bank's Claim channel. -/
def sendClaim (tn bank : Nat) (r : ClaimReq) (s : State) : State :=
  s.modFabric fun x => { x with claimQ := mmod [] x.claimQ bank (· ++ [s.sent (idDelivery (tn / 64)) r]) }

/-- A claim read is judged: VALID 0 at once, or a claim goes to the bank (R355, R356). -/
def judgeClaim (r : Reader) (tn : Nat) (c : Cls) (s : State) : State :=
  match (s.dslot tn c).offer with
  | none => s.answerRead r 0
  | some o =>
    if s.fabric.shutter || !(s.tgt tn).enable then s.answerRead r 0
    else
      sendClaim tn (bankOf o.sn) (.claim tn c o.sn o.note.isSome)
        (s.modSlot tn c fun d => { d with claiming := some r })

/-- The BAR2 offset of a register of a target's Wicket page. -/
def wicketOffset (tn : Nat) (c : Cls) (o : Nat) : Nat := 0x1000 * tn + 0x100 * c.num + o

/-- A read of CLAIM or FAST_CLAIM (R348, R355, R356, R361). Its completion is the output of the command
that gives it its answer. -/
def claimRead (r : Reader) (tn : Nat) (cls : Cls) (s : State) : State :=
  let ids := [idDelivery (tn / 64)]
  hostAccess r.port (.read .bar2 (wicketOffset tn cls 0) r.first r.count) false ids (fun s => s.answerRead r 0)
    (fun s =>
      let s := s.wakeForRead ids
      if !s.linkReaches r.port (s.tgt tn).room then s.answerRead r 0
      else if (s.dslot tn cls).claiming.isSome then
        s.modSlot tn cls fun d => { d with claimQ := d.claimQ ++ [r] }
      else judgeClaim r tn cls s) s

/-- CLAIM_READ (R355). -/
def execClaimRead (port : Port) (tn : Fin 4096) (cls : Cls) (s : State) :
    Host.Outcome State Fault Refusal :=
  answer s (claimRead (Reader.whole port) tn cls)

/-! ### The claim's answer (R357 to R361) -/

/-- The word a successful claim read returns (Table DL-3). -/
def claimWord (o : OfferData) (seq : BitVec 32) (pane noteLost : Bool) : Word :=
  BitVec.ofNat 32 (o.sn + (if pane then 2 ^ 24 * (seq.toNat % 16) else 0) +
    2 ^ 28 * b2n o.note.isSome + 2 ^ 29 * b2n noteLost + 2 ^ 30 * b2n pane + 2 ^ 31)

/-- The claim reads that wait behind one are judged in order, up to the first that must ask its bank
(R361). -/
def judgeNext (tn : Nat) (c : Cls) : List Reader → State → State
  | [], s => s.modSlot tn c fun d => { d with claimQ := [] }
  | p :: ps, s =>
    let s := judgeClaim p tn c s
    if (s.dslot tn c).claiming.isSome then s.modSlot tn c fun d => { d with claimQ := ps }
    else judgeNext tn c ps s

/-- A successful claim read completes: the slot holds the source and its watchdog runs from the bank's acceptance; a
replacement held meanwhile is void (R357, R388, DL.12). Where the watchdog has completed the source already (R390),
the slot is EMPTY, and what was selected since is taken. -/
def finishClaim (tn : Nat) (c : Cls) (noteLost pane : Bool) (s : State) : State :=
  let d := s.dslot tn c
  match d.offer, d.claiming with
  | some o, some reader =>
    let s := (s.modSlot tn c fun d => { d with
      offer := none
      stage := .waiting
      replaced := false
      paneIssued := false
      faulted := false
      claiming := none
      accepted := none
      heldSel := none
      descr := none
      expired := false
      holding := if d.expired then none else some o.sn }).answerRead reader (claimWord o d.seq pane noteLost)
    let s := match d.expired, d.heldSel with
      | true, some m => takeSelect m s
      | _, _ => s
    judgeNext tn c d.claimQ s
  | _, _ => s

/-- A descriptor is still with a Link island. -/
def LinkReq.isDescr (id : Nat) : LinkReq → Bool
  | .delivery k _ _ _ _ _ => k == id
  | _ => false

/-- The offer's descriptor is still with a Link island. -/
def inOut (s : State) (port : Port) (id : Nat) : Bool := (s.port port).out.any (LinkReq.isDescr id)

/-- The wait of a posted write for host credits ends: CreditWaitMax of its port, in every copy (Table
GU-4). -/
def creditWaitEnds (p : Port) (s : State) : State :=
  let w := min (s.port p).creditWait (2 ^ 32 - 1)
  let s := s.modPort p fun x => { x with creditWait := 0 }
  if w = 0 then s
  else
    s.modConducts fun c =>
      match p with
      | .a => { c with creditMaxA := max c.creditMaxA w }
      | .b => { c with creditMaxB := max c.creditMaxB w }

/-- The first read of a slot that is not issued yet is issued now. -/
def stampFetch (slot now : Nat) : List Fetch → List Fetch
  | [] => []
  | f :: fs =>
    if f.slot == slot && f.sent && f.readAt.isNone then { f with readAt := some now } :: fs
    else f :: stampFetch slot now fs

/-- What a request of the controller puts on the link when it is issued; a read's timeout runs from then (R522). -/
def LinkReq.emitTo (r : LinkReq) (p : Port) (s : State) : State :=
  let s := creditWaitEnds p s
  match r with
  | .delivery _ tn c _ pane wake =>
    let s := match pane with
      | some (a, bytes) => s.emit (.memWrite p a bytes)
      | none => s
    match wake with
    | some (a, v) =>
      (s.emit (.memWrite p a (leBytes 4 v.toNat))).modSlot tn c fun d =>
        { d with lastWake := some s.now }
    | none => s
  | .completion _ _ _ _ _ _ a bytes => s.emit (.memWrite p a bytes)
  | .hostStore _ _ _ _ _ a bytes => s.emit (.memWrite p a bytes)
  | .itemRead q _ _ a len => (s.emit (.memRead p a len)).modQVol q fun v => { v with readAt := s.now }
  | .ringFetch q slot a => (s.emit (.memRead p a 64)).modQVol q fun v => { v with fetches := stampFetch slot s.now v.fetches }
  | .ledgerCopy _ _ a bytes => s.emit (.memWrite p a bytes)

/-- The requests of a port issued in order up to and with a descriptor (R359). -/
def issueThrough (p : Port) (id : Nat) : List LinkReq → State → State
  | [], s => s
  | r :: rs, s =>
    let s := r.emitTo p (s.modPort p fun x => { x with out := rs })
    if r.isDescr id then s else issueThrough p id rs s

/-- The descriptor of the offer dropped unissued: its SEQ is taken back, and the Louvre is as before it (R354, R358,
R381). -/
def dropDescriptor (port : Port) (tn : Nat) (c : Cls) (id : Nat) (pane : Bool) (s : State) : State :=
  let s := s.modPort port fun x => { x with out := x.out.filter fun r => !r.isDescr id }
  s.modSlot tn c fun d => { d with seq := if pane then d.seq - 1 else d.seq, lastWake := d.wakeBefore }

/-- R354 holds a port. -/
def heldPort (s : State) (port : Port) : Bool := !(s.port port).canIssue

/-- A claim read on the port of its descriptor completes after the Pane write (R359). -/
def issueBefore (reader : Reader) (descr : Option (Port × Nat)) (s : State) : State :=
  match descr with
  | some (port, id) => if reader.port == port && inOut s port id then issueThrough port id (s.port port).out s else s
  | none => s

/-- The acceptance of a claim reaches the Delivery island (R358, R359): what becomes of the offer's Pane
write and wake write, then the read's completion. A Pane write whose translation is awaited waits under R354 while
the port is held, as one that is built does. -/
def claimAccept (tn : Nat) (c : Cls) (noteLost : Bool) (s : State) : State :=
  let d := s.dslot tn c
  match d.offer, d.claiming with
  | some _, some reader =>
    match d.stage with
    | .issued pane =>
      match d.descr with
      | some (port, id) =>
        if inOut s port id && heldPort s port then finishClaim tn c noteLost false (dropDescriptor port tn c id pane s)
        else finishClaim tn c noteLost pane (issueBefore reader d.descr s)
      | none => finishClaim tn c noteLost pane s
    | .translating =>
      if portHeld s tn then finishClaim tn c noteLost false s
      else s.modSlot tn c fun d => { d with accepted := some (noteLost, true) }
    | .waiting =>
      let held := louvreHolds s tn c
      if s.fabric.shutter || !(s.tgt tn).enable || portHeld s tn || !outboundRoom s tn then
        finishClaim tn c noteLost false s
      else if !paneWanted s tn c then
        finishClaim tn c noteLost false (buildDelivery tn c none (!held) s)
      else
        match paneAddress tn c s with
        | (s, .hit a) =>
          let s := buildDelivery tn c (some a) (!held) (fillLatch tn c a s)
          finishClaim tn c noteLost true (issueBefore reader (s.dslot tn c).descr s)
        | (s, .fault code level) =>
          finishClaim tn c noteLost false
            (buildDelivery tn c none (!held) (paneFault tn c code level s))
        | (s, .walking) =>
          s.modSlot tn c fun d => { d with stage := .translating, accepted := some (noteLost, !held) }
  | _, _ => s

/-- A refused claim: VALID 0, then the selection held meanwhile is taken (R356, R357, DL.12). -/
def claimRefuse (tn : Nat) (c : Cls) (s : State) : State :=
  let d := s.dslot tn c
  match d.claiming with
  | none => s
  | some reader =>
    let s := (s.modSlot tn c fun d => { d with
      claiming := none, accepted := none, heldSel := none, expired := false }).answerRead reader 0
    let s := match d.heldSel with
      | some m => takeSelect m s
      | none => s
    judgeNext tn c d.claimQ s

/-- A claim answer at the Delivery island: an accepted claim's watchdog runs from the bank's acceptance (R388); then
what becomes of the offer, and the read's completion (R357, R358). -/
def takeAnswer (tn : Nat) (c : Cls) (ok lost : Bool) (at' : Nat) (s : State) : State :=
  if ok then
    claimAccept tn c lost (s.modSlot tn c fun d => { d with
      wdog := if (s.tgt tn).wdogEn c then some at' else none })
  else claimRefuse tn c s

/-- The Link island through which a waiting claim read completes has its clock (R81). -/
def readerClocked (s : State) (tn : Nat) (c : Cls) : Bool :=
  match (s.dslot tn c).claiming with
  | some r => s.clocked (idLink r.port)
  | none => true

/-- Transfers move on toward a Delivery island in the order of their channels (R43) until a claim answer has reached
it: the Delivery island takes the oldest of its Select channel; when that is empty the Rank island takes its oldest
Notify transfer. `fuel` bounds the transfers moved. -/
def answerStep (island : Nat) : Nat → State → State
  | 0, s => s
  | fuel + 1, s =>
    match mget [] s.fabric.selectQ island with
    | ⟨_, _, .answer tn c _ ok lost at'⟩ :: rest =>
      if readerClocked s tn c then takeAnswer tn c ok lost at' (dropSelect island rest s) else s
    | x :: rest => answerStep island fuel (takeSelect x.body (dropSelect island rest s))
    | [] =>
      if (mget [] s.fabric.notifyQ (island / 4)).isEmpty then s else answerStep island fuel (rankStep (island / 4) s)

/-- How many transfers stand between a Delivery island and the last of its Rank island's Notify channel. -/
def answerFuel (island : Nat) (s : State) : Nat :=
  (mget [] s.fabric.selectQ island).length + 4 * (mget [] s.fabric.notifyQ (island / 4)).length + 1

/-- CLAIM_ANSWER: the bank's answer reaches the Delivery island and the claim read gets its answer
(R357 to R359). -/
def execClaimAnswer (delivery : Fin 64) (s : State) : Host.Outcome State Fault Refusal :=
  answer s <| handshake [idRank (delivery / 4), idDelivery delivery] fun s =>
    answerStep delivery (answerFuel delivery s) s

/-- The translation of a Pane write has ended (R61, R524, R537): the latch is filled unless an
invalidation overtook the walk, and the delivery that waited for it goes on; a Pane write is no longer wanted where
PANE_EN was cleared meanwhile (R346). -/
def paneResume (tn : Nat) (c : Cls) (room iova : Nat) (stale : Bool) (x : Xlated) (s : State) : State :=
  let d := s.dslot tn c
  let t := s.tgt tn
  if d.stage != .translating || t.room != room || alignDown (t.pane c) 6 != iova then s
  else
    let wake := match d.accepted with
      | some (_, w) => w
      | none => true
    let go := (d.accepted.isSome && !s.fabric.shutter && !portHeld s tn) ||
      (deliverable s tn c && !offerMasked s tn c)
    let wanted := paneWanted s tn c
    let s := match x with
      | .hit a =>
        let s := if stale then s else fillLatch tn c a s
        if go then buildDelivery tn c (if wanted then some a else none) wake s
        else s.modSlot tn c fun d => { d with stage := .waiting }
      | .fault code level =>
        let s := if wanted then paneFault tn c code level s else s
        if go then buildDelivery tn c none wake s else s.modSlot tn c fun d => { d with stage := .waiting }
      | .walking => s
    match d.accepted, d.claiming with
    | some (lost, _), some reader =>
      let pane := match x with
        | .hit _ => go && wanted
        | _ => false
      finishClaim tn c lost pane (if pane then issueBefore reader (s.dslot tn c).descr s else s)
    | _, _ => s

/-! ### The EOI (DL.4.2) -/

/-- An EOI is judged at the Delivery island (R362, R363). -/
def judgeEoi (tn : Nat) (c : Cls) (sn : Nat) (s : State) : State :=
  let error := eoiError (idDelivery (tn / 64)) tn c sn
  if (s.dslot tn c).holding == some sn then sendClaim tn (bankOf sn) (.eoi tn c sn) s
  else if !snExists sn then error 1 s
  else if (s.dslot tn c.other).holding == some sn then error 2 s
  else error 3 s

/-- EOI: a write of EOI or FAST_EOI (R348, R362, R365). -/
def execEoi (port : Port) (tn : Fin 4096) (cls : Cls) (value : Word) (s : State) :
    Host.Outcome State Fault Refusal :=
  answer s <| hostWrite port (.write .bar2 (wicketOffset tn cls 4) value.toNat) false [idDelivery (tn / 64)] fun s =>
    if !s.linkReaches port (s.tgt tn).room then
      s.ignoredWrite port.req 1 (wicketOffset tn cls 4) rAccess
    else judgeEoi tn cls (value.toNat % 2 ^ 24) s

/-! ### The Outbound channel -/

/-- A Link island issues the oldest request passed to it, while the port may issue (R71, R354, R448). -/
def outboundStep (port : Port) (s : State) : State :=
  onIslands [idLink port] (fun s =>
    match (s.port port).out with
    | [] => s
    | r :: rs =>
      if !(s.port port).canIssue then s
      else r.emitTo port (s.modPort port fun x => { x with out := rs })) s

/-! ### Settings of a target -/

/-- A threshold set (R311, R314). -/
def setThreshold (tn : Nat) (c : Cls) (v : Nat) (s : State) : State :=
  let v := min v 256
  let t := s.tgt tn
  let t' := match c with
    | .normal => { t with thrN := v }
    | .fast => { t with thrF := v }
  if t' = t then s else renotify (· == tn) (s.putTgt tn t')

/-- A Louvre interval set; it takes effect at once (R380). -/
def setLouvre (tn : Nat) (c : Cls) (v : Nat) (s : State) : State :=
  let t := s.tgt tn
  let t' := match c with
    | .normal => { t with louvreN := v % 2 ^ 16 }
    | .fast => { t with louvreF := v % 2 ^ 16 }
  if t' = t then s else s.putTgt tn t'

/-- LOUVRE_EXPIRY: the hold of a class has run its interval, and its offer is delivered (R378). -/
def execLouvreExpiry (tn : Fin 4096) (cls : Cls) (s : State) : Host.Outcome State Fault Refusal :=
  answer s <| onIslands [idDelivery (tn / 64)] fun s =>
    match (s.dslot tn cls).lastWake with
    | none => s
    | some t =>
      let s := s.elapseTo (t + 10 * (s.tgt tn).louvre cls)
      deliverStep tn cls (s.modSlot tn cls fun d => { d with lastWake := none })

/-- ENABLE is volatile: no line of the durable region holds it (R824). -/
def State.setEnable (s : State) (tn : Nat) (b : Bool) : State :=
  { s with dur := { s.dur with
    targets := mput (tgtDefault s.dur tn) tn { s.tgt tn with enable := b } s.dur.targets } }

/-- WDOG_EN of a class written (R388). -/
def writeWdog (tn : Nat) (c : Cls) (was now : Bool) (s : State) : State :=
  if was == now then s
  else if !now then s.modSlot tn c fun d => { d with wdog := none }
  else if (heldSource s tn c).isSome then s.modSlot tn c fun d => { d with wdog := some s.now }
  else s

/-- TARGET_CONTROL written (R346, R387, R388). -/
def setTargetControl (tn v : Nat) (s : State) : State :=
  let t := s.tgt tn
  let t' := { t with
    paneEnN := bit v 1
    paneEnF := bit v 2
    wdogEnN := bit v 3
    wdogEnF := bit v 4 }
  let s := if t' = t then s else s.putTgt tn t'
  let s := s.setEnable tn (bit v 0)
  let s := writeWdog tn .normal t.wdogEnN (bit v 3) s
  writeWdog tn .fast t.wdogEnF (bit v 4) s

/-- A write of a Pane address clears the latches of its target; a translation that the class awaits is begun anew
(R524). -/
def setPane (tn : Nat) (c : Cls) (a : Nat) (s : State) : State :=
  let t := s.tgt tn
  let t' := match c with
    | .normal => { t with paneN := alignDown a 6 }
    | .fast => { t with paneF := alignDown a 6 }
  let s := if t' = t then s else s.putTgt tn t'
  let s := (s.modSlot tn .normal fun d => { d with latch := none }).modSlot tn .fast fun d => { d with latch := none }
  s.modSlot tn c fun d => { d with
    stage := if d.stage == .translating && d.accepted.isNone then .waiting else d.stage }

/-! ### Target reset (DL.8.1) -/

/-- A request of a target and class on a Claim channel. -/
def ClaimReq.isClaim (tn : Nat) (c : Cls) : ClaimReq → Bool
  | .claim t k _ _ => t == tn && k == c
  | .eoi _ _ _ => false

/-- A claim answer for a target and class. -/
def Notify.isAnswer (tn : Nat) (c : Cls) : Notify → Bool
  | .answer t k _ _ _ _ => t == tn && k == c
  | _ => false

/-- A claim of the class that awaits its answer gets it before the reset: the bank judges it, the reads
return VALID 0, and the reset undoes it (R357, DL.12). The source that the bank accepted it for, if it did, and
what is left to undo. -/
def settleClaim (tn : Nat) (c : Cls) (s : State) : State × Option Nat :=
  let d := s.dslot tn c
  match d.claiming, d.offer with
  | some reader, some o =>
    let q := mget [] s.fabric.claimQ (bankOf o.sn)
    let s := match takeFirst (fun x : Sent ClaimReq => x.body.isClaim tn c) q with
      | some (⟨_, _, .claim _ _ sn note⟩, rest) =>
        let s := s.modFabric fun f => { f with claimQ := mput [] (bankOf o.sn) rest f.claimQ }
        if claimAccepted s tn c sn then acceptClaim tn c sn note s else s
      | _ => s
    let s := s.modFabric fun x => { x with
      notifyQ := mmod [] x.notifyQ (tn / 256) (·.filter fun n => !n.body.isAnswer tn c) }
    ((reader :: d.claimQ).foldl (fun s r => s.answerRead r 0)
      (s.modSlot tn c fun d => { d with
        claiming := none, accepted := none, claimQ := [], heldSel := none }), some o.sn)
  | _, _ => (s, d.holding)

/-- The target of a Select transfer. -/
def Select.tn : Select → Nat
  | .select tn _ _ => tn
  | .retract tn _ => tn
  | .done tn _ _ => tn
  | .answer tn _ _ _ _ _ => tn

/-- The transfers of a target in a Select channel are discarded (R839). -/
def purgeSelect (tn : Nat) (s : State) : State :=
  s.modFabric fun x => { x with selectQ := mmod [] x.selectQ (tn / 64) (·.filter fun m => m.body.tn != tn) }

/-- Steps 3 and 4 of Table DL-17 for one held source: it returns to Pending and moves to the fallback
where R384 allows it. `barrier` marks a reset that ends the target's part in the flush barrier
(R625). -/
def releaseSource (barrier : Bool) (tn : Nat) (c : Cls) (sn : Nat) (s : State) : State :=
  if !heldBy s tn c sn then s
  else
    let s := holderReset tn c sn s
    let r := s.src sn
    let s := match (s.tgt tn).fallback with
      | none => s
      | some f =>
        if f != tn && !isIpi sn && s.canReach r.room (s.tgt f).room then
          applyRoute { sn := sn, target := some (some f), priority := none, cls := none, room := none,
                       mask := none } s
        else s
    if barrier && sn == warnSn s tn then flushLeave tn .reset s else s

/-- Those steps for what a class holds. -/
def releaseHeld (barrier : Bool) (tn : Nat) (c : Cls) (held : Option Nat) (s : State) : State :=
  match held with
  | none => s
  | some sn => releaseSource barrier tn c sn s

/-- The slot of a class after a reset: no offer, no hold, no watchdog; SEQ and the latch stay (R352). -/
def DSlot.afterReset (d : DSlot) : DSlot :=
  { DSlot.initial with seq := d.seq, latch := d.latch }

/-- A target reset (Table DL-17). -/
def resetTarget (barrier : Bool) (tn : Nat) (s : State) : State :=
  let (s, heldN) := settleClaim tn .normal s
  let (s, heldF) := settleClaim tn .fast s
  let s := s.setEnable tn false
  let s := s.modFabric fun x => { x with
    tstatus := mmod ⟨0, 0, 0⟩ x.tstatus tn (·.all (· ||| 4)) }
  let s := releaseHeld barrier tn .fast heldF (releaseHeld barrier tn .normal heldN s)
  let s := purgeSelect tn s
  let s := (s.modSlot tn .normal DSlot.afterReset).modSlot tn .fast DSlot.afterReset
  let s := (s.setRank tn .normal .empty).setRank tn .fast .empty
  (s.owe tn .normal).owe tn .fast

/-! ### The Active watchdog (DL.8.3) -/

/-- The time of the class's Active watchdog in nanoseconds (Table DL-18). -/
def wdogTime (s : State) (c : Cls) : Nat :=
  1000 * (match c with
    | .normal => s.dur.g.wdogN
    | .fast => s.dur.g.wdogF)

/-- The slot of a class after its watchdog completed the source: EMPTY, or, where the claim's read still waits, to be
so when the read completes; a selection held for that read is void (R390, DL.12). -/
def DSlot.afterExpiry (d : DSlot) : DSlot :=
  { d with holding := none, wdog := none, expired := d.accepted.isSome, heldSel := none }

/-- WATCHDOG_EXPIRY: the Active watchdog of a class has run its time; the held source is completed at its bank as by
an accepted EOI, which its Rank island learns, and the target disabled (R389, R390, R625). -/
def execWatchdogExpiry (tn : Fin 4096) (cls : Cls) (s : State) : Host.Outcome State Fault Refusal :=
  match (s.dslot tn cls).wdog, heldSource s tn cls with
  | some t0, some sn =>
    answer s <| onIslands [idDelivery (tn / 64), idBank (bankOf sn)] <| guarded fun s =>
      let s := s.elapseTo (t0 + wdogTime s cls)
      let barrier := cls == .fast && sn == warnSn s tn
      let s := if heldBy s tn cls sn then (eoiTransition sn s).notifyRank sn tn (.done tn cls sn) else s
      let s := (s.modSlot tn cls DSlot.afterExpiry).setEnable tn false
      let s := s.modFabric fun x => { x with
        tstatus := mmod ⟨0, 0, 0⟩ x.tstatus tn (·.all (· ||| BitVec.ofNat 3 (2 ^ cls.num)))
        wdogExpiries := satAdd 64 x.wdogExpiries 1 }
      let s := s.modConducts fun k => { k with
        wdogLast := { valid := true, tn := tn, cls := cls, sn := sn, reason := 0 } }
      let s := (s.raiseFrom (idDelivery (tn / 64)) (0x101051 + cls.num)).mgmt 7
      if barrier then flushLeave tn .hung s else s
  | _, _ => answer s id

/-! ### The Shutter and the mask window -/

/-- The Shutter closed or opened at every Delivery island (R366, R368, R369). -/
def setShutter (closed : Bool) (s : State) : State := s.modFabric fun x => { x with shutter := closed }

/-- Every descriptor of the Delivery islands has been issued (R369). -/
def drained (s : State) : Bool :=
  [s.portA, s.portB].all fun p => p.out.all fun r =>
    match r with
    | .delivery _ _ _ _ _ _ => false
    | _ => true

/-- A mask or unmask from a port's SOURCE_MASK register (R372, R374). -/
def maskFromPort (port : Port) (sn : Nat) (m : Bool) (s : State) : State :=
  (setMask sn m s).modPort port fun p => { p with maskSn := sn, maskValid := true, maskAt := s.now }

end Sys2Proof.Machine
end

