-- ==== Sys2Proof/Machine/Queues.lean ====
section
/-!
DEFINITION. Work queues and rings (WQ): placement and the entry window, polling and the fetches of both
prefetch modes, taking, the completion in place, the queue states and what stops a queue.
-/

namespace Sys2Proof.Machine

open Sys2Proof

/-! ### Rings -/

/-- The next index of a ring (R409). -/
def Queue.succ (q : Queue) (i : Nat) : Nat := (i + 1) % q.size

/-- How far index `b` lies beyond index `a`. -/
def Queue.dist (q : Queue) (a b : Nat) : Nat := (b + q.size - a % q.size) % q.size

/-- ONCHIP_KIB as it counts: the bits below the ring's size in KiB are ignored (R403). -/
def onchipBase (sizeLog2 kib : Nat) : Nat := alignDown (kib % 2 ^ 12) (sizeLog2 - 4)

/-- The region offset of an entry of an on-chip ring (R403). -/
def Queue.ringOffset (q : Queue) (i : Nat) : Nat := 1024 * onchipBase q.sizeLog2 q.onchipKib + 64 * i

/-- The IOVA of an entry of a host ring (R402). -/
def Queue.entryIova (q : Queue) (i : Nat) : Nat := alignDown q.ringBase 6 + 64 * i

/-- Bytes stored in the on-chip ring region, each line touched becoming dirty (R404). -/
def writeRing (x : Nat) (bytes : List Byte) (s : State) : State :=
  { s with dur := { s.dur with ring := Memory.writeN s.dur.ring x bytes } }.touchIf
    (Memory.readN s.dur.ring x bytes.length != bytes) (ringLine x)

/-- QUEUE_PROD accepts a value (R411). -/
def prodAccepts (q : Queue) (v : Nat) : Bool :=
  decide (v < q.size) && decide (q.dist q.prod v ≤ (q.cons + 2 * q.size - q.prod - 1) % q.size)

/-- The queue holds no taken item and has no fetch outstanding (Table WQ-3). -/
def queueIdle (s : State) (q : Nat) : Bool := (s.queue q).items.isEmpty && (s.qvol q).fetches.isEmpty

/-- Two queues' on-chip rings overlap (R406). -/
def ringsOverlap (a b : Queue) : Bool :=
  a.onchip && b.onchip && decide (a.ringOffset 0 < b.ringOffset 0 + 64 * b.size) &&
    decide (b.ringOffset 0 < a.ringOffset 0 + 64 * a.size)

/-! ### Events and stops -/

/-- A bit of QUEUE_EVENT set in every copy, and the queue's event source raised (R438, R441, R444). -/
def queueEvent (q n : Nat) (s : State) : State :=
  (s.modQVol q fun v => { v with event := v.event.all (· ||| BitVec.ofNat 3 (2 ^ n)) }).raise
    (0x101100 + q)

/-- Every entry fetched and not taken is dropped; a read already passed on is discarded on arrival
(R422, R441). -/
def dropFetched (q : Nat) (s : State) : State :=
  s.modQVol q fun v => { v with
    window := []
    fetches := (v.fetches.filter Fetch.sent).map fun f => { f with dropped := true } }

/-- The end of a drain is announced once IDLE has become 1: not while a dropped read is still to return (R441, Table
WQ-3; DEDUCED, log entry 82). -/
def idleCheck (q : Nat) (s : State) : State :=
  if (s.qvol q).idleOwed && (s.qvol q).state == .disabled && queueIdle s q then
    let s := s.modQVol q fun v => { v with idleOwed := false }
    if (s.queue q).evtIdleEn then queueEvent q 2 s else s
  else s

/-- A drain that has ended (R441). -/
def drainEnd (q : Nat) (s : State) : State :=
  idleCheck q (s.modQVol q fun v => { v with state := .disabled, idleOwed := true })

/-- A draining queue without taken items is DISABLED (R441). -/
def drainCheck (q : Nat) (s : State) : State :=
  if (s.qvol q).state == .draining && (s.queue q).items.isEmpty then drainEnd q s else s

/-- The fetch window covers the 16 entries from TAKE on: what was fetched further ahead gives way to the entries that
TAKE has moved back to (WQ.4; DESIGN CHOICE, log entry 83). -/
def trimWindow (q : Nat) (s : State) : State :=
  let d := s.queue q
  let near := fun (slot : Nat) => decide (d.dist d.take slot < 16)
  s.modQVol q fun v => { v with
    window := v.window.filter fun f => near f.slot
    fetches := (v.fetches.filter fun f => near f.slot || f.sent).map fun f =>
      if near f.slot then f else { f with dropped := true } }

/-- Items not begun after the stopping one return to posted, and TAKE moves back to the first (R543). -/
def unbegun (q slot : Nat) (s : State) : State :=
  let d := s.queue q
  let after := (d.items.dropWhile (fun it => it.slot != slot)).drop 1
  match after.find? (fun it => it.step == 0 && it.ending.isNone) with
  | none => s
  | some first =>
    trimWindow q (s.modQueue q fun d => { d with
      items := d.items.takeWhile (fun it => it.slot != first.slot)
      take := first.slot })

/-- A fault stops a RUNNING queue (R444, R543). A draining queue drains on, a stopped one stays as it is. -/
def queueStop (q cause slot : Nat) (s : State) : State :=
  if (s.qvol q).state != .running then s
  else
    let s := unbegun q slot s
    let s := s.modQVol q fun v => { v with state := .stopped, stopIndex := slot, stopCause := cause }
    queueEvent q 1 s

/-! ### Fetches (WQ.4) -/

/-- An owned entry whose fetch faulted has reached TAKE of a RUNNING queue that may take (R547, R843): the record, and
the queue stops. -/
def checkHeadFault (q : Nat) (s : State) : State :=
  let d := s.queue q
  match (s.qvol q).window.find? (fun f => f.slot == d.take && f.owned) with
  | some { fault := some (code, level), .. } =>
    if (s.qvol q).state != .running || !takingOpen d then s
    else
      let s := reportFault { FaultRec.blank with
        type := code
        path := 1
        room := d.room
        iova := d.entryIova d.take
        level := level
        queue := some q
        index := d.take } s
      let s := s.modQVol q fun v => { v with window := v.window.filter fun f => f.slot != d.take }
      queueStop q 1 d.take s
  | _ => s

/-- A fetched entry enters the window. -/
def windowAdd (q : Nat) (f : Fetched) (s : State) : State :=
  s.modQVol q fun v => { v with window := v.window ++ [f] }

/-- The fetch of an entry met a fault: held with an owned entry (R843), counted for an unowned one
(R421). -/
def fetchFault (q slot : Nat) (owned : Bool) (code level : Nat) (s : State) : State :=
  if owned then
    checkHeadFault q (windowAdd q { slot := slot, owned := true, bytes := [], fault := some (code, level) } s)
  else
    s.modQVol q fun v => { v with
      specFaults := satAdd 64 v.specFaults 1
      specBlocked := insertNew v.specBlocked ((s.queue q).entryIova slot / 4096) }

/-- An entry's fetch is begun (R398, R399, R405, R418, R419, R448). -/
def fetchSlot (q slot : Nat) (owned : Bool) (s : State) : State :=
  let d := s.queue q
  if d.onchip then
    windowAdd q { slot := slot, owned := owned, bytes := Memory.readN s.dur.ring (d.ringOffset slot) 64, fault := none } s
  else if !(s.port d.port).canIssue then s
  else if !owned && decide (d.entryIova slot / 4096 ∈ (s.qvol q).specBlocked) then s
  else
    let outstanding := fun (sent : Bool) (s : State) => s.modQVol q fun v => { v with
      fetches := v.fetches ++ [{ slot := slot, owned := owned, sent := sent, dropped := false, readAt := none }] }
    match translate { room := d.room, iova := d.entryIova slot, write := false,
                      use := .ringFetch q slot owned } 64 s with
    | (s, .hit a) => (outstanding true s).passToLink d.port (.ringFetch q slot a)
    | (s, .walking) => outstanding false s
    | (s, .fault code level) => fetchFault q slot owned code level s

/-- The entry is fetched, or its fetch is outstanding. -/
def inWindow (s : State) (q slot : Nat) : Bool :=
  let v := s.qvol q
  v.window.any (fun f => f.slot == slot) || v.fetches.any (fun f => f.slot == slot && !f.dropped)

/-- Entries fetched and not taken (WQ.4): a window of 16. -/
def windowUsed (s : State) (q : Nat) : Nat :=
  let v := s.qvol q
  v.window.length + (v.fetches.filter (fun f => !f.dropped)).length

/-- The entry at `base + k` is fetched if the window has room and it is not there yet. -/
def fetchAt (q base : Nat) (owned : Bool) (s : State) (k : Nat) : State :=
  let slot := (base + k) % (s.queue q).size
  if (s.qvol q).state != .running || inWindow s q slot || decide (16 ≤ windowUsed s q) then s
  else fetchSlot q slot owned s

/-- The engine fetches what the last sample covers, and in mode S up to eight entries beyond it (R415,
R418, R419). -/
def fetchMore (q : Nat) (s : State) : State :=
  let d := s.queue q
  let v := s.qvol q
  let covered := min 16 (d.dist d.take v.sampled)
  let s := (List.range covered).foldl (fetchAt q d.take true) s
  if d.modeC then s
  else
    let free := (d.cons + 2 * d.size - v.sampled - 1) % d.size
    (List.range (min 8 free)).foldl (fetchAt q v.sampled false) s

/-- The slot is covered by the last PROD sample. -/
def covers (q : Queue) (sampled slot : Nat) : Bool := decide (q.dist q.take slot < q.dist q.take sampled)

/-- PROD is sampled (R415, R420, R421): what was fetched unowned and is now covered is fetched again. -/
def sampleProd (q : Nat) (s : State) : State :=
  let d := s.queue q
  let s := s.modQVol q fun v =>
    let again := (v.window.filter fun f => !f.owned && covers d d.prod f.slot).length +
      (v.fetches.filter fun f => !f.owned && !f.dropped && covers d d.prod f.slot).length
    { v with
      sampled := d.prod
      lastTick := s.now
      window := v.window.filter fun f => f.owned || !covers d d.prod f.slot
      fetches := (v.fetches.filter fun f => f.owned || f.dropped || f.sent ||
          !covers d d.prod f.slot).map fun f =>
        if !f.owned && covers d d.prod f.slot then { f with dropped := true } else f
      refetches := satAdd 64 v.refetches again
      specBlocked := v.specBlocked.filter fun page =>
        !(List.range (d.dist d.take d.prod)).any fun k =>
          d.entryIova ((d.take + k) % d.size) / 4096 == page }
  checkHeadFault q (fetchMore q s)

/-- POLL_TICK: a RUNNING queue's next poll tick (R415, R448, R675). -/
def execPollTick (q : Fin 256) (s : State) : Host.Outcome State Fault Refusal :=
  answer s <| onIslands [idQueue (q / 16)] fun s =>
    if (s.qvol q).state != .running then s
    else sampleProd q (s.elapseTo ((s.qvol q).lastTick + 8 * (s.queue q).interval))

/-- A ring-entry read stands unissued in the Link island. -/
def ringReadWaits (s : State) (q slot : Nat) : Nat :=
  ((s.port (s.queue q).port).out.filter fun r =>
    match r with
    | .ringFetch k i _ => k == q && i == slot
    | _ => false).length

/-- A ring-entry read that was issued has ended (R418, R420, R421, R422, R843). -/
def fetchReturns (q slot : Nat) (result : HostRead) (s : State) : State :=
  let v := s.qvol q
  let sent := v.fetches.filter fun f => f.slot == slot && f.sent
  if sent.length ≤ ringReadWaits s q slot then s
  else
    match takeFirst (fun f => f.slot == slot && f.sent) v.fetches with
    | none => s
    | some (f, rest) =>
      let s := s.modQVol q fun v => { v with fetches := rest }
      if f.dropped then idleCheck q s
      else
        match result with
        | .data bytes =>
          windowAdd q { slot := slot, owned := f.owned, bytes := bytesAt bytes 0 64, fault := none } s
        | _ => fetchFault q slot f.owned fHostError 0xFF s

/-- The end of a ring fetch reaches its Queue island. -/
def fetchArrives (q : Fin 256) (slot : Nat) (result : HostRead) (s : State) : State :=
  readArrives (s.queue q).port (.hostRead (.ringFetch q slot) result) [idQueue (q / 16)] (fetchReturns q slot result) s

/-- RING_FETCH_COMPLETE (R418). -/
def execRingFetchComplete (q : Fin 256) (slot : Nat) (result : HostRead) (s : State) :
    Host.Outcome State Fault Refusal :=
  answer s (fetchArrives q slot result)

/-- The translation of a ring fetch has ended. -/
def ringFetchResume (q slot : Nat) (owned : Bool) (x : Xlated) (s : State) : State :=
  let v := s.qvol q
  let mine := fun (f : Fetch) => f.slot == slot && f.owned == owned && !f.sent && !f.dropped
  match takeFirst mine v.fetches with
  | none => s
  | some (f, rest) =>
    match x with
    | .hit a =>
      (s.modQVol q fun v => { v with fetches := rest ++ [{ f with sent := true }] }).passToLink
        (s.queue q).port (.ringFetch q slot a)
    | .fault code level =>
      fetchFault q slot owned code level (s.modQVol q fun v => { v with fetches := rest })
    | .walking => s

/-! ### Taking (WQ.5) -/

/-- A taken item as it starts: `pieces` marks the Ledger stream as it stood when it was taken (R497). -/
def Item.taken (slot : Nat) (entry : List Byte) (mark : Nat) : Item :=
  { slot := slot, entry := entry, step := 0, issued := false, wait := .nothing, pos := 0, count := 0,
    applied := 0, refused := 0, lastSn := none, data := [], pieces := mark, clamped := false,
    denied := false, ending := none, held := false, recovered := false, short := false }

/-- The entry at TAKE is taken (R410, R426, R428). -/
def takeEntry (q : Nat) (s : State) : State :=
  let d := s.queue q
  match (s.qvol q).window.find? (fun f => f.slot == d.take && f.owned) with
  | none => s
  | some f =>
    let s := s.modQueue q fun d => { d with
      items := d.items ++ [Item.taken f.slot f.bytes s.ledger.nextPiece]
      take := d.succ d.take }
    let s := s.modQVol q fun v => { v with window := v.window.filter fun g => g.slot != f.slot }
    checkHeadFault q (fetchMore q s)

/-! ### Completion in place (WQ.6) -/

/-- An item of a queue changed. -/
def State.modItem (s : State) (q slot : Nat) (f : Item → Item) : State :=
  s.modQueue q fun d => { d with items := d.items.map fun it => if it.slot == slot then f it else it }

/-- Pieces of an append not yet acknowledged (R493). -/
def appendPieces (s : State) (q slot : Nat) : Bool :=
  (s.ledger.stream ++ s.ledger.inbox).any fun p => p.append == some (q, slot)

/-- Raises of a multicast not yet applied at their banks (R464). -/
def raisesWaiting (s : State) (q slot : Nat) : Bool :=
  (s.fabric.updateQ ++ s.fabric.gatherQ ++ s.fabric.submitHeld).any fun p => p.2.any fun e =>
    match e.body with
    | .ipi _ k i => k == q && i == slot
    | _ => false

/-- OK or OK_CLAMPED (Table WI-2). -/
def okCode (clamped : Bool) : Nat := if clamped then 2 else 1

/-- The number of a kind's completion step (Table WI-1). -/
def completionStep (kind : Nat) : Nat :=
  if kind == 1 || kind == 8 || kind == 9 || kind == 11 then 3
  else if kind == 3 || kind == 6 then 4
  else 2

/-- RESULT of an IPI_MULTICAST, of a ROUTE_BATCH or ROOM_REASSIGN. -/
def multicastResult (it : Item) : List Byte := leBytes 2 it.applied ++ leBytes 2 it.refused ++ leBytes 4 0
def countsResult (it : Item) : List Byte := leBytes 4 it.applied ++ leBytes 4 it.refused

/-- How an item has ended, once it has: what it recorded, or what its last wait now allows (R464, R494,
R496, R497). -/
def itemEnding (s : State) (q : Nat) (it : Item) : Option Ending :=
  match it.ending with
  | some e => some e
  | none =>
    match it.wait with
    | .raises =>
      if raisesWaiting s q it.slot then none
      else
        some { code := if it.refused ≠ 0 then 0x13 else okCode it.clamped
               result := multicastResult it
               step := 3 }
    | .pieces =>
      if it.kind == 6 then
        if appendPieces s q it.slot then none
        else if it.denied then
          some { code := 0x11, result := leBytes 4 (appendOffset it) ++ leBytes 4 0, step := 4 }
        else
          some { code := okCode it.clamped
                 result := leBytes 4 (appendOffset it + appendLength it) ++ leBytes 4 0
                 step := 4 }
      else if fencePieces s (s.queue q).port it.pieces then none
      else some { code := if it.denied then 0x11 else 1, result := leBytes 8 0, step := 2 }
    | _ => none

/-- A completion image (R434, Table WQ-1). -/
def completionBytes (it : Item) (e : Ending) : List Byte :=
  bytesAt it.entry 0 4 ++ [BitVec.ofNat 8 e.code, BitVec.ofNat 8 e.step, 0, 0] ++
    bytesAt e.result 0 8 ++ bytesAt it.entry 16 48

/-- The append announces itself when its completion has been passed (R495): not one whose checks failed,
that has no length, or whose kind names nothing. -/
def appendRaises (it : Item) (e : Ending) : Bool :=
  it.kind == 6 && bit it.flags 3 && decide (appendLength it ≠ 0) &&
    decide (e.code ∉ [3, 0x10, 0x11, 0x12])

/-- The first item's completion has been written: CONS advances, its raises are made (R436, R438, R495),
and a drain may end. -/
def finishCompletion (q : Nat) (it : Item) (e : Ending) (s : State) : State :=
  let s := s.modQueue q fun d => { d with items := d.items.drop 1, cons := d.succ d.cons }
  let s := s.modQVol q fun v => { v with itemsDone := satAdd 64 v.itemsDone 1 }
  let s := if appendRaises it e then s.raise (0x101300 + fieldAt it.entry 22 1) else s
  let s := if bit it.flags 0 then queueEvent q 0 s else s
  checkHeadFault q (drainCheck q s)

/-- The Fault Ledger record of a queue's completion (R544, R548, Table TF-11). -/
def completionRecord (q : Nat) (d : Queue) (it : Item) (e : Ending) (code level : Nat) : FaultRec :=
  { FaultRec.blank with
    type := code
    path := 3
    room := d.room
    iova := d.entryIova it.slot
    level := level
    queue := some q
    index := it.slot
    step := e.step
    image := bytesAt (completionBytes it e) 4 12
    tag := it.tag
    kind := it.kind }

/-- A completion that cannot be written: held by a RUNNING or STOPPED queue (R544), abandoned by a
draining one (R548). -/
def completionFault (q : Nat) (it : Item) (e : Ending) (code level : Nat) (s : State) : State :=
  let d := s.queue q
  let r := completionRecord q d it e code level
  if (s.qvol q).state == .draining then
    finishCompletion q it e (reportFault { r with abandoned := true } s)
  else
    let s := reportFault { r with held := true } s
    let s := s.modItem q it.slot fun it =>
      { it with held := true, ending := some e, issued := true, wait := .nothing }
    let s := queueStop q 2 it.slot s
    s.modQVol q fun v => { v with stopIndex := it.slot, stopCause := 2 }

/-- A completion is written: in the on-chip ring, or by a posted write through the queue's port once its
address is translated (R434, R436, R448). -/
def writeCompletion (q : Nat) (it : Item) (e : Ending) (s : State) : State :=
  let d := s.queue q
  let bytes := completionBytes it e
  if d.onchip then finishCompletion q it e (writeRing (d.ringOffset it.slot) bytes s)
  else if !(s.port d.port).canIssue then
    if (s.qvol q).state == .draining then completionFault q it e fNotIssued 0xFF s else s
  else
    match translate { room := d.room, iova := d.entryIova it.slot, write := true,
                      use := .completion q it.slot } 64 s with
    | (s, .hit a) =>
      finishCompletion q it e (s.passToLink d.port
        (.completion q it.slot e.step it.tag it.kind (d.entryIova it.slot) a bytes))
    | (s, .walking) =>
      s.modItem q it.slot fun it => { it with ending := some e, issued := true, wait := .write }
    | (s, .fault code level) => completionFault q it e code level s

/-- COMPLETION_WRITE: the completion of a queue's first taken item, once it has ended (R434, R435,
R545). -/
def completionStepOf (q : Nat) (s : State) : State :=
  match (s.queue q).items with
  | [] => s
  | it :: _ =>
    let st := (s.qvol q).state
    if st == .disabled || (it.held && st == .stopped) || it.wait == .write then s
    else
      match itemEnding s q it with
      | some e => writeCompletion q it e s
      | none => s

/-- COMPLETION_WRITE (R434). -/
def execCompletionWrite (q : Fin 256) (s : State) : Host.Outcome State Fault Refusal :=
  answer s <| onIslands [idQueue (q / 16)] (guarded (completionStepOf q))

/-- The translation of a completion write has ended. -/
def completionResume (q slot : Nat) (x : Xlated) (s : State) : State :=
  let d := s.queue q
  match d.items with
  | [] => s
  | it :: _ =>
    match it.ending with
    | none => s
    | some e =>
      if it.slot != slot || it.wait != .write then s
      else
        let s := s.modItem q slot fun it => { it with wait := .nothing }
        let it := { it with wait := ItemWait.nothing }
        match x with
        | .hit a =>
          if !(s.port d.port).canIssue then
            if (s.qvol q).state == .draining then completionFault q it e fNotIssued 0xFF s else s
          else
            finishCompletion q it e (s.passToLink d.port
              (.completion q slot e.step it.tag it.kind (d.entryIova slot) a (completionBytes it e)))
        | .fault code level => completionFault q it e code level s
        | .walking => s

/-! ### The register block -/

/-- An ENABLE write of 0 (R441). -/
def queueDisable (q : Nat) (s : State) : State :=
  if (s.qvol q).state == .disabled then
    if (s.queue q).items.isEmpty then drainEnd q s else s
  else
    drainCheck q ((dropFetched q s).modQVol q fun v => { v with state := .draining })

/-- QUEUE_CONFIG applied (R401, R403, R443). -/
def setQueueConfig (q v : Nat) (s : State) : State :=
  let d := s.queue q
  let size := clamp 4 16 (bits v 4 0)
  let onchip := bit v 6
  let kib := onchipBase size (bits v 23 12)
  let zero := d.sizeLog2 != size || d.onchip != onchip || d.onchipKib != kib
  s.modQueue q fun d => { d with
    sizeLog2 := size
    modeC := bit v 5
    onchip := onchip
    port := Port.at (bits v 7 7)
    room := bits v 11 8
    onchipKib := kib
    prod := if zero then 0 else d.prod
    cons := if zero then 0 else d.cons
    take := if zero then 0 else d.take }

/-- The value of QUEUE_CONFIG (Table WQ-5). -/
def queueConfigWord (d : Queue) : Nat :=
  d.sizeLog2 + 2 ^ 5 * b2n d.modeC + 2 ^ 6 * b2n d.onchip + 2 ^ 7 * d.port.num + 2 ^ 8 * d.room +
    2 ^ 12 * d.onchipKib

/-- INVALIDATE (R422). -/
def queueInvalidate (q : Nat) (s : State) : State :=
  (dropFetched q s).modQVol q fun v => { v with invalIndex := (s.queue q).take, invalValid := true }

/-- RESUME (R445, R547): without effect unless STOPPED. Taking waits for the held completion and for those that ended
behind it (R545); a fault held with the entry at TAKE stops the queue again (R843). -/
def queueResume (q : Nat) (s : State) : State :=
  if (s.qvol q).state != .stopped then s
  else
    let behind := (s.queue q).items.any Item.held
    let s := s.modQueue q fun d => { d with items := d.items.map fun it =>
      { it with held := it.held || (behind && (itemEnding s q it).isSome) } }
    checkHeadFault q (s.modQVol q fun v => { v with state := .running })

/-- RETRACT (R446). -/
def queueRetract (q : Nat) (s : State) : State :=
  (dropFetched q s).modQueue q fun d => { d with prod := d.take }

/-- ZERO_INDEX (R446). -/
def queueZeroIndex (q : Nat) (s : State) : State :=
  s.modQueue q fun d => { d with prod := 0, cons := 0, take := 0 }

/-- The action is refused now (R446). -/
def actionRefused (s : State) (q : Nat) (retract zero : Bool) : Bool :=
  (retract && (s.qvol q).state != .disabled) ||
    (zero && !((s.qvol q).state == .disabled && queueIdle s q))

/-- A QUEUE_ACTION write that no refusal stops. -/
def queueActions (q v : Nat) (s : State) : State :=
  let s := if bit v 0 then queueInvalidate q s else s
  let s := if bit v 1 then queueResume q s else s
  let s := if bit v 2 then queueRetract q s else s
  if bit v 3 then queueZeroIndex q s else s

/-- A word staged in a port's entry window; window 15 commits the entry (R407). -/
def windowWrite (port : Port) (q n : Nat) (v : Word) (s : State) : State :=
  let s := s.modQVol q fun x => { x with staging := x.staging.set port (setAt (x.staging.get port) n v) }
  if n != 15 then s
  else
    let d := s.queue q
    let slot := (s.qvol q).entrySlot.get port
    let bytes := ((s.qvol q).staging.get port).flatMap fun w => leBytes 4 w.toNat
    (writeRing (d.ringOffset slot) bytes s).modQVol q fun x =>
      { x with entrySlot := x.entrySlot.set port (d.succ slot) }

/-- A read of a port's entry window: window 0 takes the snapshot (R408). -/
def windowRead (port : Port) (q n : Nat) (s : State) : State × Word :=
  let s :=
    if n != 0 then s
    else
      let d := s.queue q
      let bytes := Memory.readN s.dur.ring (d.ringOffset ((s.qvol q).entrySlot.get port)) 64
      let words := (List.range 16).map fun k => BitVec.ofNat 32 (fieldAt bytes (4 * k) 4)
      s.modQVol q fun x => { x with latch := x.latch.set port words }
  (s, ((s.qvol q).latch.get port).getD n 0)

end Sys2Proof.Machine
end

