-- ==== Sys2Proof/Machine/Ledger.lean ====
section
/-!
DEFINITION. The durable Ledger (LG): BAR4 writes and reads, the ports' streams of pieces, persistence and
its acknowledgements, the copy to host memory, and the moves of pages.
-/

namespace Sys2Proof.Machine

open Sys2Proof

/-! ### Structure (LG.1) -/

/-- The Ledger island of a line (R56, R557). -/
def ledgerIsland (line : Nat) : Nat := line / 64 % 4

/-- A link reaches every segment of an access (R559). -/
def reachesSegments (s : State) (port : Port) (offset len : Nat) : Bool :=
  (segmentsOf offset len).all fun g => s.linkReaches port (s.segRoom g)

/-! ### The stream of pieces (R562, R568, R570) -/

/-- The Ledger changed. -/
def State.modLedger (s : State) (f : Ledger → Ledger) : State := { s with ledger := f s.ledger }

/-- The part of an access that one line holds: its bytes at their places in the line, with enables. -/
def linePart (offset : Nat) (data : List Byte) (enables : List Bool) (line : Nat) : List Byte × List Bool :=
  let at' := fun i => 64 * line + i
  ((List.range 64).map fun i => if offset ≤ at' i then data.getD (at' i - offset) 0 else 0,
   (List.range 64).map fun i => if offset ≤ at' i then enables.getD (at' i - offset) false else false)

/-- The lines that bytes from an offset on touch. -/
def linesOf (offset len : Nat) : List Nat :=
  if len = 0 then [] else (List.range ((offset + len - 1) / 64 + 1 - offset / 64)).map (· + offset / 64)

/-- The pieces of a write, one for each line in which it holds an enabled byte (R562, R576). -/
def piecesOf (first : Nat) (port : Port) (offset : Nat) (data : List Byte) (enables : List Bool)
    (append : Option (Nat × Nat)) : List Piece :=
  let parts := (linesOf offset data.length).map fun l => (l, linePart offset data enables l)
  ((parts.filter fun p => p.2.2.any id).zipIdx).map fun (p, k) =>
    { id := first + k, write := first, port := port, line := p.1, data := p.2.1, enables := p.2.2, append := append,
      old := [], oldBad := false }

/-- A piece takes effect (R563): a line that is uncorrectable takes only a piece of all its bytes
(R566). -/
def applyPiece (p : Piece) (l : Ledger) : Ledger :=
  if decide (p.line ∈ l.bad) then
    if p.enables.all id then
      { l with
        mem := Memory.writeMasked l.mem (64 * p.line) p.data p.enables
        bad := l.bad.filter (· != p.line) }
    else l
  else { l with mem := Memory.writeMasked l.mem (64 * p.line) p.data p.enables }

/-- Pieces of a port in a Ledger island's inbound FIFO and not yet persistent. -/
def inboxUsed (l : Ledger) (port : Port) (island : Nat) : Nat :=
  (l.inbox.filter fun p => p.port == port && ledgerIsland p.line == island).length

/-- The stream's next piece may enter its island: both islands' clocks run, neither is halted, the channel
has room (R44, R570, R743). -/
def pieceMayEnter (s : State) (p : Piece) : Bool :=
  s.running && s.clocked (idLink p.port) && s.clocked (idLedger (ledgerIsland p.line)) &&
    decide (inboxUsed s.ledger p.port (ledgerIsland p.line) < 32)

/-- The pieces of one port enter their islands in stream order, as far as they may (R568). -/
def flowPort (port : Port) : Nat → State → State
  | 0, s => s
  | n + 1, s =>
    match takeFirst (fun p => p.port == port) s.ledger.stream with
    | none => s
    | some (p, rest) =>
      if pieceMayEnter s p then
        flowPort port n ((s.wakeUp (idLedger (ledgerIsland p.line))).modLedger fun l =>
          applyPiece p { l with
            stream := rest
            inbox := l.inbox ++ [{ p with
              old := Memory.readN l.mem (64 * p.line) 64, oldBad := decide (p.line ∈ l.bad) }] })
      else s

/-! ### BAR4 (LG.2) -/

/-- A read of BAR4 completes with its lines' bytes, poisoned where one is uncorrectable (R564, R566); with zeros where
its island is halted (LG.11). -/
def finishRead (port : Port) (offset length : Nat) (s : State) : State :=
  let island := offset / 4096 % 4
  if decide (idLedger island ∈ s.dap.halted) then
    (s.conductBit port.req 4).emit (.readBytes port (List.replicate length (0 : Byte)) false)
  else
    let s := s.wakeUp (idLedger island)
    let poisoned := (linesOf offset length).any fun l => decide (l ∈ s.ledger.bad)
    let s :=
      if poisoned then
        s.modLedger fun l => { l with
          uncorrectable := mmod 0 l.uncorrectable island (satAdd 64 · 1)
          status := l.status.all (· ||| 4) }
      else s
    s.emit (.readBytes port (Memory.readN s.ledger.mem offset length) poisoned)

/-- A waiting read of BAR4 may complete: its islands' clocks run, and every earlier write of its port has taken effect
for the bytes it returns (R564); at a halted island nothing holds it. -/
def readMayEnd (s : State) (r : Port × Nat × Nat × Nat) : Bool :=
  let (port, offset, length, mark) := r
  let i := idLedger (offset / 4096 % 4)
  decide (i ∈ s.dap.halted) ||
    (s.running && s.clocked (idLink port) && s.clocked i &&
      !s.ledger.stream.any fun p => p.port == port && decide (p.id < mark) && decide (p.line ∈ linesOf offset length))

/-- The waiting reads of BAR4 that may complete do so, in the order of their arrival. -/
def readsDone (s : State) : State :=
  s.ledger.reads.foldl
    (fun s (r : Port × Nat × Nat × Nat) =>
      if readMayEnd s r then finishRead r.1 r.2.1 r.2.2.1 (s.modLedger fun l => { l with reads := l.reads.erase r })
      else s) s

/-- Both ports' streams flow, and the reads that waited behind them complete. -/
def ledgerFlow (s : State) : State :=
  readsDone (flowPort .b s.ledger.stream.length (flowPort .a s.ledger.stream.length s))

/-- Pieces join a port's stream (R568). -/
def enterStream (ps : List Piece) (s : State) : State :=
  ledgerFlow (s.modLedger fun l =>
    { l with stream := l.stream ++ ps, nextPiece := l.nextPiece + ps.length })

/-- A BAR4 write is discarded and counted (R559, R567, R588, R724). -/
def dropBar4 (port : Port) (notReady : Bool) (s : State) : State :=
  s.modLedger fun l =>
    if notReady then { l with notReady := l.notReady.set port (satAdd 64 (l.notReady.get port) 1) }
    else { l with
      denied := l.denied.set port (satAdd 64 (l.denied.get port) 1)
      dropped := l.dropped.all (· ||| BitVec.ofNat 2 (2 ^ port.num)) }

/-- BAR4_WRITE (R562). -/
def execBar4Write (port : Port) (write : HostWrite) (s : State) : Host.Outcome State Fault Refusal :=
  answer s fun s =>
    let len := write.data.length
    if !s.powered || !(s.port port).linkUp || !write.enables.any id || decide (2 ^ 26 < write.offset + len)
    then s
    else if !s.keeper.rdy then dropBar4 port true s
    else if stagingFull s port then s
    else if s.ledger.closed || !reachesSegments s port write.offset len then dropBar4 port false s
    else enterStream (piecesOf s.ledger.nextPiece port write.offset write.data write.enables none) s

/-- BAR4_READ: data, zero, or poisoned data, at once or when the writes before it have taken effect (R559, R564, R566,
R588, R724, LG.11). -/
def execBar4Read (port : Port) (offset length : Nat) (s : State) : Host.Outcome State Fault Refusal :=
  answer s fun s =>
    let zeros := List.replicate length (0 : Byte)
    if !s.powered || !(s.port port).linkUp then s
    else if decide (2 ^ 26 < offset + length) then s.emit (.unsupportedRequest port)
    else if !s.keeper.rdy || s.ledger.closed || !reachesSegments s port offset length then
      s.emit (.readBytes port zeros false)
    else ledgerFlow (s.modLedger fun l => { l with reads := l.reads ++ [(port, offset, length, l.nextPiece)] })

/-! ### Persistence (LG.3) -/

/-- Pieces of a port's stream before a mark that are not yet persistent. -/
def portPieces (s : State) (port : Port) (mark : Nat) : Bool :=
  (s.ledger.stream ++ s.ledger.inbox).any fun p => p.port == port && decide (p.id < mark)

/-- A LEDGER_FENCE read completes, with DONE and the requester's DROPPED bits, which it clears (Table
LG-4). -/
def finishFence (r : Reader) (done : Bool) (s : State) : State :=
  let d := s.ledger.dropped.get r.port.req
  (s.modLedger fun l => { l with dropped := l.dropped.set r.port.req 0 }).answerRead r
    (BitVec.ofNat 32 (b2n done + 2 * d.toNat))

/-- The waiting fence reads whose pieces are all persistent complete (R574). -/
def fenceReadsDone (s : State) : State :=
  s.ledger.fenceReads.foldl
    (fun s (r : Reader × Nat) =>
      if portPieces s r.1.port r.2 then s
      else
        finishFence r.1 true (s.modLedger fun l => { l with fenceReads := l.fenceReads.erase r })) s

/-- RDY reads 0: waiting fence reads complete with DONE 0 (R574, R98), waiting reads of BAR4 with zeros (R588). -/
def failLedgerReads (s : State) : State :=
  let s := s.ledger.fenceReads.foldl
    (fun s (r : Reader × Nat) => (s.conductBit r.1.port.req 3).answerRead r.1 0) s
  let s := s.ledger.reads.foldl
    (fun s (r : Port × Nat × Nat × Nat) => s.emit (.readBytes r.1 (List.replicate r.2.2.1 (0 : Byte)) false)) s
  s.modLedger fun l => { l with fenceReads := [], reads := [] }

/-- A read of LEDGER_FENCE (R574). -/
def fenceRead (r : Reader) (s : State) : State :=
  let ids := [idLedger 0, idLedger 1, idLedger 2, idLedger 3]
  hostAccess r.port (.read .bar0 0x7000 r.first r.count) false ids (fun s => s.answerRead r 0)
    (fun s =>
      let s := ledgerFlow (s.modLedger fun l => { l with
        fenceCount := l.fenceCount.set r.port (satAdd 64 (l.fenceCount.get r.port) 1) })
      fenceReadsDone (s.modLedger fun l => { l with fenceReads := l.fenceReads ++ [(r, l.nextPiece)] })) s

/-- LEDGER_FENCE_READ (R574). -/
def execLedgerFenceRead (port : Port) (s : State) : Host.Outcome State Fault Refusal :=
  answer s (fenceRead (Reader.whole port))

/-! ### Wear (LG.8) -/

/-- The physical page of an island's logical page (R590). -/
def physicalPage (l : Ledger) (island logical : Nat) : Nat :=
  mget logical l.pageMap (4096 * island + logical)

/-- Line writes a physical page has taken. -/
def pageTaken (l : Ledger) (island physical : Nat) : Nat := mget 0 l.pageWrites (4352 * island + physical)

/-- Line writes an island has taken. -/
def islandWrites (l : Ledger) (island : Nat) : Nat :=
  l.pageWrites.foldl (fun n p => if p.1 / 4352 == island then n + p.2 else n) 0

/-- Spare physical pages left in an island (Table LG-3). -/
def sparePages (l : Ledger) (island : Nat) : Nat := mget 256 l.spares island

/-- LedgerLife of an island. -/
def ledgerLife (l : Ledger) (island : Nat) : Nat := min 100 (Config.ledgerLife island (islandWrites l island))

/-- An island runs short of spare pages or of endurance (R593). -/
def wearLow (l : Ledger) (island : Nat) : Bool := decide (sparePages l island < 16) || decide (ledgerLife l island < 10)

/-- A change of an island's pages; WEAR_LOW is set when it makes the island run short (R593). -/
def wearing (island : Nat) (f : Ledger → Ledger) (l : Ledger) : Ledger :=
  let l' := f l
  if wearLow l' island && !wearLow l island then { l' with status := l'.status.all (· ||| 2) } else l'

/-! ### Persistence of a piece -/

/-- A line is copied to host memory (R579). -/
def isCopied (s : State) (line : Nat) : Bool :=
  let h := s.dur.g.hostMirror
  let seg := line / 2 ^ 14
  h.enable && decide (h.first ≤ seg) && decide (seg < h.first + h.count) && s.segRoom seg == h.room

/-- A piece has become persistent: it is counted, its line is backlogged for the copy (R580), its
physical page takes a line write (R590). -/
def persisted (p : Piece) (s : State) : State :=
  let copied := isCopied s p.line
  let island := ledgerIsland p.line
  s.modLedger <| wearing island fun l => { l with
    persisted := l.persisted.set p.port (satAdd 64 (l.persisted.get p.port) 1)
    backlog := if copied then insertSorted p.line l.backlog else l.backlog
    pageWrites := mmod 0 l.pageWrites (4352 * island + physicalPage l island (p.line / 256)) (· + 1) }

/-- The oldest piece of a Ledger island becomes persistent (R570). -/
def persistStep (island : Nat) (s : State) : State :=
  match takeFirst (fun p => ledgerIsland p.line == island) s.ledger.inbox with
  | none => s
  | some (p, rest) =>
    fenceReadsDone (ledgerFlow (persisted p (s.modLedger fun l => { l with inbox := rest })))

/-- PIECE_PERSIST (R571). -/
def execPiecePersist (island : Fin 4) (s : State) : Host.Outcome State Fault Refusal :=
  answer s <| onIslands [idLedger island] (persistStep island)

/-- Every piece in a Ledger island whose clock holds lock becomes persistent at once (R83, R586). -/
def persistAll (s : State) : State :=
  let runs := fun (p : Piece) => mget 0 s.power.lockLost (idLedger (ledgerIsland p.line)) == 0
  let ps := s.ledger.inbox.filter runs
  ps.foldl (fun s p => persisted p s) (s.modLedger fun l => { l with inbox := l.inbox.filter fun p => !runs p })

/-- The BAR4 writes of a port of which a piece still waits in its stream. -/
def writesWaiting (l : Ledger) (port : Port) : Nat :=
  ((l.stream.filter fun p => p.port == port && p.append.isNone).foldl (fun ns p => insertSorted p.write ns) []).length

/-- The pieces that have not entered a Ledger island are discarded (R586); their BAR4 writes are counted (R567, R588). -/
def dropStreams (s : State) : State :=
  s.modLedger fun l => { l with
    stream := []
    notReady := ⟨satAdd 64 l.notReady.a (writesWaiting l .a), satAdd 64 l.notReady.b (writesWaiting l .b)⟩ }

/-- A line as it was before a piece entered its island. -/
def undoPiece (p : Piece) (l : Ledger) : Ledger :=
  { l with
    mem := Memory.writeN l.mem (64 * p.line) p.old
    bad := if p.oldBad then insertSorted p.line l.bad else l.bad.filter (· != p.line) }

/-- The pieces that a Ledger island without its clock still held when the core stopped: each is kept whole or not at
all, which of the two is a free value (R83, log entry 48). -/
def settleUnlocked (s : State) : State :=
  let ps := s.ledger.inbox
  let s := s.modLedger fun l => { ps.reverse.foldl (fun l p => undoPiece p l) l with inbox := [] }
  ps.foldl
    (fun s p =>
      (if Config.freeNat s.free % 2 = 1 then persisted p (s.modLedger (applyPiece p)) else s).draw) s

/-! ### Copy to host memory (LG.6) -/

/-- The IOVA of a copied line (R579). -/
def copyIova (h : HostMirror) (line : Nat) : Nat :=
  alignDown h.base 12 + 64 * line - h.first * 2 ^ 20

/-- The copy of a line is passed to the Link island (R580). -/
def passCopy (island line addr : Nat) (s : State) : State :=
  let bytes := Memory.readN s.ledger.mem (64 * line) 64
  (s.modLedger fun l => { l with
    backlog := l.backlog.filter (· != line)
    copying := l.copying.filter (· != line) }).passToLink s.dur.g.hostMirror.port
      (.ledgerCopy island line addr bytes)

/-- A copy write faulted (R582). -/
def copyFault (line code level : Nat) (s : State) : State :=
  let h := s.dur.g.hostMirror
  let s := reportFault { FaultRec.blank with
    type := code
    path := 7
    room := h.room
    iova := copyIova h line
    level := level } s
  let s := (s.modG fun g => { g with hostMirror := { g.hostMirror with enable := false } }).touch
    (objectLine 600)
  s.modLedger fun l => { l with
    copying := l.copying.filter (· != line)
    status := l.status.all (· ||| 1) }

/-- LEDGER_COPY: the lowest backlogged line of an island is copied (R579, R580, R583). A line that reads
with an uncorrectable error is passed over. -/
def execLedgerCopy (island : Fin 4) (s : State) : Host.Outcome State Fault Refusal :=
  answer s <| onIslands [idLedger island] fun s =>
    let h := s.dur.g.hostMirror
    if !h.enable || !(s.port h.port).canIssue then s
    else
      match s.ledger.backlog.find? fun l =>
          ledgerIsland l == island.val && isCopied s l && decide (l ∉ s.ledger.bad) with
      | none => s
      | some line =>
        if decide (line ∈ s.ledger.copying) then s
        else
          match translate { room := h.room, iova := copyIova h line, write := true,
                            use := .ledgerCopy island line } 64 s with
          | (s, .hit a) => passCopy island line a s
          | (s, .walking) => s.modLedger fun l => { l with copying := insertSorted line l.copying }
          | (s, .fault code level) => copyFault line code level s

/-- The translation of a copy has ended. While its port may not issue, the line stays backlogged and no fault is
recorded (R583). -/
def copyResume (island line room iova : Nat) (x : Xlated) (s : State) : State :=
  let h := s.dur.g.hostMirror
  if decide (line ∉ s.ledger.copying) then s
  else if !h.enable || h.room != room || copyIova h line != iova || !(s.port h.port).canIssue then
    s.modLedger fun l => { l with copying := l.copying.filter (· != line) }
  else
    match x with
    | .hit a => passCopy island line a s
    | .fault code level => copyFault line code level s
    | .walking => s

/-- LedgerHostMirror written (R579, Table LG-5). -/
def setHostMirror (h : HostMirror) (s : State) : State :=
  let h := { h with count := min h.count (64 - h.first), base := alignDown h.base 12 }
  ((s.modG fun g => { g with hostMirror := h }).touchIf (s.dur.g.hostMirror != h) (objectLine 600)).modLedger fun l =>
    { l with copying := [] }

/-- Every line of the copied range is backlogged (R585). -/
def backlogAll (s : State) : State :=
  let h := s.dur.g.hostMirror
  if !h.enable then s
  else
    s.modLedger fun l => { l with
      backlog := ((List.range (h.count * 2 ^ 14)).map (· + h.first * 2 ^ 14)).filter (isCopied s) }

/-! ### Moves of pages (LG.8) -/

/-- A physical page of an island that holds no logical page and is not retired. -/
def pageFree (l : Ledger) (island physical : Nat) : Bool :=
  !(List.range 4096).any (fun k => physicalPage l island k == physical) &&
    decide (4352 * island + physical ∉ l.retired)

/-- A logical page moves to another physical page, its lines rotated by one (R590, R591). -/
def movePage (island logical physical : Nat) (l : Ledger) : Ledger :=
  let k := 4096 * island + logical
  { l with
    pageMap := mput logical k physical l.pageMap
    pageRotation := mmod 0 l.pageRotation k fun r => (r + 1) % 64
    relocations := mmod 0 l.relocations island (satAdd 64 · 1) }

/-- The physical page of a logical page has taken 2^20 more line writes than the island's average over its 4,352
physical pages, and another page has taken fewer (R590). -/
def wornAgainst (l : Ledger) (island logical physical : Nat) : Bool :=
  let taken := pageTaken l island (physicalPage l island logical)
  decide (islandWrites l island / 4352 + 2 ^ 20 ≤ taken) && decide (pageTaken l island physical < taken)

/-- PAGE_MOVE: wear levelling moves a logical page whose physical page is worn to a less-written free one (R590,
R591). -/
def execPageMove (island : Fin 4) (logical : Fin 4096) (physical : Fin 4352) (s : State) :
    Host.Outcome State Fault Refusal :=
  answer s <| onIslands [idLedger island] fun s =>
    if pageFree s.ledger island physical && wornAgainst s.ledger island logical physical then
      s.modLedger <| wearing island (movePage island logical physical)
    else s

/-- PAGE_RETIRE: a worn page is retired to a spare (R592, R593). -/
def execPageRetire (island : Fin 4) (logical : Fin 4096) (physical : Fin 4352) (s : State) :
    Host.Outcome State Fault Refusal :=
  answer s <| onIslands [idLedger island] fun s =>
    if pageFree s.ledger island physical && decide (0 < sparePages s.ledger island) then
      s.modLedger <| wearing island fun l =>
        let old := physicalPage l island logical
        { movePage island logical physical l with
          retired := insertSorted (4352 * island + old) l.retired
          spares := mput 256 island (sparePages l island - 1) l.spares }
    else s

end Sys2Proof.Machine
end

