-- ==== Sys2Proof/Machine/Items.lean ====
section
/-!
DEFINITION. The work items (WI): their checks, steps, pre-emption points and effects, the engine that
serves them, the Swing's staging and boundary, timers, and the host reads and writes of items.
-/

namespace Sys2Proof.Machine

open Sys2Proof

/-! ### Fields of the bodies -/

/-- The TNs a multicast names, ascending, each once (R462). -/
def ipiTargets (it : Item) : List Nat :=
  match it.byte 17 with
  | 0 => ((List.range (ipiCount it)).map fun k => fieldAt it.entry (32 + 2 * k) 2).foldl
      (fun l t => insertSorted t l) []
  | 1 => (List.range (ipiCount it)).map (· + fieldAt it.entry 20 2)
  | _ => (List.range 4096).filter fun t => bit (fieldAt it.data (t / 8) 1) (t % 8)

/-- The next host read of an item: its IOVA and length, within one page (R462, R493, R519, R542). -/
def nextRead (it : Item) : Nat × Nat :=
  match it.kind with
  | 1 => (alignDown (fieldAt it.entry 24 6) 9, 512)
  | 6 =>
    let a := fieldAt it.entry 24 6 + it.pos
    (a, min (it.count - it.pos) (4096 - a % 4096))
  | _ =>
    let a := alignDown (fieldAt it.entry 16 6) 3 + 8 * it.pos
    let n := min (min 64 (it.count - it.pos)) (min ((4096 - a % 4096) / 8) (512 - it.pos % 512))
    (a, 8 * n)

/-! ### How items end and wait -/

/-- The engine freed if this item holds it. -/
def releaseEngine (q slot : Nat) (s : State) : State :=
  if s.engine (q / 16) == some (q, slot) then s.freeEngine (q / 16) else s

/-- An item ends with a code; its completion step is the last it began (R454). -/
def endItem (q slot code : Nat) (result : List Byte) (s : State) : State :=
  releaseEngine q slot (s.modItem q slot fun it => { it with
    ending := some { code := code, result := result, step := completionStep it.kind }
    issued := true
    wait := .nothing })

/-- An item ends with OK or OK_CLAMPED. -/
def endOk (q : Nat) (it : Item) (result : List Byte) (s : State) : State :=
  endItem q it.slot (okCode it.clamped) result s

/-- The Swing staging area is released, and taken at once by the Swing that waits first for it (R475, R477, R550). -/
def releaseStaging (s : State) : State :=
  let waiting := s.dur.swing.waiting
  let s := s.modDur fun d => { d with swing := { d.swing with
    owner := waiting.head?, waiting := waiting.drop 1, staged := [], folding := false } }
  match waiting with
  | [] => s
  | (q, slot) :: _ => s.modItem q slot fun it => { it with wait := .nothing }

/-- RESULT of an item that met a fault (Table TF-8). -/
def faultResult (it : Item) : List Byte :=
  match it.kind with
  | 2 => countsResult it
  | 3 => leBytes 4 it.pos ++ leBytes 4 0
  | 6 => leBytes 4 (appendOffset it) ++ leBytes 4 0
  | _ => leBytes 8 0

/-- An item meets a fault on path 4 or 5 (R540, Table TF-8): it ends with the fault's code at the step
that met it, the fault is reported, and the queue stops. -/
def itemFault (q slot path iova code level : Nat) (s : State) : State :=
  match (s.queue q).items.find? (fun it => it.slot == slot) with
  | none => s
  | some it =>
    let e : Ending := { code := code, result := faultResult it, step := it.step }
    let s := releaseEngine q slot (s.modItem q slot fun it =>
      { it with ending := some e, issued := true, wait := .nothing })
    let s := if it.kind == 3 then releaseStaging s else s
    let s := reportFault { FaultRec.blank with
      type := code
      path := path
      room := (s.queue q).room
      iova := iova
      level := level
      queue := some q
      index := slot
      step := it.step
      image := bytesAt (completionBytes it e) 4 12
      tag := it.tag
      kind := it.kind } s
    queueStop q 3 slot s

/-- An item's next host read is requested, once its port may issue; the engine stays with it (R431, R448, R493, R542). -/
def requestRead (q slot : Nat) (s : State) : State :=
  match (s.queue q).items.find? (fun it => it.slot == slot) with
  | none => s
  | some it =>
    let (iova, len) := nextRead it
    let d := s.queue q
    if !(s.port d.port).canIssue then (s.holdEngine q slot).modItem q slot fun it => { it with wait := .port }
    else match translate { room := d.room, iova := iova, write := false, use := .itemRead q slot len } len s with
    | (s, .hit a) =>
      ((s.holdEngine q slot).modItem q slot fun it => { it with wait := .read }).passToLink d.port
        (.itemRead q slot iova a len)
    | (s, .walking) => (s.holdEngine q slot).modItem q slot fun it => { it with wait := .translation }
    | (s, .fault code level) => itemFault q slot 4 iova code level s

/-- The item yields the engine at a pre-emption point (R431). -/
def yieldItem (q slot : Nat) (s : State) : State :=
  releaseEngine q slot (s.modItem q slot fun it => { it with wait := .nothing })

/-! ### IPI_MULTICAST (WI.2) -/

/-- A target of a multicast: raised if the acting Room reaches it, else skipped (R463). -/
def ipiRaise (q slot ch : Nat) (s : State) (tn : Nat) : State :=
  if s.canReach (s.queue q).room (s.tgt tn).room then
    (s.submit (idQueue (q / 16)) (gatherOf (ipiSn tn ch)) (.ipi (ipiSn tn ch) q slot)).modItem q slot fun it =>
      { it with applied := it.applied + 1 }
  else s.modItem q slot fun it => { it with refused := it.refused + 1 }

/-- The next group of targets that share TN[11:6] is raised (R393, R464), then the item yields; after the
last group it waits for its raises. -/
def ipiGroup (q : Nat) (it : Item) (s : State) : State :=
  let left := (ipiTargets it).filter fun t => decide (64 * it.pos ≤ t)
  let g := match left with
    | t :: _ => t / 64
    | [] => 63
  let s := (left.filter fun t => t / 64 == g).foldl (ipiRaise q it.slot (it.byte 16 % 16)) s
  let last := !left.any fun t => decide (64 * (g + 1) ≤ t)
  yieldItem q it.slot (s.modItem q it.slot fun it => { it with step := 2, pos := g + 1 }) |>
    fun s => if last then s.modItem q it.slot fun it => { it with issued := true, wait := .raises } else s

/-- IPI_MULTICAST's next step. -/
def ipiStep (q : Nat) (it : Item) (s : State) : State :=
  if it.step = 0 && it.byte 17 = 2 then
    requestRead q it.slot (s.modItem q it.slot fun it => { it with step := 1 })
  else ipiGroup q it s

/-! ### Route records (WI.3 to WI.5) -/

/-- A route record decoded (Table WI-4), and whether it names what it names (R467): its SN, and its TARGET, whatever
WHICH says. An IPI source keeps its TARGET and ROOM, which never refuse its record (R468). -/
def decodeRecord (b : List Byte) : Route × Bool :=
  let sn := fieldAt b 0 3
  let which := fieldAt b 3 1
  let t := fieldAt b 4 2
  let p := fieldAt b 7 1
  let on := fun n => bit which n
  let ipi := isIpi sn
  ({ sn := sn
     target := if on 0 && !ipi then some (if t = 0xFFFF then none else some t) else none
     priority := if on 1 then some (fieldAt b 6 1) else none
     cls := if on 2 then some (Cls.at (p % 2)) else none
     room := if on 3 && !ipi then some (p / 16) else none
     mask := if on 4 then some (bit p 1) else none },
   snExists sn && !(!ipi && decide (4096 ≤ t) && decide (t < 0xFFFF)))

/-- The route would leave its source unable to reach its target, by a change it makes (R328). -/
def routeStrands (s : State) (n : Route) : Bool :=
  let r := s.src n.sn
  let target := n.target.getD r.target
  let room := n.room.getD r.room
  !(target == r.target && room == r.room) && !s.routeReaches room target

/-- The reason for which a record is refused, by its number in R467. -/
def recordRefusal (s : State) (acting : Nat) (n : Route) (named : Bool) : Option Nat :=
  if !named then some 1
  else
    let r := s.src n.sn
    let room := n.room.getD r.room
    if !mayAct acting r.room || !mayAct acting room then some 2
    else if room0Guard s r.room room then some 3
    else if routeStrands s n then some 4
    else none

/-- A record of a ROUTE_BATCH in array order (R466, R470, R472); false once the item has ended. -/
def batchRecord (q slot : Nat) (x : State × Bool) (b : List Byte) : State × Bool :=
  let (s, going) := x
  match going, (s.queue q).items.find? (fun it => it.slot == slot) with
  | true, some it =>
    let (n, named) := decodeRecord b
    let ordered := match it.lastSn with
      | some l => decide (l < n.sn)
      | none => true
    if !ordered then (endItem q slot 0x14 (countsResult it) s, false)
    else
      let refusal := recordRefusal s (s.queue q).room n named
      let s := if refusal.isNone then applyRoute n s else s
      (s.modItem q slot fun it => { it with
        pos := it.pos + 1
        lastSn := some n.sn
        applied := if refusal.isNone then it.applied + 1 else it.applied
        refused := if refusal.isNone then it.refused else it.refused + 1 }, true)
  | _, _ => (s, false)

/-- A record of a SWING: staged, or the Swing is rejected (R476, R477). -/
def stageRecord (q slot : Nat) (x : State × Bool) (b : List Byte) : State × Bool :=
  let (s, going) := x
  match going, (s.queue q).items.find? (fun it => it.slot == slot) with
  | true, some it =>
    let (n, named) := decodeRecord b
    match recordRefusal s (s.queue q).room n named with
    | some reason =>
      (releaseStaging (endItem q slot 0x15
        (leBytes 4 it.pos ++ [BitVec.ofNat 8 reason, 0, 0, 0]) s), false)
    | none =>
      let s := (s.modDur fun d => { d with swing := { d.swing with
        staged := (d.swing.staged.filter fun m => m.sn != n.sn) ++ [n] } }).touch (sourceLine n.sn)
      (s.modItem q slot fun it => { it with pos := it.pos + 1 }, true)
  | _, _ => (s, false)

/-- The 8-byte records of a read. -/
def recordsOf (bytes : List Byte) (n : Nat) : List (List Byte) :=
  (List.range n).map fun k => bytesAt bytes (8 * k) 8

/-- What follows a read of records: the next read, a pre-emption point, or the end (R453, R472). -/
def afterRecords (q slot : Nat) (s : State) : State :=
  match (s.queue q).items.find? (fun it => it.slot == slot) with
  | none => s
  | some it =>
    if it.ending.isSome then s
    else if it.pos < it.count then
      if it.pos % 512 = 0 then yieldItem q slot s else requestRead q slot s
    else if it.kind = 2 then
      endItem q slot (if it.refused ≠ 0 then 0x13 else okCode it.clamped) (countsResult it) s
    else if it.pos % 512 = 0 then yieldItem q slot s
    else s.modItem q slot fun it => { it with wait := .nothing }

/-- ROUTE_BATCH's next step: its next records. -/
def batchStep (q : Nat) (it : Item) (s : State) : State :=
  if it.count = 0 then endOk q it (leBytes 8 0) s
  else requestRead q it.slot (s.modItem q it.slot fun it => { it with step := 1 })

/-- SWING's next step: the staging area, for which it waits in order without the engine (R475), then its next records
(R476). -/
def swingStep (q : Nat) (it : Item) (s : State) : State :=
  if it.count = 0 then endOk q it (leBytes 8 s.dur.g.epoch) s
  else if it.step = 0 && s.dur.swing.owner.isSome then
    yieldItem q it.slot ((s.modDur fun d => { d with swing := { d.swing with
      waiting := d.swing.waiting ++ [(q, it.slot)] } }).modItem q it.slot fun it =>
        { it with step := 1 }) |> fun s => s.modItem q it.slot fun it => { it with wait := .staging }
  else if it.step < 2 then
    requestRead q it.slot ((s.modDur fun d => { d with swing := { d.swing with
      owner := some (q, it.slot) } }).modItem q it.slot fun it => { it with step := 2 })
  else if it.pos < it.count then requestRead q it.slot s
  else s

/-- SWING step 3: every staged route applied at one epoch boundary, the fold begun (R478 to R484). -/
def swingCommit (q : Nat) (it : Item) (s : State) : State :=
  let staged := s.dur.swing.staged
  let s := s.modG fun g => { g with epoch := g.epoch + 1 }
  let s := staged.foldl (fun s n => applyRoute n s) s
  let s := s.modDur fun d => { d with swing := { d.swing with staged := [], folding := true } }
  endOk q it (leBytes 8 s.dur.g.epoch) (s.modItem q it.slot fun it => { it with step := 3 })

/-! ### Timers (WI.6) -/

/-- A timer that is not armed. -/
def Timer.off : Timer := { due := 0, period := none }

/-- The timer is armed. -/
def timerArmed (s : State) (t : Nat) : Bool := mget Timer.off s.dur.timers t != Timer.off

/-- A timer set or cleared; its state is durable (R491). -/
def setTimer (t : Nat) (v : Timer) (s : State) : State :=
  { s with dur := { s.dur with timers := mput .off t v s.dur.timers } }

/-- TIMER_ARM's one step (R489). -/
def timerArmStep (q : Nat) (it : Item) (s : State) : State :=
  let t := it.byte 16
  let was := timerArmed s t
  let delay := max 1 (fieldAt it.entry 20 4)
  let period := max 10 (fieldAt it.entry 24 4)
  endOk q it (leBytes 4 (b2n was) ++ leBytes 4 0) (setTimer t
    { due := s.now + 1000 * delay, period := if it.byte 17 = 1 then some (1000 * period) else none } s)

/-- TIMER_CANCEL's one step (R490). -/
def timerCancelStep (q : Nat) (it : Item) (s : State) : State :=
  let t := it.byte 16
  endOk q it (leBytes 4 (b2n (timerArmed s t)) ++ leBytes 4 0) (setTimer t .off s)

/-- TIMER_EXPIRY: an armed timer reaches its time (R488, R489). -/
def execTimerExpiry (timer : Fin 256) (s : State) : Host.Outcome State Fault Refusal :=
  answer s <| onIslands [idQueue (timer / 16)] fun s =>
    let v := mget Timer.off s.dur.timers timer
    if v = .off || s.durab.timersHeld then s
    else
      let s := s.elapseTo v.due
      let next := match v.period with
        | some p => { v with due := v.due + p }
        | none => Timer.off
      (setTimer timer next s).raise (0x101200 + timer)

/-! ### LEDGER_APPEND, FENCE, HOST_STORE, CHECKPOINT (WI.7 to WI.10) -/

/-- LEDGER_APPEND's next step: the data (R493), then the pieces into the stream (R576, R724). -/
def appendStep (q : Nat) (it : Item) (s : State) : State :=
  let len := appendLength it
  if len = 0 then endOk q it (leBytes 4 (appendOffset it) ++ leBytes 4 0) s
  else if it.step = 0 then
    if bit it.flags 2 then
      s.modItem q it.slot fun it => { it with
        step := 1, pos := len, count := len, data := bytesAt it.entry 32 len }
    else requestRead q it.slot (s.modItem q it.slot fun it => { it with step := 1, count := len })
  else
    let port := (s.queue q).port
    let ps := piecesOf s.ledger.nextPiece port (appendOffset it) it.data (List.replicate len true)
      (some (q, it.slot))
    let s := s.modItem q it.slot fun it => { it with
      step := 3, issued := true, wait := .pieces, denied := s.ledger.closed }
    if s.ledger.closed then
      s.modLedger fun l =>
        { l with denied := l.denied.set port (satAdd 64 (l.denied.get port) ps.length) }
    else enterStream ps s

/-- An item waits inside its step 1 for its earlier items, with the engine, since that step has no pre-emption point
(R431, R453, R496, R500). -/
def waitEarlier (q slot : Nat) (s : State) : State :=
  (s.holdEngine q slot).modItem q slot fun it => { it with step := 1, wait := .earlier }

/-- FENCE's step 1 (R496 to R498): with QUEUE it ends when the earlier items have completed and what LEDGER names is
persistent; with LEDGER alone it waits for its pieces once issued. -/
def fenceStep (q : Nat) (it : Item) (s : State) : State :=
  let scope := it.byte 16
  if bit scope 0 then
    if stepGoesOn s q { it with wait := .earlier } then
      endItem q it.slot (if it.denied then 0x11 else 1) (leBytes 8 0) s
    else waitEarlier q it.slot s
  else if bit scope 1 then
    s.modItem q it.slot fun it => { it with step := 1, issued := true, wait := .pieces }
  else endOk q it (leBytes 8 0) (s.modItem q it.slot fun it => { it with step := 1 })

/-- The posted write of a HOST_STORE is passed to the Link island; REFETCH drops what was fetched in
mode S (R425, R500). -/
def passStore (q : Nat) (it : Item) (addr : Nat) (s : State) : State :=
  let d := s.queue q
  let s := s.passToLink d.port (.hostStore q it.slot it.tag it.kind (fieldAt it.entry 16 6) addr
    (bytesAt it.entry 32 (storeLength it)))
  let s := if bit it.flags 1 && !d.modeC then dropFetched q s else s
  endOk q it (leBytes 8 0) s

/-- HOST_STORE's next step: its wait, then its write once its port may issue (R448, R499, R500). -/
def storeStep (q : Nat) (it : Item) (s : State) : State :=
  let d := s.queue q
  if storeLength it = 0 then endOk q it (leBytes 8 0) s
  else if !isHead s q it then waitEarlier q it.slot s
  else
    let s := s.modItem q it.slot fun it => { it with step := 2 }
    let it := { it with step := 2 }
    let iova := fieldAt it.entry 16 6
    if !(s.port d.port).canIssue then
      (s.holdEngine q it.slot).modItem q it.slot fun it => { it with wait := .port }
    else match translate { room := d.room, iova := iova, write := true, use := .hostStore q it.slot }
        (storeLength it) s with
    | (s, .hit a) => passStore q it a s
    | (s, .walking) => (s.holdEngine q it.slot).modItem q it.slot fun it => { it with wait := .translation }
    | (s, .fault code level) => itemFault q it.slot 5 iova code level s

/-- CHECKPOINT's step 1: a root commit is requested (R501). -/
def checkpointStep (q : Nat) (it : Item) (s : State) : State :=
  let s := s.modItem q it.slot fun it => { it with step := 2, issued := true, wait := .root }
  requestRoot { s with durab := { s.durab with ckptItems := s.durab.ckptItems ++ [(q, it.slot)] } }

/-! ### ROOM_REASSIGN and XLATE_INVALIDATE (WI.11, WI.12) -/

/-- A queue may change its Room: DISABLED with IDLE 1 (R443). -/
def queueMovable (s : State) (q : Nat) : Bool := (s.qvol q).state == .disabled && queueIdle s q

/-- One number of a ROOM_REASSIGN (R505, R506). -/
def reassignOne (q slot object from' to' : Nat) (s : State) (n : Nat) : State :=
  let moved := fun (s : State) => s.modItem q slot fun it => { it with applied := it.applied + 1 }
  let refused := s.modItem q slot fun it => { it with refused := it.refused + 1 }
  let guard' := room0Guard s from' to'
  match object with
  | 0 =>
    if !snExists n || (s.src n).room != from' then s
    else
      let r : Route := { sn := n, target := none, priority := none, cls := none, room := some to',
                         mask := none }
      if isIpi n || guard' || routeStrands s r then refused else moved (applyRoute r s)
  | 1 =>
    if (s.tgt n).room != from' then s
    else if guard' then refused
    else moved (setTargetRoom n to' s)
  | _ =>
    if (s.queue n).room != from' then s
    else if guard' || !queueMovable s n then refused
    else moved (s.modQueue n fun d => { d with room := to' })

/-- ROOM_REASSIGN's next 512 numbers (R504 to R507). -/
def reassignStep (q : Nat) (it : Item) (s : State) : State :=
  let n := reassignCount it
  if n = 0 || it.byte 17 = it.byte 18 then endOk q it (leBytes 8 0) s
  else
    let first := fieldAt it.entry 20 4
    let upto := min n (it.pos + 512)
    let s := ((List.range (upto - it.pos)).map (· + (first + it.pos))).foldl
      (reassignOne q it.slot (it.byte 16) (it.byte 17) (it.byte 18)) s
    let s := s.modItem q it.slot fun it => { it with step := 1, pos := upto }
    if upto < n then s
    else
      match (s.queue q).items.find? (fun x => x.slot == it.slot) with
      | some it =>
        endItem q it.slot (if it.refused ≠ 0 then 0x13 else okCode it.clamped) (countsResult it) s
      | none => s

/-- XLATE_INVALIDATE's step 1 (R508, R509). -/
def xlateInvalidateStep (q : Nat) (it : Item) (s : State) : State :=
  let pages := fieldAt it.entry 24 4
  if it.byte 17 = 1 && pages = 0 then endOk q it (leBytes 8 0) s
  else
    let range := if it.byte 17 = 1 then some (fieldAt it.entry 18 6 / 4096, pages) else none
    let s := s.modItem q it.slot fun it =>
      { it with step := 2, issued := true, wait := .fence (s.xlate.issued + 1).toNat }
    invalidate (it.byte 16) range (some (q, it.slot)) s

/-! ### The data of an item's read -/

/-- The data of an item's read have come (R462, R493, R542). -/
def itemData (q : Nat) (it : Item) (bytes : List Byte) (s : State) : State :=
  let (_, len) := nextRead it
  match it.kind with
  | 1 =>
    let s := s.modItem q it.slot fun it => { it with data := bytesAt bytes 0 512, step := 2 }
    ipiGroup q { it with data := bytesAt bytes 0 512, step := 2 } s
  | 2 => afterRecords q it.slot ((recordsOf bytes (len / 8)).foldl (batchRecord q it.slot) (s, true)).1
  | 3 => afterRecords q it.slot ((recordsOf bytes (len / 8)).foldl (stageRecord q it.slot) (s, true)).1
  | 6 =>
    let s := s.modItem q it.slot fun it =>
      { it with data := it.data ++ bytesAt bytes 0 len, pos := it.pos + len }
    if it.pos + len < it.count then requestRead q it.slot s else yieldItem q it.slot s
  | _ => s

/-! ### The engine (WQ.5) -/

/-- An item's next step, by its kind (Table WI-1). -/
def kindStep (q : Nat) (it : Item) (s : State) : State :=
  match it.kind with
  | 1 => ipiStep q it s
  | 2 => batchStep q it s
  | 3 =>
    if it.count ≠ 0 && it.step = 2 && it.pos = it.count then swingCommit q it s else swingStep q it s
  | 4 => timerArmStep q it s
  | 5 => timerCancelStep q it s
  | 6 => appendStep q it s
  | 7 => fenceStep q it s
  | 8 => storeStep q it s
  | 9 => checkpointStep q it s
  | 10 => reassignStep q it s
  | 11 => xlateInvalidateStep q it s
  | _ => s

/-- RESULT of an item that its own entry stops: zero counts, but OFFSET + LENGTH of an append (WI.7). -/
def refusedResult (it : Item) : List Byte :=
  if it.kind = 6 then leBytes 4 (appendOffset it + appendLength it) ++ leBytes 4 0 else leBytes 8 0

/-- How an item that a power failure left unfinished ends without going on, by what survives (Table WI-14); none where
it goes on from there. -/
def lostProgress (it : Item) : Option (Nat × List Byte) :=
  match it.kind with
  | 1 =>
    if it.byte 17 = 2 && it.step < 2 then some (0x16, multicastResult { it with applied := 0, refused := 0 }) else none
  | 2 => some (0x16, countsResult it)
  | 3 => some (0x16, leBytes 8 0)
  | 6 =>
    if appendLength it = 0 || (it.wait == .pieces && !it.short) then none
    else some (0x16, leBytes 4 (appendOffset it + appendLength it) ++ leBytes 4 0)
  | 7 => if bit (it.byte 16) 1 then some (0x16, leBytes 8 0) else none
  | 11 => some (okCode it.clamped, leBytes 8 0)
  | _ => none

/-- An item as its first step begins: its quantities are clamped (R461). -/
def Item.started (it : Item) : Item :=
  { it with
    clamped := entryClamped it
    count := match it.kind with
      | 2 => min (recordCount it) 1119232
      | 3 => min (recordCount it) 65536
      | _ => it.count }

/-- The engine issues the next step of an item, or goes on with the step that holds it (R428, R431, R440, R459, R461). An
item that a power failure left before its first step is checked before it ends as Table WI-14 gives (R460). -/
def serveItem (q : Nat) (it : Item) (s : State) : State :=
  match it.wait with
  | .arrived bytes => itemData q it bytes (s.modItem q it.slot fun it => { it with wait := .nothing })
  | .port => if it.kind = 8 then kindStep q it s else requestRead q it.slot s
  | _ =>
  if it.kind = 0 || 11 < it.kind then
    s.modItem q it.slot fun it => { it with
      ending := some { code := 3, result := leBytes 8 0, step := 0 }, issued := true }
  else if it.step = 0 && (entryCheck s q it).isSome then
    endItem q it.slot ((entryCheck s q it).getD 0) (refusedResult it) s
  else if it.step = 0 then
    let s := s.modItem q it.slot fun _ => it.started
    match (if it.recovered then lostProgress it.started else none) with
    | some (code, result) => endItem q it.slot code result s
    | none => kindStep q it.started s
  else kindStep q it s

/-- The queue an island's engine serves: the one whose item holds it inside a step, where that step can go on, and of a
free engine the lowest with work (R428, R431). -/
def servedQueue (s : State) (island : Nat) : Option Nat :=
  match s.engine island with
  | some (q, _) => if hasStep s q then some q else none
  | none => ((List.range 16).map (· + 16 * island)).find? (hasWork s)

/-- The Store banks that an item's next step changes by its records or numbers, beside its queue (R466, R476, R505). -/
def stepBanks (s : State) (it : Item) : List Nat :=
  let of := fun (sns : List Nat) => (sns.foldl (fun l n => insertSorted (bankOf n) l) []).map idBank
  match it.wait, it.kind with
  | .arrived bytes, 2 | .arrived bytes, 3 =>
    of (((recordsOf bytes ((nextRead it).2 / 8)).map fun b => fieldAt b 0 3).filter snExists)
  | .nothing, 3 => if it.step = 2 && it.pos = it.count then (List.range 32).map idBank else []
  | .nothing, 10 =>
    if it.byte 16 = 0 then
      let first := fieldAt it.entry 20 4 + it.pos
      of (((s.dur.sources.map Prod.fst).filter fun n =>
        decide (first ≤ n) && decide (n < first + 512) && (s.src n).room == it.byte 17))
    else []
  | _, _ => []

/-- The islands of an item's next step: its Queue island and the banks that the step changes. -/
def stepIslands (s : State) (q : Nat) (it : Item) : List Nat := idQueue (q / 16) :: stepBanks s it

/-- An item's step runs on its Queue island and the banks it changes, while their dirty budget has room (R603). -/
def serveStep (q : Nat) (it : Item) (s : State) : State :=
  onIslands (stepIslands s q it) (guarded (serveItem q it)) s

/-- ENGINE_SERVE: the engine issues the next step of the lowest queue with work, or takes its entry (R428). -/
def execEngineServe (island : Fin 16) (s : State) : Host.Outcome State Fault Refusal :=
  answer s fun s =>
    match servedQueue s island with
    | none => s
    | some q =>
      match nextStep s q with
      | some it => serveStep q it s
      | none => onIslands [idQueue island] (takeEntry q) s

/-- The engine issues a step of an item of one kind: of queue q, where the engine serves q (R428). -/
def serveKind (kind q : Nat) (s : State) : State :=
  if servedQueue s (q / 16) == some q then
    match nextStep s q with
    | some it => if it.kind == kind then serveStep q it s else s
    | none => s
  else s

/-- IPI_MULTICAST (R462). -/
def execIpiMulticast (q : Fin 256) (s : State) : Host.Outcome State Fault Refusal :=
  answer s (serveKind 1 q)

/-- ROUTE_BATCH (R470). -/
def execRouteBatch (q : Fin 256) (s : State) : Host.Outcome State Fault Refusal :=
  answer s (serveKind 2 q)

/-- The item that holds the staging area with all its records staged. -/
def stagedSwing (s : State) : Option (Nat × Item) :=
  match s.dur.swing.owner with
  | none => none
  | some (q, slot) =>
    match (s.queue q).items.find? (fun it => it.slot == slot) with
    | some it =>
      if it.kind == 3 && it.step == 2 && it.pos == it.count && it.ending.isNone && !s.dur.swing.folding
      then some (q, it) else none
    | none => none

/-- SWING: step 1 or step 2 of a Swing (R475, R476); its commit has a command of its own. -/
def execSwing (q : Fin 256) (s : State) : Host.Outcome State Fault Refusal :=
  answer s fun s => if (stagedSwing s).any (fun p => p.1 == q.val) then s else serveKind 3 q s

/-- SWING_COMMIT: step 3 of the Swing whose records are staged, once the engine serves it (R478). -/
def execSwingCommit (s : State) : Host.Outcome State Fault Refusal :=
  answer s fun s =>
    match stagedSwing s with
    | none => s
    | some (q, it) =>
      if servedQueue s (q / 16) == some q then
        onIslands (idQueue (q / 16) :: (List.range 32).map idBank) (guarded (swingCommit q it)) s
      else s

/-- SWING_FOLD_END: the fold ends and the staging area is released (R475, R483). -/
def execSwingFoldEnd (s : State) : Host.Outcome State Fault Refusal :=
  answer s fun s => if s.running && s.dur.swing.folding then releaseStaging s else s

/-- TIMER_ARM (R489). -/
def execTimerArm (q : Fin 256) (s : State) : Host.Outcome State Fault Refusal :=
  answer s (serveKind 4 q)

/-- TIMER_CANCEL (R490). -/
def execTimerCancel (q : Fin 256) (s : State) : Host.Outcome State Fault Refusal :=
  answer s (serveKind 5 q)

/-- LEDGER_APPEND (R492). -/
def execLedgerAppend (q : Fin 256) (s : State) : Host.Outcome State Fault Refusal :=
  answer s (serveKind 6 q)

/-- FENCE (R496). -/
def execFence (q : Fin 256) (s : State) : Host.Outcome State Fault Refusal :=
  answer s (serveKind 7 q)

/-- HOST_STORE (R500). -/
def execHostStore (q : Fin 256) (s : State) : Host.Outcome State Fault Refusal :=
  answer s (serveKind 8 q)

/-- CHECKPOINT (R501). -/
def execCheckpoint (q : Fin 256) (s : State) : Host.Outcome State Fault Refusal :=
  answer s (serveKind 9 q)

/-- ROOM_REASSIGN (R505). -/
def execRoomReassign (q : Fin 256) (s : State) : Host.Outcome State Fault Refusal :=
  answer s (serveKind 10 q)

/-- XLATE_INVALIDATE (R509). -/
def execXlateInvalidate (q : Fin 256) (s : State) : Host.Outcome State Fault Refusal :=
  answer s (serveKind 11 q)

/-! ### The ends of the reads of items -/

/-- The item of a queue that awaits a read already issued. -/
def readingItem (s : State) (q : Nat) : Option Item :=
  if (s.port (s.queue q).port).out.any (fun r =>
      match r with
      | .itemRead k _ _ _ _ => k == q
      | _ => false) then none
  else (s.queue q).items.find? fun it => it.wait == .read

/-- A data read of a queue's item has timed out (R522, R533). -/
def itemReadTimeout (q : Nat) (s : State) : State :=
  match (s.queue q).items.find? (fun it => it.wait == .readLost) with
  | some it => itemFault q it.slot 4 (nextRead it).1 fHostError 0xFF s
  | none =>
    match readingItem s q with
    | some it => itemFault q it.slot 4 (nextRead it).1 fHostError 0xFF s
    | none => s

/-- A data read of a queue's item has ended (R534): its data are in. -/
def itemReadEnds (q : Nat) (result : HostRead) (s : State) : State :=
  match readingItem s q with
  | none => s
  | some it =>
    match result with
    | .data bytes => s.modItem q it.slot fun it => { it with wait := .arrived bytes }
    | _ => itemFault q it.slot 4 (nextRead it).1 fHostError 0xFF s

/-- The step of a queue's item that awaited a read goes on with the data that came. -/
def readGoesOn (q : Nat) (s : State) : State :=
  match nextStep s q with
  | some it =>
    match it.wait with
    | .arrived _ => serveStep q it s
    | _ => s
  | none => s

/-- The end of an item's read reaches its Queue island, and its step goes on. -/
def itemReadArrives (q : Fin 256) (result : HostRead) (s : State) : State :=
  readGoesOn q <| readArrives (s.queue q).port (.hostRead (.itemRead q) result) [idQueue (q / 16)]
    (itemReadEnds q result) s

/-- HOST_READ_COMPLETE (R534). -/
def execHostReadComplete (q : Fin 256) (result : HostRead) (s : State) :
    Host.Outcome State Fault Refusal :=
  answer s (itemReadArrives q result)

/-- The translation of an item's read has ended. -/
def itemReadResume (q slot len : Nat) (x : Xlated) (s : State) : State :=
  match (s.queue q).items.find? (fun it => it.slot == slot && it.wait == .translation) with
  | none => s
  | some it =>
    let (iova, _) := nextRead it
    match x with
    | .hit a =>
      (s.modItem q slot fun it => { it with wait := .read }).passToLink (s.queue q).port
        (.itemRead q slot iova a len)
    | .fault code level => itemFault q slot 4 iova code level s
    | .walking => s

/-- The translation of a HOST_STORE's write has ended. -/
def hostStoreResume (q slot : Nat) (x : Xlated) (s : State) : State :=
  match (s.queue q).items.find? (fun it => it.slot == slot && it.wait == .translation) with
  | none => s
  | some it =>
    match x with
    | .hit a => passStore q it a s
    | .fault code level => itemFault q slot 5 (fieldAt it.entry 16 6) code level s
    | .walking => s

/-- MIXED_EPOCH (R473). -/
def mixedEpoch (s : State) : Bool :=
  s.dur.queues.any fun p => p.2.items.any fun it =>
    decide (it.applied ≠ 0) && (it.kind == 2 || (it.kind == 10 && decide (it.byte 16 < 2)))

end Sys2Proof.Machine
end

