-- ==== Sys2Proof/Machine/Walks.lean ====
section
/-!
DEFINITION. The ends of walks (TF.1, TF.3): a table read returns or times out, the request that waited
goes on, the walk pipeline grants what waits under its rotation, and fences complete.
-/

namespace Sys2Proof.Machine

open Sys2Proof

/-- A translation has ended: whoever waited for it goes on. -/
def resumeUse (r : XReq) (stale : Bool) (x : Xlated) (s : State) : State :=
  match r.use with
  | .ringFetch q slot owned => ringFetchResume q slot owned x s
  | .completion q slot => completionResume q slot x s
  | .itemRead q slot len => itemReadResume q slot len x s
  | .hostStore q slot => hostStoreResume q slot x s
  | .pane tn c => paneResume tn c r.room r.iova stale x s
  | .ledgerCopy i line => copyResume i line r.room r.iova x s

/-- Requests that wait in a Translation island. -/
def waitingRequests (s : State) (island : Nat) : Nat :=
  let x := s.xisland island
  x.waitDelivery.length + x.waitQueue.length + x.waitLedger.length

/-- While the walk pipeline has room, the rotation grants waiting requests, `n` at most (R62, R63). -/
def grantWaiting (island : Nat) : Nat → State → State
  | 0, s => s
  | n + 1, s =>
    let x := s.xisland island
    if 32 ≤ x.walks.length then s
    else
      match nextGrant x 7 with
      | none => s
      | some (r, x') =>
        let (s, out) := grant r (s.modXIsland island fun _ => x')
        grantWaiting island n (resumeUse r false out s)

/-- A walk's table read has ended (R515 to R517, R521): the walk reads the next table, or ends; its
request goes on and its slot in the pipeline is granted anew. -/
def walkReadEnds (island id : Nat) (result : HostRead) (s : State) : State :=
  match (s.xisland island).walks.find? (fun w => w.id == id) with
  | none => s
  | some w =>
    let (s, step) := walkAdvance island w result s
    match step with
    | .next _ => s
    | .done x =>
      let s := resumeUse w.req w.stale x s
      grantWaiting island (waitingRequests s island) s

/-- The port that a walk reads through. -/
def walkPortOf (s : State) (island walk : Nat) : Port :=
  match (s.xisland island).walks.find? (fun w => w.id == walk) with
  | some w => (s.xroom w.req.room).walkPort
  | none => .a

/-- The end of a walk's table read reaches its Translation island; of a read that a port reset orphaned, none does
(R771). -/
def walkReadArrives (island : Fin 4) (walk : Nat) (result : HostRead) (s : State) : State :=
  if (s.xisland island).walks.any (fun w => w.id == walk && w.dead) then s
  else
    readArrives (walkPortOf s island walk) (.hostRead (.walkRead island walk) result) [idXlate island]
      (walkReadEnds island walk result) s

/-- WALK_READ_COMPLETE (R515). -/
def execWalkReadComplete (island : Fin 4) (walk : Nat) (result : HostRead) (s : State) :
    Host.Outcome State Fault Refusal :=
  answer s (walkReadArrives island walk result)

/-! ### Timeouts (R522) -/

/-- Completion Timeout Ranges Supported of Device Capabilities 2: A and B (R522; PRESUMED: 0011b is PCI Express's code for
them, log entry 70). -/
def completionTimeoutRanges : BitVec 4 := 0b0011

/-- The shortest and the longest time, in nanoseconds, within which a read times out under a Completion Timeout Value
(R522; PRESUMED: the bounds of the values of ranges A and B are PCI Express's, log entry 70). -/
def completionTimeout (value : Nat) : Nat × Nat :=
  match value with
  | 1 => (50000, 100000)
  | 2 => (1000000, 10000000)
  | 5 => (16000000, 55000000)
  | 6 => (65000000, 210000000)
  | _ => (10000000, 11000000)

/-- When a read that the controller made was issued, and through which port; none while it is not issued, or has come. -/
def readIssued (s : State) (read : HostReadId) : Option (Port × Nat) :=
  if s.held.any (fun x => match x.2 with
      | .hostRead r _ => r == read
      | _ => false) then none
  else
    match read with
    | .ringFetch q slot =>
      ((s.qvol q).fetches.find? (fun f => f.slot == slot && f.readAt.isSome)).map fun f =>
        ((s.queue q).port, f.readAt.getD 0)
    | .itemRead q =>
      if (s.queue q).items.any (fun it => it.wait == .readLost) || (readingItem s q).isSome then
        some ((s.queue q).port, (s.qvol q).readAt)
      else none
    | .walkRead i w =>
      ((s.xisland i).walks.find? (fun v => v.id == w)).map fun v => (walkPortOf s i w, v.readAt)

/-- What the timeout of a read does: a data read ends with HOST_ERROR, a table read with WALK_ERROR (R521, R522, Table
TF-6). -/
def readTimesOut (read : HostReadId) (s : State) : State :=
  match read with
  | .ringFetch q slot => onArrival [idQueue (q / 16)] (fetchReturns q slot .completerAbort) s
  | .itemRead q => onArrival [idQueue (q / 16)] (itemReadTimeout q) s
  | .walkRead i w => onArrival [idXlate i] (walkReadEnds i w .completerAbort) s

/-- HOST_READ_TIMEOUT: a read times out, not before the shortest time that its port's Completion Timeout Value gives has
passed since its issue (R522). -/
def execHostReadTimeout (read : HostReadId) (s : State) : Host.Outcome State Fault Refusal :=
  answer s fun s =>
    match readIssued s read with
    | none => s
    | some (p, at') => readTimesOut read (s.elapseTo (at' + (completionTimeout (s.port p).cto).1))

/-- The end of an item whose invalidation's fence has completed (R509). -/
def fenceItemEnds (q slot : Nat) (s : State) : State :=
  match (s.queue q).items.find? (fun it => it.slot == slot && it.kind == 11) with
  | none => s
  | some it => endOk q it (leBytes 8 0) s

/-- INVALIDATION_FENCE: the oldest fence completes once its walks have ended (R528, R529, R532). Every
request already translated stands in its Link island, since a translation passes it on at once. -/
def execInvalidationFence (s : State) : Host.Outcome State Fault Refusal :=
  answer s fun s =>
    match s.xlate.fences with
    | [] => s
    | f :: rest =>
      if !fenceReady s f then s
      else
        onIslands [idXlate (f.room % 4)] (fun s =>
          let s := { s with xlate := { s.xlate with fences := rest, done := s.xlate.done + 1 } }
          match f.item with
          | some (q, slot) => fenceItemEnds q slot s
          | none => s.raiseFrom (idXlate (f.room % 4)) 0x101071) s

end Sys2Proof.Machine
end

