-- ==== Sys2Proof/Machine/Ownership.lean ====
section
/-!
DEFINITION. What ends with its holder: the Hatch (CN.7.1, CN.7.3), the staging of a configuration image
(R201) and the sideband carrier (DS.6.4); and the fall of RDY (R780).
-/

namespace Sys2Proof.Machine

open Sys2Proof

/-- HATCH_OWNER.OWNER (Table CN-15). -/
def ownerCode : Option Req → Nat
  | none => 0
  | some .linkA => 1
  | some .linkB => 2
  | some .sideband => 3

/-- A release of the Hatch, whatever its cause (R127). HATCH_TIMEOUT keeps its value. The rule lists the data window,
HATCH_ADDR, HATCH_ELEMENT and VALID; that CODE, LENGTH, the opcode and TAG return to their reset values with them is
the model's (DESIGN CHOICE, log entry 74). -/
def releaseHatch (s : State) : State :=
  { s with hatch := { Hatch.initial with timeout := s.hatch.timeout } }

/-- Whether the command that OPCODE names was carried out (R142). -/
def hatchApplied (h : Hatch) : Bool :=
  if h.busy then h.result.any HatchResult.applied else h.applied

/-- An abort of the owner's Hatch use (R141 to R143): logged in every copy, then the Hatch is released. A KeeperReset
CAPTURE written through the Hatch begins the Storm that aborts it before its own result stands: APPLIED is 0 then
(DESIGN CHOICE, log entry 76). -/
def abortHatch (cause : Nat) (s : State) : State :=
  match s.hatch.owner with
  | none => s
  | some r =>
    let h := s.hatch
    let log : AbortLog := { valid := true, former := ownerCode (some r), opcode := h.opcode,
                            applied := hatchApplied h, cause := cause }
    let s := s.modConducts fun c => { c with abortLog := log, status := c.status ||| 4 }
    (releaseHatch (s.mgmt 1)).raise 0x101053

/-- The abort of a given owner's use. -/
def abortOwned (r : Req) (cause : Nat) (s : State) : State :=
  if s.hatch.owner = some r then abortHatch cause s else s

/-- Staging ownership ends (R201): STATE returns to empty, but applied and failed stay readable. -/
def endStaging (s : State) : State :=
  { s with image := { s.image with
    owner := none
    staged := 0
    state := match s.image.state with
      | .applied => .applied
      | .failed => .failed
      | _ => .empty } }

/-- Staging owned by a requester ends, unless an apply runs (R201, R205). -/
def endStagingOf (r : Req) (s : State) : State :=
  if s.image.owner = some r && s.image.state != .applying then endStaging s else s

/-- A loss of the sideband carrier (R177, R201). -/
def carrierLoss (s : State) : State :=
  let s := endStagingOf .sideband (abortOwned .sideband 4 s)
  { s with sideband := { s.sideband with
    current := none
    waiting := []
    responses := []
    sent := 0
    retries := 0
    carrierLoss := satAdd 32 s.sideband.carrierLoss 1 } }

/-- RDY falls (R780): the reads of the Ledger that wait complete (R574, R98, R588). -/
def clearRdy (s : State) : State := failLedgerReads { s with keeper := { s.keeper with rdy := false } }

end Sys2Proof.Machine
end

