-- ==== Sys2Proof/Machine/Durability.lean ====
section
/-!
DEFINITION. Durability (DU): write-behind, roots and their two copies, checkpoints, the power warning
and the flush barrier, the Storm sequence, and the choice and restoring of a root at recovery.
-/

namespace Sys2Proof.Machine

open Sys2Proof

/-! ### Write-behind and the dirty budget (DU.2) -/

/-- A line's image stands in its next slot: the line is among those the next root flips (R614). -/
def lineWritten (l : Line) (s : State) : State :=
  throttleRelease { s with durab := { s.durab with written := insertNew s.durab.written l } }

/-- The verification of a slot write (R638, R654): its retries are counted, a slot that failed its third is retired to a
spare, and a retirement or an uncorrectable word is the channel's fault. -/
def verifyWrite (l : Line) (check : WriteCheck) (s : State) : State :=
  let c := l.channel
  let left := mget 32 s.mram.spares c
  let s := { s with durab := { s.durab with retries := mmod 0 s.durab.retries c (satAdd 64 · check.retries) } }
  let s := if check.failed then retireSlot l.la s else s
  if (check.failed && left != 0) || check.uncorrectable then mirrorFault c s else s

/-- A Mirror channel writes a line's image to its next slot. Where the write fails and no spare is left the line stays as
it was. -/
def writeImage (l : Line) (image : Durable) (check : WriteCheck) (done : State → State) (s : State) : State :=
  let left := mget 32 s.mram.spares l.channel
  let s := verifyWrite l check s
  if check.failed && left == 0 then s else lineWritten l (done (writeSlot l image s))

/-- A Mirror channel writes a line (R600, R616, R617): during a checkpoint, in a bank that took its cut,
only the cut image of a line still owed; else a dirty one. -/
def writeLine (l : Line) (check : WriteCheck) (s : State) : State :=
  let clean := fun (s : State) =>
    { s with durab := { s.durab with dirty := s.durab.dirty.filter (· ≠ l) } }
  let paid := fun (s : State) =>
    { s with durab := { s.durab with owed := s.durab.owed.filter (· ≠ l) } }
  match s.durab.ckpt with
  | some c =>
    if idBank l.bank ∈ c.cut then
      if l ∈ s.durab.owed then writeImage l c.image check paid s else s
    else if l ∈ s.durab.dirty then writeImage l s.dur check clean s
    else s
  | none => if l ∈ s.durab.dirty then writeImage l s.dur check clean s else s

/-- Mirror channel c mirrors banks 4c to 4c + 3 (R55, R600). -/
def mirrorStep (channel line : Nat) (check : WriteCheck) (s : State) : State :=
  onIslands [idMirror channel] (fun s =>
    if !s.dur.g.mirrorEnable || (lineOf line).channel != channel || 2 ^ 19 ≤ line then s
    else writeLine (lineOf line) check s) s

/-- DirtyBudget takes effect (R602, R606): a bank above the new quota engages the throttle, and one
below it releases what it held. -/
def setDirtyBudget (v : Nat) (s : State) : State :=
  let v := clamp 1 8 v
  let s := if s.dur.g.dirtyBudget = v then s else (s.modG fun g => { g with dirtyBudget := v }).touch (objectLine 701)
  let s := throttleRelease s
  if s.dur.g.mirrorEnable then
    throttleEngage ((List.range 32).filter fun b => decide (quota s < bankDirty s b)) s
  else s

/-! ### Roots (DU.3) -/

/-- A root has been committed: its slot map is the one in force (R614), LastRootEpoch, Checkpoints, ROOT_VALID, the
AutoCheckpoint timer. -/
def rootCommitted (epoch : Nat) (map : SlotMap) (s : State) : State :=
  let s := s.modG fun g => { g with lastRootEpoch := epoch }
  { s with durab := { s.durab with
    rootValid := true
    lastRootAt := s.now
    written := []
    current := map
    rootsCommitted := satAdd 64 s.durab.rootsCommitted 1 } }

/-- Lines written in lockstep stripes, each with its value in an image (R618, R636). -/
def writeStripes (image : Durable) (lines : List Line) (s : State) : State :=
  (lockstep (lines.map Line.la)).foldl
    (fun s stripe => stripe.foldl
      (fun s la =>
        let s := writeSlot (lineOf la) image s
        { s with durab := { s.durab with written := insertNew s.durab.written (lineOf la) } }) s) s

/-- A root over an image (R608, R612): what is still to be written goes to its next slots with the contexts, then both
copies are written. -/
def commitRoot (kind : RootKind) (epoch : Nat) (image : Durable) (lines : List Line) (s : State) : State :=
  let s := writeStripes image lines (writeContexts image s)
  let map := flipMap s s.durab.written
  rootCommitted epoch map { s with
    mram := s.mram.writeBoth (Place.of (headOf s kind epoch s.durab.written) map [] []) .complete }

/-! ### Checkpoints (DU.4) -/

/-- AUTO_CHECKPOINT: AutoCheckpoint ms have passed since the last root commit (R619). While a checkpoint is in progress
the next one answers the request (R618). -/
def execAutoCheckpoint (s : State) : Host.Outcome State Fault Refusal :=
  answer s fun s =>
    let g := s.dur.g
    if !s.running || !g.mirrorEnable || g.autoCheckpoint = 0 then s
    else requestRoot (s.elapseTo (s.durab.lastRootAt + 1000000 * g.autoCheckpoint))

/-- CUT_TOKEN: the token reaches an island whose clock runs, wakes it, and the island takes its cut (R615,
R668). -/
def execCutToken (island : Island) (s : State) : Host.Outcome State Fault Refusal :=
  answer s fun s =>
    match islandId island with
    | none => s
    | some i =>
      if s.durab.ckpt.isNone || !s.running || !s.clocked i then s
      else cutIsland i ((s.wakeUp i).busy i)

/-- The CHECKPOINT items that a root answers complete with its epoch (R501, R502). -/
def answerItems (epoch : Nat) (items : List (Nat × Nat)) (s : State) : State :=
  items.foldl
    (fun s (p : Nat × Nat) =>
      match (s.queue p.1).items.find? (fun it => it.slot == p.2 && it.wait == .root) with
      | some it => endOk p.1 it (leBytes 8 epoch) s
      | none => s) s

/-- Scan is entered once its root is committed (R745): pieces persistent, islands frozen, RDY 0. -/
def enterScan (s : State) : State :=
  let s := clearRdy (fenceReadsDone (persistAll s))
  { s with
    keeper := { s.keeper with scan := true, scanWanted := false }
    ledger := { s.ledger with stream := [] } }

/-- The end of a checkpoint (R612, R614, R618): the lines still owed are written, and both copies of its root. -/
def finishCheckpoint (c : Ckpt) (s : State) : State :=
  let s := commitRoot .checkpoint c.epoch c.image s.durab.owed s
  let s := { s with durab := { s.durab with ckpt := none, owed := [] } }
  let s := throttleRelease (answerItems c.epoch c.covers s)
  if s.durab.ckptWanted then startCheckpoint s
  else if s.keeper.scanWanted then enterScan s
  else s

/-- The root of a checkpoint is committed once every island has taken its cut (R612, R618). -/
def rootStep (s : State) : State :=
  onIslands ((List.range 8).map idMirror) (fun s =>
    match s.durab.ckpt with
    | none => s
    | some c => if (List.range 212).all fun i => decide (i ∈ c.cut) then finishCheckpoint c s else s) s

/-! ### MirrorEnable (R620, R621) -/

/-- MirrorEnable from 1 to 0: the roots are erased, mirroring stops, no root is written (R620). A
checkpoint under way ends without a root, and what it owed is dirty again; a SCAN_ENTER that waits for it goes on
without one (R745, log entry 52). -/
def mirrorOff (s : State) : State :=
  let covers := (s.durab.ckpt.map Ckpt.covers).getD []
  let s := { s with
    mram := s.mram.erase
    durab := { s.durab with
      rootValid := false
      ckpt := none
      ckptItems := covers ++ s.durab.ckptItems
      ckptWanted := s.durab.ckptWanted || s.durab.ckpt.isSome
      dirty := s.durab.dirty ++ s.durab.owed.filter (fun l => l ∉ s.durab.dirty)
      owed := [] } }
  let s := throttleRelease ((s.modG fun g => { g with mirrorEnable := false }).touch (objectLine 718))
  if s.keeper.scanWanted then enterScan s else s

/-- A root of KIND 3 (R610, R621): every line is written to slot 0, the map names slot 0 for each, and the root is
written into both places of each copy. It supersedes none, so that it flips nothing. -/
def commitMirrorStart (epoch : Nat) (s : State) : State :=
  let map : SlotMap := { lines := [], context := false }
  let head := { headOf s .mirrorStart epoch [] with prevEpoch := 0, flipped := 0, summary := [] }
  let p := Place.of head map [] []
  rootCommitted epoch map { s with
    mram := { s.mram with
      base := some (epoch % 2 ^ 32, markCut s (fun _ => true) s.dur)
      slots := s.mram.slots.filter fun x => x.1 % 2 == 1
      context0 := none
      a0 := some p, a1 := some p, b0 := some p, b1 := some p } }

/-- MirrorEnable from 0 to 1: every line is written to slot 0 and a root of KIND 3 is committed; the
CHECKPOINT items that waited are answered by it (R501, R621). -/
def mirrorOn (s : State) : State :=
  let s := (s.modG fun g => { g with mirrorEnable := true, epoch := g.epoch + 1 }).touch (objectLine 718)
  let items := s.durab.ckptItems
  let s := commitMirrorStart s.dur.g.epoch { s with durab := { s.durab with
    dirty := []
    owed := []
    ckptItems := []
    ckptWanted := false } }
  throttleRelease (answerItems s.dur.g.epoch items s)

/-- MirrorEnable written. -/
def setMirror (b : Bool) (s : State) : State :=
  if s.dur.g.mirrorEnable == b then s else if b then mirrorOn s else mirrorOff s

/-! ### The power warning (DU.5) -/

/-- What a qualified assertion of PWRWARN# does at the banks (R623, R625, R626): SN 0x10_1060, the restart of the
flush barrier, and the members' warning sources, raised by the Delivery islands in ascending TN. -/
def warnTargets (s : State) : State :=
  let s := s.raise 0x101060
  let tns := s.dur.targets.map Prod.fst
  let s := tns.foldl
    (fun s tn =>
      let t := s.tgt tn
      s.putTgt tn { t with
        flush := if t.warnMember then .waiting else .notMember
        warnArmed := false
        warnClaimed := false }) s
  let s := setFlush (fun g => { g with flushDone := false, warnRaised := g.warnChannel }) s
  let s :=
    if s.dur.g.warnEnable then
      (tns.filter fun tn => (s.tgt tn).warnMember).foldl
        (fun s tn => s.submit (idDelivery (tn / 64)) (gatherOf (warnSn s tn)) (.warn (warnSn s tn))) s
    else s
  flushCheck s

/-- PWRWARN_ASSERT (R145, R623): the Keeper sets WARN and both ports' POWER_WARN. Where the core has power and does not
run, what the banks do follows once recovery is complete (DEDUCED, log entry 78). -/
def execPwrwarnAssert (s : State) : Host.Outcome State Fault Refusal :=
  answer s fun s =>
    let s := { s with keeper := { s.keeper with pwrwarn := true } }
    if !s.powered then s
    else
      let s := { s with durab := { s.durab with warn := true } }.mgmt 8
      if s.running then warnTargets s else { s with keeper := { s.keeper with warnOwed := true } }

/-- PWRWARN_DEASSERT (R627). -/
def execPwrwarnDeassert (s : State) : Host.Outcome State Fault Refusal :=
  answer s fun s =>
    { s with
      keeper := { s.keeper with pwrwarn := false }
      durab := { s.durab with warn := false } }

/-! ### The Storm sequence (DU.6) -/

/-- A raise in flight whose cause is durable: a queue's, a timer's, the Ledger's, a Fault Ledger record's,
the barrier's, an item's (R634). -/
def owedRaise : Event → Option Event
  | .raise sn =>
    if (0x101100 ≤ sn && sn < 0x101400) || sn == 0x101070 || sn == 0x101061 then some (.raise sn) else none
  | .ipi sn q slot => some (.ipi sn q slot)
  | _ => none

/-- The raises in flight that the senders' contexts record at the cut (R634). -/
def owedRaises (s : State) : List Event :=
  (s.fabric.updateQ ++ s.fabric.gatherQ ++ s.fabric.submitHeld).flatMap fun p =>
    p.2.filterMap fun x => owedRaise x.body

/-- What waits in a Link island that can still issue is issued before the cut (R366, DU.6.1). -/
def issueAll (p : Port) (s : State) : State :=
  if (s.port p).canIssue then
    (s.port p).out.foldl (fun s r => r.emitTo p s) (s.modPort p fun x => { x with out := [] })
  else s

/-- The acceptance of a class's claim that is on its way or waits, with NOTE_LOST. -/
def acceptedOnTheWay (s : State) (tn : Nat) (c : Cls) : Option Bool :=
  match (s.dslot tn c).accepted with
  | some (lost, _) => some lost
  | none =>
    let fromN := (mget [] s.fabric.notifyQ (tn / 256)).findSome? fun n =>
      match n.body with
      | .answer t k _ true lost _ => if t == tn && k == c then some lost else none
      | _ => none
    let fromS := (mget [] s.fabric.selectQ (tn / 64)).findSome? fun n =>
      match n.body with
      | .answer t k _ true lost _ => if t == tn && k == c then some lost else none
      | _ => none
    fromN.orElse fun _ => fromS

/-- Step 4 of Table DU-3 for a class: a claim read that awaits its answer receives it. -/
def stormSettle (s : State) (key : Nat) : State :=
  let tn := key / 2
  let c := Cls.at (key % 2)
  let s :=
    match acceptedOnTheWay s tn c with
    | some lost => finishClaim tn c lost false s
    | none => s
  let d := s.dslot tn c
  (d.claiming.toList ++ d.claimQ).foldl (fun s r => s.answerRead r 0)
    (s.modSlot tn c fun d => { d with claiming := none, accepted := none, claimQ := [] })

/-- The timers of an island run on after a pause of `dt`: a lane watchdog or a pin's qualification (R221), the Louvre
and the Active watchdog, an armed timer and the poll tick (R743). -/
def pauseShift (i dt : Nat) (s : State) : State :=
  let s := s.modIsland i fun p => { p with lastBusy := p.lastBusy + dt }
  if i < 56 then s.modLane i fun l => { l with lastApplied := l.lastApplied + dt }
  else if i < 64 then
    { s with wired := { s.wired with
      pinSince := (List.range 64).foldl
        (fun m k => mput 0 (64 * (i - 56) + k) (s.pinSince (64 * (i - 56) + k) + dt + 1) m) s.wired.pinSince } }
  else if 112 ≤ i && i < 176 then
    s.modFabric fun x => { x with dslots := x.dslots.map fun (k, d) =>
      if k / 2 / 64 = i - 112 then
        (k, { d with lastWake := d.lastWake.map (· + dt), wdog := d.wdog.map (· + dt) })
      else (k, d) }
  else if 176 ≤ i && i < 192 then
    let s := s.modDur fun d => { d with timers := d.timers.map fun (t, v) =>
      if t / 16 = i - 176 then (t, { v with due := v.due + dt }) else (t, v) }
    { s with queues := { s.queues with vol := s.queues.vol.map fun (q, v) =>
      if q / 16 = i - 176 then (q, { v with lastTick := v.lastTick + dt }) else (q, v) } }
  else s

/-- Every halted island resumes (R743); the Storm sequence overrides a Halt so (R631). -/
def releaseHalts (s : State) : State :=
  let s := s.dap.haltedAt.foldl (fun s p => pauseShift p.1 (s.now + 1 - p.2) s) s
  { s with dap := { s.dap with halted := [], haltedAt := [] } }

/-- Steps 2 to 5 of Table DU-3: RDY falls, the Hatch is aborted, the Shutter closes, deliveries settle,
the epoch advances at the cut (R613, R630 to R635). -/
def stormCut (vhold : Nat) (s : State) : State :=
  let s := releaseHalts s
  let s := { s with keeper := { s.keeper with pstate := .p3 } }
  let s := setShutter true (abortHatch 3 (clearRdy s))
  let s := issueAll .b (issueAll .a s)
  let s := (s.fabric.dslots.map Prod.fst).foldl stormSettle s
  let owed := owedRaises s
  let s := s.modDur fun d => { markCut s (fun _ => true) d with owedRaises := owed }
  s.modG fun g => { g with
    epoch := g.epoch + 1
    stormCount := satAdd 64 g.stormCount 1
    vholdAtStorm := vhold % 65536 }

/-- A line of the capture (R638, R639): written to its next slot, or to a spare of its channel where the write failed,
or to neither where no spare is left, which keeps its current slot. -/
def captureLine (failed : List Nat) (x : State × List Nat) (la : Nat) : State × List Nat :=
  let (s, lost) := x
  let l := lineOf la
  let bad := decide (la ∈ failed)
  if bad && mget 32 s.mram.spares l.channel == 0 then
    ({ s with durab := { s.durab with written := s.durab.written.filter (· ≠ l) } }, lost ++ [la])
  else
    let s := if bad then retireSlot la s else s
    let s := if l.isContext then s else
      let t := writeSlot l s.dur s
      { t with durab := { t.durab with written := insertNew t.durab.written l } }
    (s, lost)

/-- The lines that the capture writes (R633, R636): dirty, or owed to the checkpoint that it abandons. -/
def captureLines (s : State) : List Line :=
  s.durab.dirty ++ s.durab.owed.filter fun l => l ∉ s.durab.dirty

/-- The stripes of the Storm sequence (R636 to R639): the context lines, then the lines to capture, in lockstep; with
the lines that found no spare. -/
def capture (i : StormInput) (s : State) : State × List Nat :=
  let contexts := (i.failed.filter fun la => (lineOf la).isContext).foldl (captureLine i.failed)
    (writeContexts s.dur s, [])
  (lockstep ((captureLines s).map Line.la)).foldl
    (fun x stripe => stripe.foldl (captureLine i.failed) x) contexts

/-- STRIPE_MAP (Table DU-2): the lines that each channel wrote in the capture, its 256 context lines among them, with
bit 31 where a line was lost (R639), and its data stripes. -/
def stripeMap (lines : List Line) (lost : List Nat) : SMap (Nat × Nat) :=
  (List.range 8).map fun c =>
    let n := (lines.filter fun l => l.channel == c).length
    let gone := (lost.filter fun la => (lineOf la).channel == c).length
    (c, 256 + n - gone + (if gone = 0 then 0 else 2 ^ 31), stripeCount n)

/-- The Storm root (R612, R633, R636 to R642). -/
def stormRoot (i : StormInput) (s : State) : State :=
  let lines := captureLines s
  let before := s.mram.spares
  let (s, lost) := capture i s
  let retries := i.retries.foldl (fun m p => mmod 0 m p.1.val (satAdd 64 · p.2)) s.durab.retries
  let s := { s with durab := { s.durab with retries := retries } }
  let stripes := stripeMap lines lost
  let head := { headOf s .storm s.dur.g.epoch s.durab.written with
    stripes := stripes.foldl (fun n p => max n p.2.2) 0
    retries := i.retries.foldl (fun n (p : Fin 8 × Nat) => n + p.2) 0
    captureUs := i.captureUs % 2 ^ 32
    stripeMap := stripes }
  let retired := (List.range 8).filter fun c => mget 32 s.mram.spares c != mget 32 before c
  { s with mram := s.mram.writeBoth (Place.of head (flipMap s s.durab.written) lost retired) i.ending }

/-- The Storm sequence from P0, P1 or P2 to its last step (DU.6.3): with MirrorEnable 0 or Scan active
it writes no root (R620, R632). -/
def stormSequence (i : StormInput) (s : State) : State :=
  let scan := s.keeper.scan
  let s := stormCut i.vhold10mV s
  let s := dropStreams (persistAll s)
  let s := if s.dur.g.mirrorEnable && !scan then stormRoot i s else s
  { s with now := s.now + 1000 * i.captureUs }

/-! ### The choice of a root at recovery (DU.7.1) -/

/-- What recovery reads of the mirror (R611, R644, R646, Table DU-4). -/
structure Chosen where
  root : Option Place
  used : Nat
  conflict : Bool
  benign : Bool
  torn : Bool
  deriving DecidableEq, Repr

/-- A byte that recovery consults differs between two places (Table DU-2). -/
def Place.differs (x y : Place) : Bool := x.head != y.head || x.mapCrc != y.mapCrc || x.format != y.format

/-- The root chosen from the two copies (Table DU-4); TORN_ROOT as R646 gives it. -/
def chooseRoot (b : BootInput) (m : Mram) : Chosen :=
  let torn := fun (epoch : Nat) =>
    [m.a0, m.a1, m.b0, m.b1].any fun p =>
      p.any fun (x : Place) => x.magic == rootMagic && !x.badHead && decide (epoch < x.head.epoch) && !x.valid
  let pick := fun (p : Place) (used : Nat) (conflict benign : Bool) =>
    { root := some p, used := used, conflict := conflict, benign := benign, torn := torn p.head.epoch : Chosen }
  match newestOf m.a0 m.a1, newestOf m.b0 m.b1 with
  | some x, some y =>
    let conflict := b.conflict || x.differs y
    if x.head.epoch < y.head.epoch then pick y 2 false false
    else if y.head.epoch < x.head.epoch then pick x 1 false false
    else pick x 1 conflict (!conflict && b.benignBytes != 0)
  | some x, none => pick x 1 false false
  | none, some y => pick y 2 false false
  | none, none => { root := none, used := 0, conflict := false, benign := false, torn := false }

/-! ### Restoring (DU.7.2) -/

/-- An item as recovery finds it (Table WI-14): ended where its progress is lost or its kind says so, else to be resumed;
one that had not begun is finished once its queue runs and its checks are made (R450, R459). -/
def recoverItem (epoch : Nat) (it : Item) : Item :=
  let done := fun (code : Nat) (result : List Byte) =>
    { it with
      ending := some { code := code, result := result, step := completionStep it.kind }
      issued := true
      wait := .nothing
      recovered := true }
  let on := { it with
    wait := if it.wait == .raises || it.wait == .pieces then it.wait else .nothing
    recovered := true }
  if it.ending.isSome then { on with wait := .nothing }
  else if it.kind = 9 then done 1 (leBytes 8 epoch)
  else if it.step = 0 then on
  else
    match lostProgress it with
    | some (code, result) => done code result
    | none => on

/-- A Swing that had not passed its boundary gives up the staging area (Table WI-14). -/
def recoverSwing (w : Swing) : Swing :=
  if w.folding then { w with waiting := [], folding := true }
  else .initial

/-- The stand-alone objects of lines of zeros (R648). -/
def Globals.zero : Globals :=
  { linkARooms := 0, linkBRooms := 0, sbHatchWait := 0, roomEnable := 0, noteLimit := 0, reach := List.replicate 16 0,
    wdogN := 0, wdogF := 0, eoiRaise := false, crcEnforce := 0, faultRaise := false, mirrorEnable := false,
    dirtyBudget := 0, autoCheckpoint := 0, warnEnable := false, warnChannel := 0, ceiling := 0, dozeDelay := 0,
    retainDelay := 0, hostMirror := { enable := false, port := .a, room := 0, first := 0, count := 0, base := 0 },
    imageLastSequence := 0, imageLastDigest := List.replicate 64 0, epoch := 0, lastRootEpoch := 0, rootBenign := 0,
    stormCount := 0, vholdAtStorm := 0, flushDone := false, warnRaised := 0 }

/-- The durable state of lost lines: every record in them is zeros (R648). -/
def Durable.zeros (lost : List Line) : Durable :=
  let pin : PinCfg := { mode := 0, filter := 0 }
  let lane : LaneCfg := { LaneCfg.initial with timeout := 0 }
  let queue : Queue := { Queue.initial with sizeLog2 := 0, interval := 0 }
  let on := fun (base n : Nat) => (List.range n).filter fun k => decide (objectLine (base + k) ∈ lost)
  { Durable.initial with
    pins := (on 1000 512).map fun k => (k, pin)
    lanes := (on 1600 56).map fun k => (k, lane)
    queues := ((List.range 256).filter fun q => decide (ctxLine (idQueue (q / 16)) ∈ lost)).map fun q => (q, queue)
    g := Globals.zero
    lost := lost }

/-- The notes of a source that lie in lost lines are zeros (R648). -/
def zeroNotes (lost : List Line) (sn : Nat) (r : Source) : Source :=
  let note := fun (n : List Byte × Nat) =>
    if noteLine sn (r.noteHead + n.2) ∈ lost then n.1.map (fun _ => (0 : Byte)) else n.1
  { r with notes := r.notes.zipIdx.map note }

/-- Lost lines are restored as zeros (R648). -/
def zeroLost (lost : List Line) (d : Durable) : Durable :=
  if lost.isEmpty then d
  else
    let d := Durable.merge (fun l => decide (l ∈ lost)) (Durable.zeros lost) d
    { d with sources := d.sources.map fun p => (p.1, zeroNotes lost p.1 p.2) }

/-- The read of a slot (R597, R598, R648): it is lost where its words cannot be read, or its tag holds another line or an
epoch above the root's. -/
def slotLost (errors : List WordError) (epoch la : Nat) (x : Option Slot) : Bool :=
  match x with
  | none => true
  | some x => slotUnreadable errors la || x.la != la || decide (epoch % 2 ^ 32 < x.epoch)

/-- A line read from its current slot into the durable region; a lost one is noted. -/
def readLine (errors : List WordError) (m : Mram) (p : Place) (acc : Durable × List Nat) (la : Nat) :
    Durable × List Nat :=
  let x := m.slot la (p.map.bit la)
  if slotLost errors p.head.epoch la x then (acc.1, acc.2 ++ [la])
  else (Durable.merge (fun l => l == lineOf la) ((x.map Slot.value).getD .initial) acc.1, acc.2)

/-- The lines whose reads differ from what the last root of KIND 3 wrote: written since, named in slot 1, or read with an
error. -/
def linesToRead (errors : List WordError) (m : Mram) (p : Place) : List Nat :=
  (m.slots.map (fun (x : Nat × Option Slot) => x.1 / 2) ++ p.map.lines ++ errors.map WordError.line).filter fun la => !(lineOf la).isContext

/-- The durable region read from the slots that a root's map names, in lockstep stripes (R647), with the lines lost
(R648) and those that the root gives as lost (R639). -/
def readMirror (errors : List WordError) (m : Mram) (p : Place) : Durable × List Nat :=
  let base := (m.base.map Prod.snd).getD .initial
  let context := ((m.context p.map.context).map Slot.value).getD .initial
  let contextLost := ((errors.map WordError.line).filter fun la =>
    (lineOf la).isContext && slotUnreadable errors la).foldl (fun l x => insertSorted x l) []
  let x := (lockstep (linesToRead errors m p)).foldl
    (fun acc stripe => stripe.foldl (readLine errors m p) acc)
    (Durable.merge Line.isContext context base, contextLost)
  (x.1, x.2 ++ p.lost.filter fun la => la ∉ x.2)

/-- Words that recovery's reads of a channel's slots corrected, and rebuilt (R598). -/
def correctedWords (errors : List WordError) (c : Nat) : Nat × Nat :=
  let mine := errors.filter fun e => (lineOf e.line).channel == c
  let rebuilt := mine.filter fun e => e.double && !slotUnreadable errors e.line
  ((mine.filter fun e => !e.double).length, rebuilt.length)

/-- The durable state restored from a root: contexts returned, ENABLE 0 everywhere, the epoch that of the root
(R635, R649, R824). -/
def restoreImage (p : Place) (d : Durable) : Durable :=
  { d with
    targets := d.targets.map fun t => (t.1, { t.2 with enable := false })
    queues := d.queues.map fun q => (q.1, { q.2 with items := q.2.items.map (recoverItem p.head.epoch) })
    swing := recoverSwing d.swing
    g := { d.g with epoch := p.head.epoch, lastRootEpoch := p.head.epoch } }

/-- RDY becomes 1: the timers run on with the time that remained at the cut (R491). -/
def resumeTimers (s : State) : State :=
  if s.durab.timersHeld then
    let s := s.modDur fun d => { d with timers := d.timers.map fun p => (p.1, { p.2 with due := p.2.due + s.now }) }
    { s with durab := { s.durab with timersHeld := false } }
  else s

/-- Recovery's target reset: every Active source returns to Pending, moved to its fallback where R384
allows it, and every TARGET_STATUS shows RESET (R382, R628, R649). -/
def recoverTargets (s : State) : State :=
  let active := s.dur.sources.filterMap fun p =>
    match p.2.state, p.2.holder with
    | .active, some (tn, c) => some (p.1, tn, c)
    | _, _ => none
  let s := active.foldl (fun s (x : Nat × Nat × Cls) => releaseSource false x.2.1 x.2.2 x.1 s) s
  s.modFabric fun x => { x with
    tstatus := (List.range 4096).map fun tn => (tn, Per3.const (4 : BitVec 3)) }

/-- Each Rank island is notified of every Pending source (R649). -/
def notifyPending (s : State) : State :=
  (s.dur.sources.filter fun p => p.2.state == .pending).foldl
    (fun s p =>
      let r := s.src p.1
      s.notifyRoute p.1 r.target r.cls (some (candOf r))) s

/-- Every queue is DISABLED with RECOVERED 1 (R449). -/
def recoverQueues (s : State) : State :=
  { s with queues := {
      vol := (List.range 256).map fun q => (q, { QVol.initial with recovered := true })
      engine := [] } }

/-- The faults of Mirror channels, each raised once (R654). -/
def mirrorFaults (channels : List Nat) (s : State) : State :=
  ((List.range 8).filter fun c => decide (c ∈ channels)).foldl (fun s c => mirrorFault c s) s

/-- A raise that a sender's context owes is made again (R634): an item's still counts as that item's (R464). -/
def raiseAgain (s : State) (e : Event) : State :=
  match e with
  | .raise sn => s.raise sn
  | .ipi sn q slot => s.submit (idQueue (q / 16)) (gatherOf sn) (.ipi sn q slot)
  | _ => s

/-- The recovered path, up to the commit of its root (R645 to R649). A lost line is dirty: its zeros stand in no slot. -/
def restoreRoot (b : BootInput) (c : Chosen) (p : Place) (s : State) : State :=
  let (d, lostLas) := readMirror b.errors s.mram p
  let lost := lostLas.map lineOf
  let s := { s with dur := restoreImage p (zeroLost lost d) }
  let s := s.modG fun g => { g with
    rootBenign := if c.benign then satAdd 64 g.rootBenign b.benignBytes else g.rootBenign }
  let words := (List.range 8).map fun ch => (ch, correctedWords b.errors ch)
  let s := { s with durab := { s.durab with
    timersHeld := true
    dirty := lost.filter fun l => !l.isContext
    current := p.map
    corrected := words.foldl (fun m w => mmod 0 m w.1 (satAdd 64 · (w.2.1 + w.2.2))) s.durab.corrected
    rootUsed := c.used
    conflict := c.conflict
    benign := c.benign
    torn := c.torn
    degraded := !lost.isEmpty
    rootKind := p.head.kind
    rootEpoch := p.head.epoch
    benignBytes := if c.benign then b.benignBytes % 2 ^ 32 else 0
    repCorrected := (words.foldl (fun n w => n + w.2.1) 0) % 2 ^ 32
    repRebuilt := (words.foldl (fun n w => n + w.2.2) 0) % 2 ^ 32
    lostLines := lost.length
    repCaptureUs := p.head.captureUs } }
  let s := lanesAfterRecovery (recoverQueues s)
  let s := notifyPending (recoverTargets s)
  let owed := s.dur.owedRaises
  let s := owed.foldl raiseAgain (s.modDur fun d => { d with owedRaises := [] })
  backlogAll (mirrorFaults (lost.map Line.channel ++ p.retired) s)

/-- The first-boot path (Table BU-5): the durable region at its first-boot values, the epoch 1. -/
def firstBoot (s : State) : State := { s with dur := .initial }

/-- A restart of the durable state at a Keeper release (R644, R782). What the reads find unreadable in the places stays
so until a root is written there (R610). -/
def restoreState (b : BootInput) (s : State) : State :=
  let s := { s with mram := s.mram.marked b.badPlaces }
  let c := chooseRoot b s.mram
  match c.root with
  | some p =>
    { restoreRoot b c p s with
      keeper := { s.keeper with restoring := true, restoreKind := .recovery } }
  | none =>
    let s := firstBoot s
    { s with keeper := { s.keeper with restoring := true, restoreKind := .mirrorStart } }

/-- The commit that ends the restart: KIND 2 after a recovery, which advances the epoch at its cut
(R613, R650), KIND 3 with EPOCH 1 after a first boot (Table BU-5). -/
def restoreCommit (s : State) : State :=
  match s.keeper.restoreKind with
  | .mirrorStart => commitMirrorStart s.dur.g.epoch s
  | _ =>
    if s.dur.g.mirrorEnable then
      let s := s.modG fun g => { g with epoch := g.epoch + 1 }
      let s := commitRoot .recovery s.dur.g.epoch (markCut s (fun _ => true) s.dur) s.durab.dirty s
      { s with durab := { s.durab with dirty := [], owed := [] } }
    else s

end Sys2Proof.Machine
end

