-- ==== Sys2Proof/Machine/Boot.lean ====
section
/-!
DEFINITION. Bring-up and reset (BU), the platform inputs and supplies (EL.2, EL.4.3), the clock
generators (IH.8) and the ports' link, power-management and reset events (BU.1.1, PW.5).
-/

namespace Sys2Proof.Machine

open Sys2Proof

/-! ### The core loses its state -/

/-- The debug grant at every start and after an event that ends it: 3 in Provisioning, else 0 (R719, R732, DC.13). -/
def baseGrant (s : State) : Nat := if s.nv.sec = .provisioning then 3 else 0

/-- A byte whose persistence the manual leaves open after a stop without a cut. -/
def freeByte (s : State) : Byte := BitVec.ofNat 8 (Config.freeNat s.free)

/-- Enabled bytes that may or may not have become persistent: free values. -/
def freeBytes : Nat → List Bool → State → State
  | _, [], s => s
  | a, e :: es, s =>
    freeBytes (a + 1) es
      (if e then
        (s.modLedger fun l => { l with mem := Memory.write l.mem a (freeByte s) }).draw
      else s)

/-- The pieces still in a Ledger island when the core stops without a cut are persistent or not, byte by
byte (R682, R794 write nothing; R587 speaks of a cut only). -/
def loseInbox (s : State) : State :=
  (s.ledger.inbox.foldl (fun s p => freeBytes (64 * p.line) p.enables s) s).modLedger fun l =>
    { l with inbox := [], stream := [] }

/-- A port whose link is down and whose function is reset; its PERST# ball stays as it is. -/
def PortState.down (p : PortState) : PortState := { PortState.initial with perst := p.perst }

/-- What a Ledger keeps when the core loses its state: its bytes, wear and map (R589, R831), and whether
a tamper closed it (R724). -/
def Ledger.kept (l : Ledger) : Ledger :=
  { Ledger.initial with
    mem := l.mem, bad := l.bad, closed := l.closed, pageMap := l.pageMap,
    pageRotation := l.pageRotation, pageWrites := l.pageWrites, retired := l.retired,
    spares := l.spares, relocations := l.relocations, corrected := l.corrected,
    uncorrectable := l.uncorrectable }

/-- The core stops and its volatile state is gone (Table DS-3, R772). What the Keeper, the mirror MRAM
and the Ledger hold stays. A zeroization under way is pending again (R728). -/
def coreOff (s : State) : State :=
  { s with
    held := []
    dur := .initial
    durab := .initial
    power := .initial
    fabric := .initial
    wired := .initial
    queues := { vol := [], engine := [] }
    xlate := .initial
    ledger := s.ledger.kept
    portA := s.portA.down
    portB := s.portB.down
    conduct := ⟨.initial, .initial, .initial⟩
    auth := ⟨.initial, .initial, .initial⟩
    scratch := 0
    hatch := .initial
    sideband := .initial
    image := .initial
    nv := { s.nv with recording := none, zeroizePending := s.nv.zeroizePending || s.keeper.zeroizing }
    dap := { s.dap with halted := [], haltedAt := [], grant := baseGrant s }
    keeper := { s.keeper with
      pstate := .p4
      rdy := false
      recovered := false
      serving := false
      romChecked := false
      bootFail := false
      restoring := false
      lockStopped := false
      zeroizing := false
      warnOwed := false
      scan := false
      scanWanted := false } }

/-- A stop without a cut. -/
def stopWithoutCut (s : State) : State := coreOff (loseInbox s)

/-! ### Supplies and platform inputs -/

/-- COLD_POWER_ON: VDD_AUX enters its range from below (Table BU-1). A Lockdown-to-Sealed request that
was pending takes effect (R696), and the Ledger opens again (R724). -/
def execColdPowerOn (s : State) : Host.Outcome State Fault Refusal :=
  answer s fun s =>
    let s := stopWithoutCut s
    let nv := { s.nv with
      sec := if s.nv.pendingSealed then SecState.sealed else s.nv.sec
      pendingSealed := false }
    let s := { s with
      nv := nv
      keeper := { Keeper.initial with auxAt := s.now }
      conduct := ⟨.initial, .initial, .initial⟩
      ledger := { s.ledger with closed := false }
      dap := .initial }
    { s with dap := { s.dap with grant := baseGrant s } }

/-- STRAP_SAMPLE: 1 ms after VDD_AUX is in range the straps are sampled, once (R773, Table BU-7). -/
def execStrapSample (straps : BitVec 5) (s : State) : Host.Outcome State Fault Refusal :=
  answer s fun s =>
    let k := s.keeper
    if !k.vddAux || k.strapsSampled then s
    else
      let s := s.elapseTo (k.auxAt + 1000000)
      { s with keeper := { s.keeper with
        strapsSampled := true
        straps := { sbMode := straps.getLsbD 0
                    sbAddr := bits straps.toNat 2 1
                    refsel := straps.getLsbD 3
                    testEn := straps.getLsbD 4 } } }

/-- VDD_AUX_LOSS: the core stops without a cut, the Keeper is unpowered (R794). -/
def execVddAuxLoss (s : State) : Host.Outcome State Fault Refusal :=
  answer s fun s =>
    let s := stopWithoutCut s
    { s with keeper := { Keeper.initial with vddAux := false } }

/-- VDD_CORE_LOSS: P4 at once, no root (R682); counted unless a qualified PWRFAIL# came first (R763). -/
def execVddCoreLoss (s : State) : Host.Outcome State Fault Refusal :=
  answer s fun s =>
    if !s.keeper.vddCore then s
    else
      let counted := !s.keeper.pwrfail && s.powered
      let s := if s.powered then stopWithoutCut s else s
      { s with keeper := { s.keeper with
        vddCore := false
        stormEndAt := none
        nextCause := 2
        unqualifiedLoss :=
          if counted then satAdd 32 s.keeper.unqualifiedLoss 1 else s.keeper.unqualifiedLoss } }

/-- The controller is in P0, P1 or P2. -/
def State.inRun (s : State) : Bool :=
  match s.keeper.pstate with
  | .p0 | .p1 | .p2 => true
  | _ => false

/-- What a Storm sequence leaves of a requester's copies: the Hatch abort that it logged itself (R143, R209). -/
def Conduct.afterStorm (aborted : Bool) (c : Conduct) : Conduct :=
  { Conduct.initial with abortLog := if aborted then c.abortLog else Conduct.initial.abortLog }

/-- The Storm sequence runs to its end (R630, R643): P4, and the Keeper may restart the core 1 ms later
if power stayed. -/
def runStorm (i : StormInput) (s : State) : State :=
  let aborted := s.hatch.owner.isSome
  let t := stormSequence i s
  let s := { coreOff t with conduct := t.conduct.all (Conduct.afterStorm aborted) }
  { s with keeper := { s.keeper with
    nextCause := 2
    vddCore := i.ending == .complete
    stormEndAt := if i.ending = .complete then some s.now else none } }

/-- A core that a tamper's ZEROIZE_ALL or a lasting loss of lock stopped writes nothing (R83, R726). -/
def stormOrStop (i : StormInput) (s : State) : State :=
  if s.keeper.ramStopped then coreOff s else if s.keeper.lockStopped then stopWithoutCut s else runStorm i s

/-- PGOOD_ASSERT: PGOOD is qualified (R776). -/
def execPgoodAssert (s : State) : Host.Outcome State Fault Refusal :=
  answer s fun s =>
    if !s.keeper.vddAux || s.keeper.pgood then s
    else { s with keeper := { s.keeper with pgood := true, pgoodAt := s.now } }

/-- PGOOD_DEASSERT (R781): the Storm sequence from P0 to P2, the end of the start from P5. -/
def execPgoodDeassert (storm : StormInput) (s : State) : Host.Outcome State Fault Refusal :=
  answer s fun s =>
    let s := { s with keeper := { s.keeper with pgood := false } }
    if s.inRun && !s.keeper.pwrfail then stormOrStop storm s
    else if s.keeper.pstate = .p5 then stopWithoutCut s
    else s

/-- PWRFAIL: a qualified assertion of PWRFAIL# (R630, R652, R655). -/
def execPwrfail (storm : StormInput) (s : State) : Host.Outcome State Fault Refusal :=
  answer s fun s =>
    if !s.keeper.vddAux then s
    else
      let s := { s with keeper := { s.keeper with pwrfail := true } }
      if s.inRun then stormOrStop storm s
      else if s.keeper.pstate = .p5 then stopWithoutCut s
      else s

/-! ### The Keeper release (BU.3) and recovery -/

/-- A Keeper reset clears DB_ROOM0 and DB_SILLCRC and returns the KPR objects that are not the Keeper
store's to their defaults (Table BU-1, Table CN-5). One that follows a tamper cancels a pending transition (R696). -/
def keeperResetClears (s : State) : State :=
  { s with
    nv := { s.nv with pendingSealed := s.nv.pendingSealed && !s.keeper.tampered }
    keeper := { s.keeper with
    deadbolts := s.keeper.deadbolts &&& 0b10110
    alertSelect := []
    tjExcursions := 0
    unqualifiedLoss := 0 } }

/-- Power states as PSTATE and TamperLog number them (Table PW-1). -/
def PState.num : PState → Nat
  | .p0 => 0
  | .p1 => 1
  | .p2 => 2
  | .p3 => 3
  | .p4 => 4
  | .p5 => 5

/-- The state that PowerCeiling holds (R657, R681). -/
def ceilingState (s : State) : PState :=
  if s.dur.g.ceiling = 0 then .p0 else if s.dur.g.ceiling = 1 then .p1 else .p2

/-- A tamper entered in both copies of the Keeper's store (R689): Lockdown, the log and the count (R694, Table SD-13).
The Keeper remembers it until the next cold power-on (R696). -/
def recordTamper (cause action pstate zeroize epoch : Nat) (s : State) : State :=
  { s with keeper := { s.keeper with tampered := true }, nv := { s.nv with
    sec := .lockdown
    pendingSealed := false
    recording := none
    mark := none
    tamperCount := satAdd 32 s.nv.tamperCount 1
    tamperLog := { cause := cause, action := action, pstate := pstate, zeroize := zeroize,
                   epoch := epoch } } }

/-- Step 2 of Table SD-7: the store is checked (R707), a tamper mark is recorded (R694), a pending
zeroization begins (R727, R728). -/
def bootStore (b : BootInput) (s : State) : State :=
  let s :=
    if b.storeBadA && b.storeBadB then
      let s := recordTamper 3 s.nv.tamperAction 5 0 0 s
      { s with nv := { s.nv with ownerKey := List.replicate 64 0 } }
    else s
  let s :=
    match s.nv.mark with
    | none => s
    | some (cause, action, pstate) =>
      let s := recordTamper cause action pstate (if action = 0 then 0 else 1) 0 s
      { s with nv := { s.nv with
        zeroizePending := s.nv.zeroizePending || decide (action ≠ 0)
        zeroizeRoots := s.nv.zeroizeRoots || decide (action = 2) } }
  let s := if s.nv.zeroizeRoots then { s with mram := s.mram.erase } else s
  if s.nv.zeroizePending then
    { s with
      keeper := { s.keeper with zeroizing := true }
      nv := { s.nv with
        zeroizeRoots := false
        tamperLog := { s.nv.tamperLog with zeroize := 2 } }
      ledger := { s.ledger with closed := true } }
  else s

/-- The controller becomes ready: recovery or first boot is complete and the Management island serves
requests (R779). -/
def checkReady (s : State) : State :=
  let k := s.keeper
  if s.inRun && !k.restoring && k.serving && !k.rdy && !k.lockStopped && !k.ramStopped && !k.scan then
    (resumeTimers { s with keeper := { s.keeper with rdy := true } }).mgmt 0
  else s

/-- The Keeper releases the core (R776): P5, the store's check, the choice of a root, and the restoring
or the first boot up to the commit that ends it. -/
def release (b : BootInput) (s : State) : State :=
  let cause := s.keeper.pendingReset.getD s.keeper.nextCause
  let s := if s.keeper.pendingReset.isSome then
      { keeperResetClears s with conduct := ⟨.initial, .initial, .initial⟩ }
    else s
  let s := { coreOff s with conduct := s.conduct }
  let k := s.keeper
  let s := { s with
    portA := { s.portA with ready := !s.portA.perst }
    portB := { s.portB with ready := !s.portB.perst }
    keeper := { k with
      pstate := .p5
      vddCore := true
      vddio := true
      pwrfail := false
      pendingReset := none
      stormEndAt := none
      nextCause := 2 } }
  let s := restoreState b (bootStore b { s with durab := { s.durab with warn := s.keeper.pwrwarn } })
  { s with keeper := { s.keeper with
    holdupLow := decide (b.vholdMv < 5000)
    resetCause := { cause := cause
                    recovered := s.keeper.restoreKind = .recovery
                    holdupLow := decide (b.vholdMv < 5000)
                    ms := (s.now - s.keeper.pgoodAt) / 1000000 % 65536 } } }

/-- The release may come (R775, R776, R726): in P4, with PGOOD, supplies and reference, and the straps
sampled with TEST_EN 0. -/
def mayRelease (b : BootInput) (s : State) : Bool :=
  let k := s.keeper
  k.vddAux && k.strapsSampled && !k.straps.testEn && k.pgood && k.pstate == .p4 && !k.ramStopped &&
    b.supplies && b.reference

/-- Until VHOLD reaches 5.0 V the Keeper waits, at most 250 ms from PGOOD (R776). -/
def waitVhold (b : BootInput) (s : State) : State :=
  if b.vholdMv < 5000 then s.elapseTo (s.keeper.pgoodAt + 250000000) else s

/-- KEEPER_RELEASE (R776). -/
def execKeeperRelease (boot : BootInput) (s : State) : Host.Outcome State Fault Refusal :=
  answer s fun s => if mayRelease boot s then release boot (waitVhold boot s) else s

/-- STORM_RESTART: 1 ms after a Storm sequence has ended with every supply in range (R643). -/
def execStormRestart (boot : BootInput) (s : State) : Host.Outcome State Fault Refusal :=
  answer s fun s =>
    match s.keeper.stormEndAt with
    | none => s
    | some t =>
      if mayRelease boot s then release boot (waitVhold boot (s.elapseTo (t + 1000000))) else s

/-- RECOVERY_COMPLETE: the root that ends the restart is committed and P5 ends (R650, R651, R681). A
first boot ends likewise, with its KIND 3 root and RECOVERED 0 (Table BU-5). -/
def execRecoveryComplete (s : State) : Host.Outcome State Fault Refusal :=
  answer s fun s =>
    if s.keeper.pstate != .p5 || !s.keeper.restoring || s.keeper.lockStopped then s
    else
      let back := s.keeper.restoreKind == .recovery
      let s := restoreCommit s
      let s := { s with keeper := { s.keeper with
        restoring := false
        recovered := back
        pstate := ceilingState s } }
      let s := if back then (s.raise 0x101063).mgmt 11 else s
      let s := if s.keeper.warnOwed then
          warnTargets { s with keeper := { s.keeper with warnOwed := false } }
        else s
      checkReady (startSampling s)

/-- BOOT_ROM_VERIFY: the digest of the Management boot ROM has been compared (R705, R708, R779). -/
def execBootRomVerify (isMatch : Bool) (s : State) : Host.Outcome State Fault Refusal :=
  answer s fun s =>
    let k := s.keeper
    if !s.powered || k.romChecked || k.ramStopped || !k.vddCore then s
    else if isMatch then
      checkReady { s with keeper := { k with romChecked := true, serving := true } }
    else { s with keeper := { k with romChecked := true, bootFail := true } }

/-! ### Keeper resets (BU.1) -/

/-- A Keeper reset of MODE DISCARD with its cause (R766, R768, R769): the pieces in Ledger islands are
persistent, RDY falls, the core stops without a cut and both links go down. -/
def keeperDiscard (cause : Nat) (s : State) : State :=
  if s.keeper.ramStopped || !s.keeper.vddAux then s
  else if s.keeper.pstate = .p4 then { s with keeper := { s.keeper with pendingReset := some cause } }
  else
    let s := clearRdy (fenceReadsDone (persistAll s))
    let s := keeperResetClears (coreOff (dropStreams s))
    { s with
      conduct := ⟨.initial, .initial, .initial⟩
      keeper := { s.keeper with nextCause := cause } }

/-- A Keeper reset of MODE CAPTURE (R767): the Storm sequence, then recovery; in P5 as DISCARD. -/
def keeperCapture (i : StormInput) (s : State) : State :=
  if s.inRun && !s.keeper.ramStopped && !s.keeper.lockStopped then
    let s := keeperResetClears (runStorm i s)
    { s with keeper := { s.keeper with nextCause := if i.ending = .complete then 4 else 2 } }
  else keeperDiscard 4 s

/-- KRST: KRST# held low (R765). -/
def execKrst (s : State) : Host.Outcome State Fault Refusal := answer s (keeperDiscard 3)

/-! ### Clock generators (IH.1, IH.7) -/

/-- LOCK_LOSS: an island's clock generator loses lock; the Keeper counts it and raises its source (R81). That of a
retained island is stopped (Table PW-2): it has none to lose, but one that has not locked 10 µs after a wake cause is
treated so (R671). -/
def execLockLoss (island : Island) (s : State) : Host.Outcome State Fault Refusal :=
  answer s fun s =>
    match islandId island with
    | none => s
    | some i =>
      let p := s.island i
      if i = 211 || !s.powered || mget 0 s.power.lockLost i != 0 || (p.level == .retained && !p.waking) then s
      else
        let s := if p.level == .retained then s.elapseTo (p.wakeAt + 10000) else s
        let s := { s with
          power := { s.power with lockLost := mput 0 i (s.now + 1) s.power.lockLost }
          keeper := { s.keeper with lockLosses := satAdd 64 s.keeper.lockLosses 1 } }
        (s.raise 0x101054).mgmt 9

/-- Lock has not returned for 10 µs: the core stops until a Keeper reset, with no line and no root written (R83). The
pieces in a Ledger island whose own clock is gone are kept whole or not at all; the manual leaves open which, and it is a
free value for each (log entry 48). -/
def lockStop (s : State) : State :=
  if s.keeper.lockStopped then s
  else
    let s := clearRdy (fenceReadsDone (persistAll s))
    let s := settleUnlocked (dropStreams s)
    { s with keeper := { s.keeper with lockStopped := true } }

/-- Lock returns to an island (R82); after more than 10 µs the core has stopped meanwhile (R83). -/
def lockReturns (i : Nat) (s : State) : State :=
  let at' := mget 0 s.power.lockLost i
  let s := if at' != 0 && s.powered && decide (at' - 1 + 10000 < s.now) then lockStop s else s
  { s with power := { s.power with lockLost := mput 0 i 0 s.power.lockLost } }

/-- Lock has been gone from an island for 10 µs (R83). -/
def lockTimesOut (i : Nat) (s : State) : State :=
  let at' := mget 0 s.power.lockLost i
  if at' = 0 || !s.powered then s else lockStop (s.elapseTo (at' - 1 + 10000))

/-! ### Port reset (BU.1.1) -/

/-- A port's copies of the read-clear fields, its registers held per port and its authorization objects
return to their reset values (R148, R770, Table BU-2). -/
def clearCopies (p : Port) (s : State) : State :=
  let r := p.req
  let s := s.modConduct r fun _ => .initial
  let s := s.modPort p fun x => { x with
    mgmtEvent := 0, mgmtEnable := 0, pba := false, maskSn := 0, maskValid := false, maskAt := 0 }
  let zeros := List.replicate 16 (0 : Word)
  { s with
    auth := s.auth.set r .initial
    wired := { s.wired with lanes := s.wired.lanes.map fun l =>
      (l.1, { l.2 with flags := l.2.flags.set r 0 }) }
    queues := { s.queues with vol := s.queues.vol.map fun q =>
      (q.1, { q.2 with
              event := q.2.event.set r 0
              entrySlot := q.2.entrySlot.set p 0
              staging := q.2.staging.set p zeros
              latch := q.2.latch.set p zeros }) }
    fabric := { s.fabric with tstatus := (s.fabric.tstatus.map fun t =>
      (t.1, t.2.set r 0)).filter fun t => t.2 != Per3.const 0 }
    durab := { s.durab with status := s.durab.status.set r 0 }
    xlate := { s.xlate with
      recIndex := s.xlate.recIndex.set r 0
      overflow := s.xlate.overflow.set r false
      new := s.xlate.new.set r false }
    ledger := { s.ledger with
      dropped := s.ledger.dropped.set r 0
      status := s.ledger.status.set r 0 } }

/-- The Fault Ledger record of a queue's write that a port reset discarded (R834). -/
def notIssued (path q slot step tag kind iova : Nat) (image : List Byte) (s : State) : State :=
  reportFault { FaultRec.blank with
    type := fNotIssued
    path := path
    abandoned := path == 3
    room := (s.queue q).room
    iova := iova
    queue := some q
    index := slot
    step := step
    image := image
    tag := tag
    kind := kind } s

/-- Bytes 4 to 15 of the completion of a HOST_STORE whose write was passed on: OK, STEP 3, RESULT zero (R500,
Table WI-10; DEDUCED: Table TF-11 gives the completion's bytes also where the write met NOT_ISSUED). -/
def hostStoreImage : List Byte := [1, 3] ++ List.replicate 10 0

/-- A request of the controller passed to the Link island and not issued is discarded (R834). -/
def discardReq (r : LinkReq) (s : State) : State :=
  match r with
  | .delivery _ _ _ _ _ _ => s
  | .completion q slot step tag kind iova _ bytes =>
    notIssued 3 q slot step tag kind iova (bytesAt bytes 4 12) s
  | .hostStore q slot tag kind iova _ _ => notIssued 5 q slot 2 tag kind iova hostStoreImage s
  | .itemRead q slot iova _ _ => itemFault q slot 4 iova fNotIssued 0xFF s
  | .ringFetch q slot _ =>
    idleCheck q (s.modQVol q fun v =>
      { v with fetches := match takeFirst (fun f => f.slot == slot && f.sent && f.readAt.isNone) v.fetches with
          | some (_, rest) => rest
          | none => v.fetches })
  | .ledgerCopy _ line _ _ => s.modLedger fun l => { l with backlog := insertSorted line l.backlog }

/-- Reads already issued through the port: their completions will be discarded (R771). -/
def orphanReads (p : Port) (s : State) : State :=
  let item := fun (it : Item) => if it.wait = .read then { it with wait := .readLost } else it
  let queue := fun (q : Queue) => if q.port = p then { q with items := q.items.map item } else q
  let walk := fun (w : Walk) =>
    if (s.xroom w.req.room).walkPort = p then { w with dead := true } else w
  { s with
    dur := { s.dur with queues := s.dur.queues.map fun (k, q) => (k, queue q) }
    xlate := { s.xlate with islands := s.xlate.islands.map fun (k, x) =>
      (k, { x with walks := x.walks.map walk }) } }

/-- The targets that hold anything, have a transfer under way to their Delivery island, or are bound anywhere but by
default. -/
def knownTargets (s : State) : List Nat :=
  (s.dur.targets.map Prod.fst ++ s.fabric.dslots.map (fun (d : Nat × DSlot) => d.1 / 2) ++
    s.fabric.rank.map (fun (d : Nat × RankSlot) => d.1 / 2) ++
    s.fabric.selectQ.flatMap fun q => q.2.map fun x => x.body.tn).foldl (fun l t => insertSorted t l) []

/-- Every target bound to the port is reset (R382): those that hold nothing show only RESET. -/
def resetPortTargets (p : Port) (s : State) : State :=
  let known := (knownTargets s).filter fun tn => (s.tgt tn).port = p
  let s := known.foldl (fun s tn => resetTarget true tn s) s
  let bound := fun tn => (s.tgt tn).port = p
  s.modFabric fun x => { x with
    tstatus := (List.range 4096).filterMap fun tn =>
      let old := mget ⟨0, 0, 0⟩ x.tstatus tn
      let new := if bound tn then old.all (· ||| 4) else old
      if new = ⟨0, 0, 0⟩ then none else some (tn, new) }

/-- Every enabled queue bound to the port has its ENABLE set to 0 (R447). -/
def disablePortQueues (p : Port) (s : State) : State :=
  ((List.range 256).filter fun q => (s.queue q).port = p && (s.qvol q).state != .disabled).foldl
    (fun s q => queueDisable q s) s

/-- A port reset (R770, Table BU-2, R834). The clear of the port's copies is made first (R148); Letterbox
writes staged and pieces in its Ledger stream stay. -/
def portReset (p : Port) (s : State) : State :=
  let s := clearCopies p s
  let s := endStagingOf p.req (abortOwned p.req 1 s)
  let reqs := (s.port p).out
  let s := s.modPort p fun x => { x with out := [], creditWait := 0 }
  let s := reqs.foldl (fun s r => discardReq r s) s
  let s := disablePortQueues p (orphanReads p s)
  let s := resetPortTargets p s
  s.modPort p fun x => { x with
    busMaster := false, d3hot := false, cto := 0, msixEnable := false, msixFuncMask := false,
    msixMasked := true, msixAddr := 0, msixData := 0, pba := false }

/-- The link of a port goes down, with the effects of a port reset (Table BU-2). -/
def linkGoesDown (p : Port) (s : State) : State :=
  portReset p (s.modPort p fun x => { x with linkUp := false })

/-- PORT_RESET: a hot reset, PERST# or a link-down (R770, R835). -/
def execPortReset (port : Port) (cause : PortResetCause) (s : State) : Host.Outcome State Fault Refusal :=
  answer s fun s =>
    let s :=
      match cause with
      | .perstAssert => s.modPort port fun x => { x with perst := true, ready := false }
      | _ => s
    if s.powered then linkGoesDown port s else s.modPort port fun x => { x with linkUp := false }

/-- FLR: a function-level reset; the link stays up (R771, R835). -/
def execFlr (port : Port) (s : State) : Host.Outcome State Fault Refusal :=
  answer s fun s => if s.powered && (s.port port).linkUp then portReset port s else s

/-! ### Links (BU.3, PW.5, WQ.8) -/

/-- PERST_DEASSERT: the port can train once the core has been released (R778). -/
def execPerstDeassert (port : Port) (s : State) : Host.Outcome State Fault Refusal :=
  answer s fun s => s.modPort port fun x => { x with perst := false, ready := s.powered }

/-- LINK_UP: the link reaches L0 (R448, R735, R778). -/
def execLinkUp (port : Port) (s : State) : Host.Outcome State Fault Refusal :=
  answer s fun s =>
    if s.powered && (s.port port).ready && !s.extestHeld then
      s.modPort port fun x => { x with linkUp := true }
    else s

/-- The function answers configuration requests: served by the Management island, or by the Link island
itself after a boot failure (R708, R778). -/
def configAnswers (s : State) (port : Port) : Bool :=
  (s.port port).linkUp && (s.keeper.serving || s.keeper.bootFail)

/-- BUS_MASTER_ENABLE_WRITE (R354, R448). -/
def execBusMasterEnableWrite (port : Port) (value : Bool) (s : State) : Host.Outcome State Fault Refusal :=
  answer s fun s =>
    if configAnswers s port then s.modPort port fun x => { x with busMaster := value } else s

/-- The PCIe power-management values that a port advertises (R676, Table PW-4): ASPM support, the L1 PM substates with
each of their two methods, the exit and acceptable latencies as their codes, the D-states below D0, PME_Support and
No_Soft_Reset. -/
structure PowerCaps where
  aspmL0s : Bool
  aspmL1 : Bool
  l11Aspm : Bool
  l11PciPm : Bool
  l12Aspm : Bool
  l12PciPm : Bool
  l0sExit : BitVec 3
  l1Exit : BitVec 3
  l0sAcceptable : BitVec 3
  l1Acceptable : BitVec 3
  d1 : Bool
  d2 : Bool
  d3hot : Bool
  pmeSupport : BitVec 5
  noSoftReset : Bool
  deriving DecidableEq, Repr

/-- Table PW-4, for both ports (R676). -/
def powerCaps (_port : Port) : PowerCaps :=
  { aspmL0s := true, aspmL1 := true, l11Aspm := true, l11PciPm := true, l12Aspm := true, l12PciPm := true,
    l0sExit := 0b100, l1Exit := 0b011, l0sAcceptable := 0b100, l1Acceptable := 0b011,
    d1 := false, d2 := false, d3hot := true, pmeSupport := 0, noSoftReset := true }

/-- D3HOT_ENTRY (R678): the one state below D0 that the port supports (R676). -/
def execD3hotEntry (port : Port) (s : State) : Host.Outcome State Fault Refusal :=
  answer s fun s =>
    if configAnswers s port && (powerCaps port).d3hot then s.modPort port fun x => { x with d3hot := true } else s

/-- D3HOT_EXIT (R678): the function keeps its state, since No_Soft_Reset is 1 (R676). -/
def execD3hotExit (port : Port) (s : State) : Host.Outcome State Fault Refusal :=
  answer s fun s =>
    if !configAnswers s port then s
    else
      let s := if (powerCaps port).noSoftReset then s else portReset port s
      s.modPort port fun x => { x with d3hot := false }

/-- CREDIT_WAIT_OVER: the wait of a posted write passes 100 µs (R762), counted once for each wait. -/
def execCreditWaitOver (port : Port) (s : State) : Host.Outcome State Fault Refusal :=
  answer s fun s =>
    let x := s.port port
    if x.out.isEmpty || !x.canIssue || 100000 < x.creditWait then s
    else
      (s.elapse (100001 - x.creditWait)).modPort port fun x =>
        { x with creditOver := satAdd 64 x.creditOver 1 }

/-- INTX_MESSAGE: an INTx message is an Unsupported Request and delivers nothing (R27). -/
def execIntxMessage (port : Port) (_assert : Bool) (s : State) : Host.Outcome State Fault Refusal :=
  answer s fun s => if s.powered then s.emit (.unsupportedRequest port) else s

/-! ### The Keeper's sensors (GU.5, EL.6) -/

/-- TJ_EXCURSION: the sensor reads Tj outside the range of R2, or inside it again (R763, R812). -/
def execTjExcursion (outside : Bool) (s : State) : Host.Outcome State Fault Refusal :=
  answer s fun s =>
    if !s.keeper.vddAux then s
    else
      let rises := outside && !s.keeper.tjOutside
      { s with keeper := { s.keeper with
        tjOutside := outside
        tjExcursions := if rises then satAdd 32 s.keeper.tjExcursions 1 else s.keeper.tjExcursions } }

/-- HOLDUP_LOW: VHOLD crosses 5.0 V in P0, P1 or P2 (Table EL-9). -/
def execHoldupLow (low : Bool) (s : State) : Host.Outcome State Fault Refusal :=
  answer s fun s =>
    if s.keeper.vddAux && s.inRun then { s with keeper := { s.keeper with holdupLow := low } } else s

/-- VDDIO_LOSS: the sideband carrier is lost, with its addresses, and pins and lanes stop (R176, R836). -/
def execVddioLoss (s : State) : Host.Outcome State Fault Refusal :=
  answer s fun s =>
    if !s.keeper.vddio then s
    else
      let s := { s with keeper := { s.keeper with vddio := false } }
      let s := if s.powered then carrierLoss s else s
      { s with sideband := { s.sideband with eid := 0, dynAddr := 0, hotJoined := false } }

/-- ALERT# n is driven low (R809, Table EL-9). -/
def alertLow (s : State) (n : Nat) : Bool :=
  s.keeper.vddAux &&
    match mget 0 s.keeper.alertSelect n with
    | 1 => !s.keeper.rdy
    | 2 => s.durab.warn
    | 3 => s.durab.warn && !s.dur.g.flushDone
    | 4 => s.keeper.pstate == .p3
    | 5 => s.keeper.pstate == .p5
    | 6 => s.durab.throttle
    | 7 => s.nv.sec == .lockdown
    | 8 => s.keeper.tjOutside
    | 9 => s.keeper.holdupLow && s.inRun
    | 10 => true
    | _ => false

end Sys2Proof.Machine
end

