-- ==== Sys2Proof/Machine/Power.lean ====
section
/-!
DEFINITION. Power states and island levels (PW): the ceiling, when an island is idle, when it dozes, is
retained and wakes.
-/

namespace Sys2Proof.Machine

open Sys2Proof

/-- Numbers within a type for which something holds. -/
def anyOf (lo n : Nat) (f : Nat → Bool) : Bool := (List.range n).any fun k => f (lo + k)

/-- The slots of a Delivery island's targets that hold anything. -/
def busySlots (s : State) (d : Nat) (f : Nat → Cls → DSlot → Bool) : Bool :=
  s.fabric.dslots.any fun p => p.1 / 2 / 64 == d && f (p.1 / 2) (Cls.at (p.1 % 2)) p.2

/-- An island holds events for a Gather island whose places are taken (R44). -/
def holdsEvents (s : State) (i : Nat) : Bool := s.fabric.submitHeld.any fun p => p.1 / 64 == i && !p.2.isEmpty

/-- An island holds transfers beyond the depth of a channel's FIFO (R44, R46). -/
def holdsBeyond {α : Type} (depth i : Nat) (m : SMap (List (Sent α))) : Bool :=
  m.any fun p => decide (depth < sentBy i p.2)

/-- What an island still has to send on the channels that lead from it (Table IH-2). -/
def holdsTransfers (s : State) (i : Nat) : Bool :=
  holdsEvents s i || holdsBeyond 32 i s.fabric.notifyQ || holdsBeyond 8 i s.fabric.selectQ ||
    holdsBeyond 16 i s.fabric.claimQ

/-- The inbound FIFOs and the work of an island (R660). -/
def islandQuiet (s : State) (i : Island) : Bool :=
  let n := i.idx
  match i.kind with
  | .gather =>
    (mget [] s.fabric.gatherQ n).isEmpty && s.portA.staging.all (fun e => e.gather != n) &&
      s.portB.staging.all (fun e => e.gather != n)
  | .storeBank =>
    (mget [] s.fabric.claimQ n).isEmpty && (mget [] s.fabric.updateQ (2 * n)).isEmpty &&
      (mget [] s.fabric.updateQ (2 * n + 1)).isEmpty
  | .rank => (mget [] s.fabric.notifyQ n).isEmpty && (mget [] s.fabric.due n).isEmpty
  | .delivery =>
    (mget [] s.fabric.selectQ n).isEmpty &&
      !busySlots s n (fun _ _ d => d.claiming.isSome || d.stage == .translating) &&
      (s.portA.out ++ s.portB.out).all fun r =>
        match r with
        | .delivery _ tn _ _ _ _ => tn / 64 != n
        | _ => true
  | .queue =>
    (s.engine n).isNone && !anyOf (16 * n) 16 fun q => hasWork s q || !(s.qvol q).fetches.isEmpty
  | .translation => (s.xisland n).walks.isEmpty && waitingRequests s n == 0
  | .mirror => (dirtyLines s).all fun l => l.bank / 4 != n
  | .ledger =>
    s.ledger.inbox.all (fun p => ledgerIsland p.line != n) &&
      s.ledger.stream.all (fun p => ledgerIsland p.line != n) &&
      s.ledger.copying.all (fun l => ledgerIsland l != n) &&
      s.ledger.reads.all fun r => ledgerIsland (r.2.1 / 64) != n
  | .management =>
    !s.hatch.busy && s.sideband.waiting.isEmpty && s.sideband.current.isNone &&
      s.sideband.responses.isEmpty &&
      s.image.state != .applying
  | .link | .keeper => false

/-- An island is idle (R660): its inbound FIFOs are empty, it has no transfer waiting to be sent, and no
step of its work is in progress. -/
def islandIdle (s : State) (i : Island) : Bool :=
  islandQuiet s i && (islandId i).all fun k => !holdsTransfers s k

/-- Whether a type may doze, and whether it may be retained (Table PW-3). -/
def mayDoze : IslandKind → Bool
  | .link | .keeper => false
  | _ => true
def mayRetain : IslandKind → Bool
  | .gather | .rank | .delivery | .queue | .translation | .mirror => true
  | _ => false

/-- The conditions for retention of Table PW-3, and no timer that runs (R663). -/
def retainable (s : State) (i : Island) : Bool :=
  let n := i.idx
  match i.kind with
  | .gather =>
    !(decide (n < 56) && (s.laneCfg n).enable) &&
      !(decide (56 ≤ n) && anyOf (64 * (n - 56)) 64 fun p => (s.pinCfg p).mode != 0)
  | .rank => (mget [] s.fabric.notifyQ n).isEmpty && (mget [] s.fabric.due n).isEmpty
  | .delivery =>
    !busySlots s n (fun tn c d =>
      d.offer.isSome || d.holding.isSome || d.wdog.isSome || louvreHolds s tn c)
  | .queue =>
    !anyOf (16 * n) 16 (fun q => (s.qvol q).state != .disabled || !queueIdle s q) &&
      !anyOf (16 * n) 16 fun t => timerArmed s t
  | .translation => (s.xisland n).walks.isEmpty && s.xlate.fences.all fun f => f.room % 4 != n
  | .mirror => (dirtyLines s).all (fun l => l.bank / 4 != n) && s.durab.ckpt.isNone
  | _ => false

/-- ISLAND_DOZE: an island idle for DozeDelay dozes, where the ceiling allows (R659, R660). -/
def execIslandDoze (island : Island) (s : State) : Host.Outcome State Fault Refusal :=
  answer s fun s =>
    match islandId island with
    | none => s
    | some i =>
      let p := s.island i
      if !s.running || !s.clocked i || !mayDoze island.kind || s.dur.g.ceiling = 0 ||
          p.level != .awake || !islandIdle s island then s
      else
        (s.elapseTo (p.lastBusy + 10 * s.dur.g.dozeDelay)).modIsland i fun p =>
          { p with level := .dozing, waking := false }

/-- ISLAND_RETAIN: a dozing island idle for a further RetainDelay is retained (R659, R660, R663); the walk
cache of a Translation island is lost (R664). A wake cause abandons the entry (R669). -/
def execIslandRetain (island : Island) (s : State) : Host.Outcome State Fault Refusal :=
  answer s fun s =>
    match islandId island with
    | none => s
    | some i =>
      let p := s.island i
      let g := s.dur.g
      if !s.running || !s.clocked i || !mayRetain island.kind || g.ceiling != 2 ||
          p.level != .dozing || p.waking || !islandIdle s island || !retainable s island then s
      else
        let s := s.elapseTo (p.lastBusy + 10 * g.dozeDelay + 1000 * g.retainDelay)
        let s := s.modIsland i fun p => { p with level := .retained }
        let s := { s with power := { s.power with retains := satAdd 64 s.power.retains 1 } }
        match island.kind with
        | .translation =>
          s.modXIsland island.idx fun x => { x with leaf := [], dir1 := [], dir2 := [], dir3 := [] }
        | _ => s

/-- ISLAND_WAKE: an island that a wake cause has reached is awake (R668, R669). -/
def execIslandWake (island : Island) (s : State) : Host.Outcome State Fault Refusal :=
  answer s fun s =>
    match islandId island with
    | none => s
    | some i =>
      if s.running && s.clocked i && (s.island i).waking then (s.wakeUp i).busy i else s

/-- An island's level as a number: how deep it sleeps. -/
def Level.depth : Level → Nat
  | .awake => 0
  | .dozing => 1
  | .retained => 2

/-- The ceiling written (R657, R686): the power state follows it, and every island deeper than it wakes.
During P5 the value is stored and takes effect when P5 ends (R681). -/
def setCeiling (v : Nat) (s : State) : State :=
  let s := (s.modG fun g => { g with ceiling := v }).touchIf (s.dur.g.ceiling != v) (objectLine 702)
  let s := if s.inRun then { s with keeper := { s.keeper with pstate := ceilingState s } } else s
  let deep := (s.power.islands.filter fun p => decide (v < p.2.level.depth)).map Prod.fst
  deep.foldl (fun s i => s.wakeUp i) s

/-- Islands dozing and islands retained (Table PW-8). -/
def levelCount (s : State) (l : Level) : Nat :=
  (s.power.islands.filter fun p => p.2.level == l).length

end Sys2Proof.Machine
end

