-- ==== Sys2Proof/Machine/Security.lean ====
section
/-!
DEFINITION. Security states and debug (SD): authorization and transitions, tamper and zeroization, debug
grants, Halt, Scan, and the test access port. What a PEEK reads stands with the registers.
-/

namespace Sys2Proof.Machine

open Sys2Proof

/-! ### Halts -/

/-- The halts are released, and the pieces that waited for a halted Ledger or Link island go on (R743, LG.11). -/
def resumeHalts (s : State) : State := ledgerFlow (releaseHalts s)

/-- Islands frozen between complete handshakes; one that sleeps is restored first (R667, R742). -/
def haltIslands (ids : List Nat) (s : State) : State :=
  ids.foldl
    (fun s i =>
      if i ∈ s.dap.halted then s
      else
        let s := s.wakeUp i
        { s with dap := { s.dap with
          halted := insertSorted i s.dap.halted
          haltedAt := mput 0 i (s.now + 1) s.dap.haltedAt } }) s

/-! ### Authorization (SD.2) -/

/-- The requester's number in an AuthMessage (Table SD-4). -/
def reqCode : Req → Nat
  | .linkA => 0
  | .linkB => 1
  | .sideband => 2

/-- The AuthMessage of a submission (Table SD-4). -/
def authMessage (r : Req) (nonce : List Byte) (action arg : Nat) : List Byte :=
  [0x4F, 0x43, 0x54, 0x41] ++ leBytes 2 0x4096 ++ [0x02, 0x41] ++
    leBytes 8 Config.deviceSerial.toNat ++ bytesAt nonce 0 32 ++
    [BitVec.ofNat 8 action, BitVec.ofNat 8 arg, BitVec.ofNat 8 (reqCode r)] ++ List.replicate 13 0

/-- A security state's code (Table SD-1), and the state of a code. -/
def SecState.num : SecState → Nat
  | .provisioning => 0
  | .openState => 1
  | .sealed => 2
  | .lockdown => 3
def SecState.at : Nat → SecState
  | 0 => .provisioning
  | 1 => .openState
  | 2 => .sealed
  | _ => .lockdown

/-- A requester's authorization objects changed. -/
def State.modAuth (s : State) (r : Req) (f : Auth → Auth) : State :=
  { s with auth := s.auth.set r (f (s.auth.get r)) }

/-- AuthResult written. -/
def authResult (r : Req) (code : Nat) (s : State) : State :=
  s.modAuth r fun a => { a with result := code }

/-- NEW_NONCE (R701): 32 fresh bytes of the entropy source. -/
def newNonce (r : Req) (s : State) : State :=
  (s.modAuth r fun a => { a with
    nonce := some (leBytes 32 (Config.entropy s.free).toNat)
    nonceAt := s.now
    result := 0 }).draw

/-- The nonce is valid for 60 s (R701). -/
def nonceValid (s : State) (a : Auth) : Bool := a.nonce.isSome && decide (s.now ≤ a.nonceAt + 60000000000)

/-- A submission that needs a signature (R702): `ok` if it verifies under OwnerKey, else its AuthResult;
the nonce is consumed whatever the outcome. -/
def withSignature (r : Req) (action arg : Nat) (ok : State → State) (s : State) : State :=
  let a := s.auth.get r
  if !nonceValid s a then authResult r 4 s
  else
    let msg := authMessage r (a.nonce.getD []) action arg
    let good := ecdsaVerify s.nv.ownerKey msg (a.sigR.take 48) (a.sigS.take 48)
    let s := s.modAuth r fun a => { a with nonce := none }
    if good then ok s else authResult r 3 s

/-- R695: every debug grant ends, every Halt is released, every nonce is discarded. -/
def endGrants (s : State) : State :=
  let s := resumeHalts s
  { s with
    auth := s.auth.all fun a => { a with nonce := none }
    dap := { s.dap with grant := baseGrant s } }

/-- The record of a requested transition is made in both copies; it takes effect, or stays pending until
a cold power-on (R693, R695, R696). -/
def transitionRecord (s : State) : State :=
  match s.nv.recording with
  | none => s
  | some (r, target, cold) =>
    let s := { s with nv := { s.nv with recording := none } }
    if cold then authResult r 2 { s with nv := { s.nv with pendingSealed := true } }
    else authResult r 1 (endGrants { s with nv := { s.nv with sec := target } })

/-- TRANSITION_RECORD (R693). -/
def execTransitionRecord (s : State) : Host.Outcome State Fault Refusal :=
  answer s fun s => if s.keeper.vddAux && s.keeper.serving then transitionRecord s else s

/-- A permitted transition, whether it needs a signature and whether it waits for a cold power-on (Table
SD-2). -/
def transition : SecState → SecState → Option (Bool × Bool)
  | .provisioning, .openState => some (true, false)
  | .openState, .sealed => some (false, false)
  | .sealed, .openState => some (true, false)
  | .provisioning, .lockdown => some (false, false)
  | .openState, .lockdown => some (false, false)
  | .sealed, .lockdown => some (false, false)
  | .lockdown, .sealed => some (true, true)
  | _, _ => none

/-- SET_STATE (R691 to R693, R696). A submission waits for the record of an earlier one. -/
def setState (r : Req) (arg : Nat) (s : State) : State :=
  let s := transitionRecord s
  let target := SecState.at arg
  match transition s.nv.sec target with
  | none => authResult r 5 s
  | some (signed, cold) =>
    let record := fun (s : State) => { s with nv := { s.nv with recording := some (r, target, cold) } }
    if s.nv.sec = .provisioning && !ownerKeyValid s.nv.ownerKey then authResult r 6 s
    else if signed then withSignature r 2 arg record s
    else record s

/-- How a debug level may be used in a security state (Table SD-19): refused, free, or by grant. -/
inductive LevelUse where
  | refused
  | free
  | granted
  deriving DecidableEq, Repr

/-- Table SD-19, for P0 to P2. -/
def levelUse (sec : SecState) (level : Nat) : LevelUse :=
  match sec, level with
  | _, 0 => .free
  | .provisioning, _ => .free
  | .openState, 1 => .free
  | .openState, _ => .granted
  | .sealed, 3 => .refused
  | .sealed, _ => .granted
  | .lockdown, _ => .refused

/-- The grant set to a level (R731, R732): one below Halt releases every Halt. In Provisioning it stays 3
(DC.13). -/
def setGrant (r : Req) (level : Nat) (s : State) : State :=
  let s := if level < 2 && s.nv.sec != .provisioning then resumeHalts s else s
  authResult r 1 { s with dap := { s.dap with
    grant := if s.nv.sec = .provisioning then 3 else level } }

/-- DEBUG (R731). -/
def debugGrant (r : Req) (level : Nat) (s : State) : State :=
  if level < s.dap.grant then setGrant r level s
  else
    match levelUse s.nv.sec level with
    | .refused => authResult r 5 s
    | .free => setGrant r level s
    | .granted => withSignature r 3 level (setGrant r level) s

/-- An AuthRequest that no check stops (Table SD-5). -/
def authRequest (r : Req) (action arg : Nat) (s : State) : State :=
  match action with
  | 1 => newNonce r s
  | 2 => setState r arg s
  | 3 => debugGrant r arg s
  | _ => s

/-- NONCE_EXPIRY: 60 s have passed since a nonce was issued (R701). -/
def execNonceExpiry (req : Req) (s : State) : Host.Outcome State Fault Refusal :=
  answer s fun s =>
    let a := s.auth.get req
    if a.nonce.isNone then s
    else
      (s.elapseTo (a.nonceAt + 60000000000 + 1)).modAuth req fun a => { a with nonce := none }

/-! ### Tamper (SD.6) -/

/-- The BAR4 writes and append pieces of a port's stream discarded by the closing of the Ledger are counted in Denied
(R567, R724); a write of the port shows in DROPPED while RDY reads 1. -/
def denyStream (port : Port) (s : State) : State :=
  let writes := writesWaiting s.ledger port
  let pieces := (s.ledger.stream.filter fun p => p.port == port && p.append.isSome).length
  s.modLedger fun l => { l with
    denied := l.denied.set port (satAdd 64 (l.denied.get port) (writes + pieces))
    dropped := if writes != 0 && s.keeper.rdy then l.dropped.all (· ||| BitVec.ofNat 2 (2 ^ port.num)) else l.dropped }

/-- A fence read that covers a discarded piece completes with DONE 0, and a FENCE item that does so ends as an append
with a discarded piece does (DESIGN CHOICE, log entry 72: R573 lets neither acknowledge the piece, and the manual gives
no other answer while RDY reads 1). -/
def failFences (dropped : List Piece) (s : State) : State :=
  let covers := fun (port : Port) (mark : Nat) => dropped.any fun p => p.port == port && decide (p.id < mark)
  let s := s.ledger.fenceReads.foldl
    (fun s (r : Reader × Nat) =>
      if covers r.1.port r.2 then
        finishFence r.1 false (s.modLedger fun l => { l with fenceReads := l.fenceReads.erase r })
      else s) s
  let lost := fun (port : Port) (mark : Nat) =>
    dropped.any fun p => p.append.isNone && p.port == port && decide (p.id < mark)
  let item := fun (port : Port) (it : Item) =>
    { it with denied := it.denied || (it.kind == 7 && bit (it.byte 16) 1 && it.ending.isNone && lost port it.pieces) }
  s.modDur fun d => { d with
    queues := d.queues.map fun p => (p.1, { p.2 with items := p.2.items.map (item p.2.port) }) }

/-- The Ledger closes (R724): pieces in its islands are persistent, the others are discarded and counted
in Denied, the appends they belong to are denied, and no fence acknowledges them. -/
def closeLedger (s : State) : State :=
  let s := fenceReadsDone (persistAll s)
  let dropped := s.ledger.stream
  let s := dropped.foldl
    (fun s p =>
      match p.append with
      | some (q, slot) => s.modItem q slot fun it => { it with denied := true }
      | none => s) (denyStream .b (denyStream .a s))
  fenceReadsDone (failFences dropped (s.modLedger fun l => { l with stream := [], closed := true }))

/-- Step 2 of Table SD-12: the tamper mark is written (R694). -/
def writeMark (cause : Nat) (s : State) : State :=
  { s with nv := { s.nv with mark := some (cause, s.nv.tamperAction, s.keeper.pstate.num) } }

/-- The tamper mark is written, and the tamper recorded in both copies of the store, which clears the mark; Lockdown is
in effect, debug is locked (R694, R695, R720). -/
def lockdownNow (cause zeroize : Nat) (s : State) : State :=
  let s := writeMark cause s
  let s := recordTamper cause s.nv.tamperAction s.keeper.pstate.num zeroize s.dur.g.epoch s
  let s := { s with keeper := { s.keeper with deadbolts := s.keeper.deadbolts ||| 0b10000 } }
  endGrants s

/-- The response in P0, P1 or P2 (Table SD-12). -/
def tamperResponse (cause : Nat) (s : State) : State :=
  let action := s.nv.tamperAction
  let s := (lockdownNow cause (if action = 0 then 0 else 2) s).mgmt 10
  if action = 0 then s.raise 0x101064
  else
    let s := closeLedger (if action = 1 then s else clearRdy (setShutter true s))
    let s := { s with keeper := { s.keeper with zeroizing := true } }
    if action = 1 then s.raise 0x101064
    else
      { s with
        mram := s.mram.erase
        dur := .initial
        durab := .initial
        fabric := { Fabric.initial with shutter := true }
        queues := { vol := [], engine := [] }
        keeper := { s.keeper with ramStopped := true } }

/-- TAMPER: a tamper is sensed for an enabled cause (R721, R723, R727, R729). -/
def execTamper (temperature : Bool) (s : State) : Host.Outcome State Fault Refusal :=
  answer s fun s =>
    let cause := if temperature then 2 else 1
    if !s.keeper.vddAux || !s.nv.tamperEnable.getLsbD (cause - 1) then s
    else if s.keeper.zeroizing || s.nv.zeroizePending then
      let s := lockdownNow cause (if s.keeper.zeroizing then 2 else 1) s
      let s := if s.powered then s.mgmt 10 else s
      if s.running then s.raise 0x101064 else s
    else if s.inRun && !s.keeper.scan then tamperResponse cause s
    else
      let action := s.nv.tamperAction
      let s := lockdownNow cause (if action = 0 then 0 else 1) s
      let s := if s.powered then s.mgmt 10 else s
      { s with nv := { s.nv with
        zeroizePending := decide (action ≠ 0)
        zeroizeRoots := decide (action = 2) } }

/-- ZEROIZE_DONE: every Ledger line reads zero; the wear-levelling map and the wear objects stay (R725). -/
def execZeroizeDone (s : State) : Host.Outcome State Fault Refusal :=
  answer s fun s =>
    if !s.keeper.zeroizing then s
    else
      { s with
        ledger := { s.ledger with mem := [], bad := [] }
        keeper := { s.keeper with zeroizing := false }
        nv := { s.nv with
          zeroizePending := false
          tamperLog := { s.nv.tamperLog with zeroize := 3 } } }

/-! ### The test access port (SD.7.2) -/

/-- The TAP works while VDDIO is in range (R734). -/
def tapLive (s : State) : Bool := s.keeper.vddAux && s.keeper.vddio

/-- A TAP instruction is selected, and its data register is shifted out. -/
def tapSelect (i : TapInstr) (width : Nat) (value : Nat) (s : State) : State :=
  if tapLive s then { s with dap := { s.dap with tap := i } }.emit (.tdo width value) else s

/-- An instruction of the EXTEST family: both links are held down (R735); in P3 and P5 it acts as
BYPASS. -/
def extest (i : TapInstr) (s : State) : State :=
  if !tapLive s then s
  else
    let s := { s with dap := { s.dap with tap := i } }
    if s.extestHeld then
      let s := if s.portA.linkUp then linkGoesDown .a s else s
      let s := if s.portB.linkUp then linkGoesDown .b s else s
      s.draw.emit (.tdo 32 (Config.boundaryScan s.free).toNat)
    else s.emit (.tdo 1 0)

/-- EXTEST (R735). -/
def execExtest (s : State) : Host.Outcome State Fault Refusal := answer s (extest .extest)
/-- EXTEST_PULSE (R735). -/
def execExtestPulse (s : State) : Host.Outcome State Fault Refusal := answer s (extest .extestPulse)
/-- EXTEST_TRAIN (R735). -/
def execExtestTrain (s : State) : Host.Outcome State Fault Refusal := answer s (extest .extestTrain)

/-- SAMPLE/PRELOAD (Table SD-14). -/
def execSamplePreload (s : State) : Host.Outcome State Fault Refusal :=
  answer s fun s => tapSelect .sample 32 (Config.boundaryScan s.free).toNat s.draw

/-- IDCODE (Table SD-14). -/
def execIdcode (s : State) : Host.Outcome State Fault Refusal := answer s (tapSelect .idcode 32 0x24096A6B)

/-- BYPASS, or any unknown code (R733). -/
def execBypass (s : State) : Host.Outcome State Fault Refusal := answer s (tapSelect .bypass 1 0)

/-- A DAP access cannot yet complete: SCAN_ENTER runs until its root is committed and the islands are frozen, and a
Keeper reset, that of SCAN_EXIT among them, until the Keeper releases the core (R736, R745, R747, SD.10). -/
def dapRunning (s : State) : Bool :=
  s.keeper.scanWanted || (s.keeper.pstate == .p4 && decide (3 ≤ s.keeper.nextCause))

/-- The code BUSY of Table SD-15. -/
def dapBusy : Nat := 1

/-- STATUS of the last DAP access, BUSY while a command runs (R736), the access and its data (Table SD-15). -/
def hydapCapture (s : State) : Nat :=
  s.dap.capData.toNat + 2 ^ 32 * s.dap.capReg.toNat + 2 ^ 36 * b2n s.dap.capWrite +
    2 ^ 37 * (if dapRunning s then dapBusy else s.dap.capStatus)

/-- HYDAP (R733): the capture shows the outcome of the last access. -/
def execHydap (s : State) : Host.Outcome State Fault Refusal :=
  answer s fun s => tapSelect .hydap 40 (hydapCapture s) s

/-- HYSCAN (Table SD-14, R745): the scan chains while Scan is active, else one bit. -/
def execHyscan (s : State) : Host.Outcome State Fault Refusal :=
  answer s fun s =>
    if s.keeper.scan then tapSelect .hyscan 32 (Config.scanChain s.free).toNat s.draw
    else tapSelect .hyscan 1 0 s

/-! ### Halt and Scan (SD.7.5, SD.7.6) -/

/-- The other STATUS codes of a DAP access (Table SD-15). -/
def dapOk : Nat := 0
def dapState : Nat := 2
def dapGrant : Nat := 3
def dapPower : Nat := 4
def dapBadArg : Nat := 5

/-- The first check of a DAP command that fails: security state, then grant, then power (R737, R748). -/
def dapCheck (s : State) (level : Nat) : Option Nat :=
  match levelUse s.nv.sec level with
  | .refused => some dapState
  | .granted =>
    if s.dap.grant < level then some dapGrant
    else if s.inRun then none else some dapPower
  | .free => if s.inRun then none else some dapPower

/-- The instances that DAP_HALT_SEL names (Tables SD-16, PG-1), none where an argument is bad (R742). -/
def haltTargets (sel : BitVec 16) : Option (List Nat) :=
  let type := bits sel.toNat 3 0
  let first := bits sel.toNat 9 4
  let last := bits sel.toNat 15 10
  let range := fun (base count : Nat) =>
    if last < first || count ≤ last then none
    else some ((List.range (last + 1 - first)).map (· + base + first))
  match type with
  | 0 => range 0 64
  | 1 => range 64 32
  | 2 => range 96 16
  | 3 => range 112 64
  | 4 => range 176 16
  | 5 => range 192 4
  | 6 => range 196 8
  | 7 => range 204 4
  | _ => none

/-- A DAP command that has ended with a status. -/
def dapStatus (code : Nat) (s : State) : State := { s with dap := { s.dap with capStatus := code } }

/-- HALT (R742). -/
def dapHalt (s : State) : State :=
  match dapCheck s 2 with
  | some code => dapStatus code s
  | none =>
    match haltTargets s.dap.haltSel with
    | none => dapStatus dapBadArg s
    | some ids => dapStatus dapOk (haltIslands ids s)

/-- RELEASE (R737, R743). -/
def dapRelease (s : State) : State := dapStatus dapOk (resumeHalts s)

/-- SCAN_ENTER (R745): the Shutter closes and a root is committed; the rest follows that commit. With
MirrorEnable 0 no root is written (R620) and Scan is entered at once. -/
def dapScanEnter (s : State) : State :=
  match dapCheck s 3 with
  | some code => dapStatus code s
  | none =>
    let s := setShutter true s
    if !s.dur.g.mirrorEnable then dapStatus dapOk (enterScan s)
    else
      let s := { s with keeper := { s.keeper with scanWanted := true } }
      dapStatus dapOk (requestRoot s)

/-- SCAN_EXIT (R747): a Keeper reset; honoured whatever the grant. -/
def dapScanExit (s : State) : State :=
  if s.keeper.scan then dapStatus dapOk (keeperDiscard 6 s) else dapStatus dapBadArg s

/-- A DAP command arrives as a write of DAP_CMD through HYDAP, at a time when it is taken (log entry 27). -/
def dapCommand (op : Nat) (f : State → State) (s : State) : State :=
  if !tapLive s || s.dap.tap != .hydap then s
  else
    f { s with dap := { s.dap with
      capReg := 6, capWrite := true, capData := BitVec.ofNat 32 op, capStatus := 0 } }

/-- HALT (R742). -/
def execHalt (s : State) : Host.Outcome State Fault Refusal := answer s (dapCommand 2 dapHalt)
/-- DAP_RELEASE (R743). -/
def execDapRelease (s : State) : Host.Outcome State Fault Refusal := answer s (dapCommand 3 dapRelease)
/-- SCAN_ENTER (R745). -/
def execScanEnter (s : State) : Host.Outcome State Fault Refusal := answer s (dapCommand 4 dapScanEnter)
/-- SCAN_EXIT (R747). -/
def execScanExit (s : State) : Host.Outcome State Fault Refusal := answer s (dapCommand 5 dapScanExit)

/-- ACTIVE of DAP_STATUS (Table SD-16), the object DebugActive. -/
def debugActive (s : State) : Nat := if s.keeper.scan then 3 else if s.dap.halted.isEmpty then 0 else 2

/-- DAP_STATUS (Table SD-16). -/
def dapStatusWord (s : State) : Nat :=
  s.nv.sec.num + 2 ^ 2 * s.dap.grant + 2 ^ 4 * debugActive s + 2 ^ 6 * b2n s.keeper.bootFail +
    2 ^ 7 * b2n (s.powered && s.keeper.vddCore) + 2 ^ 8 * s.keeper.pstate.num +
    2 ^ 11 * b2n s.keeper.zeroizing

end Sys2Proof.Machine
end

