-- ==== Sys2Proof/Machine/Flags.lean ====
section
/-!
DEFINITION. The status words: every register and status object whose fields the manual lays out, as
numbers, computed from the state (CN.8, DL.2, WQ.8, TF.8, LG.9, DU.8, PW.8, WS.7, PK.8).
-/

namespace Sys2Proof.Machine

open Sys2Proof

/-- A flag at a bit position. -/
def at1 (b : Bool) (n : Nat) : Nat := if b then 2 ^ n else 0

/-! ### Identity, conduct and the Hatch (CN.8) -/

/-- ID_STEPPING (Table CN-8). -/
def idStepping : Nat := 0x4102 + at1 Config.xt 16

/-- GLOBAL_STATUS (Table CN-11). -/
def globalStatus (s : State) : Nat :=
  b2n s.keeper.rdy + 2 * s.keeper.pstate.num + 2 ^ 4 * s.nv.sec.num + at1 (mixedEpoch s) 6 +
    at1 s.fabric.shutter 7 + at1 s.keeper.recovered 8 + at1 s.dur.g.mirrorEnable 9

/-- PORT_ID (Table CN-10). -/
def portId (s : State) (p : Port) : Nat := p.num + at1 (s.port p.other).linkUp 1

/-- HATCH_OWNER (Table CN-15). -/
def hatchOwner (h : Hatch) : Nat := h.tag.toNat + 2 ^ 16 * ownerCode h.owner

/-- HATCH_STATUS (Table CN-19): CODE and LENGTH read 0 until a command has ended. -/
def hatchStatus (h : Hatch) : Nat :=
  b2n h.busy + at1 h.valid 1 + 2 ^ 4 * h.code + 2 ^ 16 * h.length

/-- CONDUCT_STATUS (Table CN-22). -/
def conductStatus (c : Conduct) : Nat := c.status.toNat

/-- IGN_LAST (Table CN-23). -/
def ignLastWord (i : IgnLast) : Nat :=
  i.addr % 2 ^ 24 + 2 ^ 24 * (i.space % 4) + 2 ^ 26 * (i.reason % 8) + at1 i.valid 31

/-- HATCH_ABORT_LOG (Table CN-21). -/
def abortLogWord (l : AbortLog) : Nat :=
  b2n l.valid + 2 * l.former + 2 ^ 8 * (l.opcode % 256) + at1 l.applied 16 + 2 ^ 17 * l.cause

/-! ### Sources and intake -/

/-- A source's route cannot be reached (R329): shown while the source is Pending. -/
def unreachable (s : State) (r : Source) : Bool :=
  r.state == .pending && !s.routeReaches r.room r.target

/-- STATE of a source as its object numbers it. -/
def SrcState.num : SrcState → Nat
  | .idle => 0
  | .pending => 1
  | .active => 2

/-- SourceState (PK.8). -/
def sourceState (s : State) (sn : Nat) : Nat :=
  let r := s.src sn
  r.state.num + at1 r.rearm 2 + at1 r.level 3 + at1 r.noteLost 4 + at1 (unreachable s r) 5 +
    (match r.holder with
     | some (_, c) => 2 ^ 6 * c.num
     | none => 0) +
    (if r.state = .pending then 2 ^ 16 * s.ageOf r else 0)

/-- SourceHolder (Table DL-18). -/
def sourceHolder (s : State) (sn : Nat) : Nat :=
  match (s.src sn).holder with
  | some (tn, _) => tn
  | none => 0xFFFF

/-- LetterboxLastReject (Table LB-7). -/
def lastRejectBytes (l : LastReject) : List Byte :=
  [BitVec.ofNat 8 (b2n l.valid), BitVec.ofNat 8 l.port.num, BitVec.ofNat 8 l.reason,
   BitVec.ofNat 8 l.room] ++ leBytes 3 l.sn ++ [0] ++ leBytes 2 l.requester.toNat ++ leBytes 2 l.offset

/-- EoiErrorLast and WatchdogLast (Table DL-18). -/
def targetEventBytes (e : TargetEvent) : List Byte :=
  [BitVec.ofNat 8 (b2n e.valid)] ++ leBytes 2 e.tn ++ [BitVec.ofNat 8 e.cls.num] ++ leBytes 3 e.sn ++
    [BitVec.ofNat 8 e.reason]

/-- A port's intake counter (Table LB-6). -/
def intakeCounter (p : PortState) : Nat → Nat
  | 0 => p.accepted
  | 1 => p.notes
  | 2 => p.malformed
  | 3 => p.unknownSn
  | 4 => p.roomClosed
  | 5 => p.roomMismatch
  | 6 => p.notReady
  | 7 => p.notesDropped
  | _ => p.stallTime

/-! ### Targets (DL.2) -/

/-- TARGET_CONTROL (Table DL-8). -/
def targetControl (t : Target) : Nat :=
  b2n t.enable + at1 t.paneEnN 1 + at1 t.paneEnF 2 + at1 t.wdogEnN 3 + at1 t.wdogEnF 4

/-- TARGET_STATUS as a requester reads it (Table DL-9). -/
def targetStatus (s : State) (r : Req) (tn : Nat) : Nat :=
  ((mget ⟨0, 0, 0⟩ s.fabric.tstatus tn).get r).toNat + at1 (s.tgt tn).enable 3

/-- CLASS_STATUS and FAST_STATUS (Table DL-7). -/
def classStatus (s : State) (tn : Nat) (c : Cls) : Nat :=
  let d := s.dslot tn c
  (match d.holding, d.offer with
   | some sn, _ => sn + 2 ^ 24 * 2
   | none, some o => o.sn + 2 ^ 24
   | none, none => 0) + at1 (louvreHolds s tn c) 26 + at1 d.wdog.isSome 27

/-- FlushState (Table DU-7). -/
def Flush.num : Flush → Nat
  | .notMember => 0
  | .waiting => 1
  | .done => 2
  | .hung => 3
  | .reset => 4

/-- SHUTTER_CONFIRM (Table DL-14). -/
def shutterConfirm (s : State) : Nat := b2n s.fabric.shutter + at1 (s.fabric.shutter && drained s) 1

/-- MASK_CONFIRM of a port (Table DL-16). -/
def maskConfirm (p : PortState) : Nat := p.maskSn + at1 p.maskValid 31

/-! ### Work queues (WQ.8) -/

/-- STATE of a queue (Table WQ-3). -/
def QState.num : QState → Nat
  | .disabled => 0
  | .running => 1
  | .draining => 2
  | .stopped => 3

/-- ENABLE of a queue: 1 while it runs or stands stopped (R441, R442). -/
def queueEnabled (v : QVol) : Bool := v.state == .running || v.state == .stopped

/-- QUEUE_CONTROL (Table WQ-4). -/
def queueControl (s : State) (q : Nat) : Nat :=
  b2n (queueEnabled (s.qvol q)) + at1 (s.queue q).evtIdleEn 1

/-- R448 holds the queue: it is not DISABLED and its port may not issue. -/
def portWait (s : State) (q : Nat) : Bool :=
  (s.qvol q).state != .disabled && !(s.port (s.queue q).port).canIssue

/-- QUEUE_STATUS (Table WQ-9). -/
def queueStatus (s : State) (q : Nat) : Nat :=
  let v := s.qvol q
  v.state.num + at1 (queueIdle s q) 2 + at1 (portWait s q) 3 + at1 v.recovered 4 +
    at1 (hasWork s q) 5 + 2 ^ 8 * (s.queue q).items.length

/-- QUEUE_STOP (Table WQ-11). -/
def queueStopWord (v : QVol) : Nat := v.stopIndex + 2 ^ 16 * v.stopCause

/-- INVAL_MARK (Table WQ-12). -/
def invalMark (v : QVol) : Nat := v.invalIndex + at1 v.invalValid 31

/-- A queue's counter (Table WQ-16). -/
def queueCounter (v : QVol) : Nat → Nat
  | 5 => v.itemsDone
  | 6 => v.refetches
  | 7 => v.specFaults
  | _ => v.waitTime

/-! ### Translation, the Fault Ledger and the Ledger -/

/-- XLATE_FENCE, FL_INDEX and FL_COUNT (Table TF-9). -/
def xlateFence (s : State) : Nat := s.xlate.issued.toNat + 2 ^ 16 * s.xlate.done.toNat
def flIndex (s : State) : Nat := s.dur.faults.head + 2 ^ 16 * s.dur.faults.tail
def flCount (s : State) (r : Req) : Nat :=
  s.dur.faults.count + at1 (s.xlate.overflow.get r) 16 + at1 (s.xlate.new.get r) 17

/-- A Fault Ledger record (Table TF-11); an empty slot reads zero (R555). -/
def faultBytes (r : FaultRec) : List Byte :=
  if r.type = 0 then List.replicate 64 0
  else
    let walk := decide (0x80 ≤ r.type ∧ r.type ≤ 0x84) || r.type == 0x86
    [BitVec.ofNat 8 r.type, BitVec.ofNat 8 r.path,
     BitVec.ofNat 8 (b2n r.held + at1 r.abandoned 1 + at1 walk 2), BitVec.ofNat 8 r.room] ++
    leBytes 6 r.iova ++ [BitVec.ofNat 8 r.level, 0] ++ leBytes 2 (r.queue.getD 0xFFFF) ++
    leBytes 2 r.index ++ leBytes 2 (r.tn.getD 0xFFFF) ++
    [BitVec.ofNat 8 r.cls.num, BitVec.ofNat 8 r.step] ++ leBytes 8 r.epoch ++ leBytes 4 r.sequence ++
    bytesAt r.image 0 12 ++ leBytes 2 r.tag ++ [BitVec.ofNat 8 r.kind] ++ List.replicate 17 0

/-- LEDGER_STATUS (Table LG-4). -/
def ledgerStatus (s : State) (r : Req) : Nat :=
  b2n s.dur.g.hostMirror.enable + 2 * (s.ledger.status.get r).toNat

/-- LedgerFenceStatus: DONE reads 0 (Table LG-5). -/
def ledgerFenceStatus (s : State) (r : Req) : Nat := 2 * (s.ledger.dropped.get r).toNat

/-- LedgerHostMirror (Table LG-5). -/
def hostMirrorBytes (h : HostMirror) : List Byte :=
  [BitVec.ofNat 8 (b2n h.enable + 2 * h.port.num), BitVec.ofNat 8 h.room, BitVec.ofNat 8 h.first,
   BitVec.ofNat 8 h.count] ++ leBytes 6 h.base ++ List.replicate 6 0

/-- A port's Ledger counter (Table LG-5). -/
def ledgerCounter (l : Ledger) (p : Port) : Nat → Nat
  | 0 => l.persisted.get p
  | 1 => l.denied.get p
  | 2 => l.notReady.get p
  | _ => l.fenceCount.get p

/-- A wear object of a Ledger island (Table LG-5). -/
def ledgerWear (l : Ledger) (island : Nat) : Nat → Nat
  | 0 => ledgerLife l island
  | 1 => sparePages l island
  | 2 => mget 0 l.relocations island
  | 3 => mget 0 l.corrected island
  | _ => mget 0 l.uncorrectable island

/-! ### Durability and power -/

/-- DURABLE_STATUS (Table DU-6). -/
def durableStatus (s : State) (r : Req) : Nat :=
  b2n s.durab.throttle + at1 s.durab.ckpt.isSome 1 + at1 s.durab.warn 2 + at1 s.dur.g.flushDone 3 +
    at1 s.durab.rootValid 4 + 2 ^ 5 * ((s.durab.status.get r).toNat / 2) +
    2 ^ 6 * ((s.durab.status.get r).toNat % 2)

/-- WARN_CONTROL (Table DU-6). -/
def warnControl (g : Globals) : Nat := b2n g.warnEnable + 2 ^ 4 * g.warnChannel

/-- FLUSH_STATUS (Table DU-6). -/
def flushStatus (s : State) : Nat := flushWaiting s + 2 ^ 16 * flushHung s

/-- RECOVERY_STATUS (Table DU-6). -/
def recoveryStatus (d : Durab) : Nat :=
  d.rootUsed + at1 d.conflict 2 + at1 d.benign 3 + at1 d.torn 4 + at1 d.degraded 5

/-- RecoveryReport (Table DU-8). -/
def recoveryReport (d : Durab) : List Byte :=
  [BitVec.ofNat 8 d.rootUsed,
   BitVec.ofNat 8 (b2n d.conflict + at1 d.benign 1 + at1 d.torn 2 + at1 d.degraded 3),
   BitVec.ofNat 8 (if d.rootUsed = 0 then 0 else d.rootKind.num), 0] ++
  leBytes 8 d.rootEpoch ++ leBytes 4 d.benignBytes ++ leBytes 4 d.repCorrected ++
  leBytes 4 d.repRebuilt ++ leBytes 4 d.lostLines ++ leBytes 4 d.repCaptureUs

/-- POWER_STATUS (Table PW-8). -/
def powerStatus (s : State) : Nat := levelCount s .dozing + 2 ^ 8 * levelCount s .retained

/-! ### Lanes, the Keeper and security -/

/-- STATE of a lane (Table WS-3). -/
def LaneState.num : LaneState → Nat
  | .off => 0
  | .hunting => 1
  | .locked => 2
  | .stale => 3

/-- LaneStatus (WS.7). -/
def laneStatus (l : Lane) (r : Req) : Nat :=
  l.state.num + 2 ^ 8 * (l.flags.get r).toNat + 2 ^ 16 * (l.lastSeq % 256)

/-- A lane counter (Table WS-9). -/
def laneCounter (l : Lane) : Nat → Nat
  | 2 => l.framesApplied
  | 3 => l.crcErrors
  | 4 => l.codeErrors
  | 5 => l.shortFrames
  | 6 => l.longFrames
  | 7 => l.framesMissed
  | 8 => l.duplicates
  | _ => l.timeouts

/-- LaneControl (Table WS-8). -/
def laneControlBytes (c : LaneCfg) : List Byte :=
  [BitVec.ofNat 8 (b2n c.enable + at1 c.invert 1 + at1 c.gapEdge 2), BitVec.ofNat 8 c.stalePolicy] ++
    leBytes 2 c.timeout ++ List.replicate 4 0

/-- PinLevels (WS.7). -/
def pinLevels (s : State) : List Byte :=
  (List.range 64).map fun k => BitVec.ofNat 8
    ((List.range 8).foldl (fun n i => n + at1 (s.pinValue (8 * k + i)) i) 0)

/-- StrapValues (Table BU-7). -/
def strapValues (t : Straps) : Nat :=
  b2n t.sbMode + 2 * (t.sbAddr % 4) + at1 t.refsel 3 + at1 t.testEn 4

/-- ResetCause (Table BU-7). -/
def resetCauseBytes (c : ResetCause) : List Byte :=
  [BitVec.ofNat 8 c.cause, BitVec.ofNat 8 (b2n c.recovered), BitVec.ofNat 8 (b2n c.holdupLow), 0] ++
    leBytes 2 c.ms ++ [0, 0]

/-- ImageStatus (DS.8.2). -/
def ImageState.num : ImageState → Nat
  | .empty => 0
  | .staging => 1
  | .verified => 2
  | .applying => 3
  | .applied => 4
  | .failed => 5
def imageStatus (i : Image) : Nat := i.state.num + 2 ^ 4 * i.error

/-- TamperLog (Table SD-13). -/
def tamperLogBytes (t : TamperLog) : List Byte :=
  [BitVec.ofNat 8 t.cause, BitVec.ofNat 8 t.action, BitVec.ofNat 8 t.pstate, BitVec.ofNat 8 t.zeroize] ++
    leBytes 8 t.epoch ++ List.replicate 4 0

/-- DeviceProvisionalId (R829). -/
def provisionalId (k : Keeper) : Nat :=
  2 ^ 33 * Config.mipiManufacturer.toNat + 2 ^ 16 * 0x4096 + 2 ^ 12 * (k.straps.sbAddr % 4) +
    Config.deviceSerial.toNat % 2 ^ 12

end Sys2Proof.Machine
end

