-- ==== Sys2Proof/Machine/Operands.lean ====
section
/-!
DEFINITION. The operand forms of a register or dictionary access: the objects of the dictionary by name
and by address (DC), their types, rights, conditions, persistence and ranges, and the order in which a
write is judged (R837).
-/

namespace Sys2Proof.Machine

open Sys2Proof

/-! ### Objects and addresses (DS.1, DC) -/

/-- The objects of the dictionary (R816). A number is the part of the index or subindex that varies. -/
inductive Obj where
  | idPart | idStepping | idCaps | provisionalId | productName | dictionaryVersion | imageFormat
  | linkARooms | linkBRooms | hatchTimeout
  | sbMode | sbAddress | sbHatchWait | sbEid | sbCarrierLoss | sbDynAddr
  | alertSelect (n : Nat)
  | keeperReset | strapValues | startStatus | resetCause
  | stageData | stageOffset | imageControl | imageStatus | imageLastSequence | imageIgnored
  | imageClamped | imageFirstIgnored
  | conductStatus | ignLast | ignCount (r : Req) | ignCountClr | deadboltStatus | deadboltSet
  | hatchAbortLog
  | sourceConfig | sourceState | sourceControl | sourceHolder | sourceMask
  | letterboxRooms | noteLimit | noteSlotsFree | lastReject | intakeCounter (p : Port) (k : Nat)
  | noteSlotsBank (b : Nat) | roomReach (m : Nat)
  | targetRoom | targetPort | targetControl | targetStatus | pane (c : Cls) | wake (c : Cls)
  | fallbackTarget | threshold (c : Cls) | louvre (c : Cls) | warnMember | flushState
  | activeWatchdog (c : Cls) | eoiErrorRaise | eoiErrors | eoiErrorLast | watchdogExpiries
  | watchdogLast | shutter
  | queueControl (q : Nat) | queueConfig (q : Nat) | queuePoll (q : Nat) | queueRingBase (q : Nat)
  | queueIndices (q : Nat) | queueCounter (q k : Nat) | queueEvent (q : Nat)
  | xlateRoot (m : Nat) | xlateControl (m : Nat) | xlateFaults (m : Nat) | xlateWalks (m : Nat)
  | invalidateRange | faultIndex | faultRecord | faultOverflow | faultRaise | faultCount
  | faultConsume
  | pinConfig (p : Nat) | pinLevels | sillCrc | laneControl (n : Nat) | laneStatus (n : Nat)
  | laneCounter (n k : Nat) | laneLines (n : Nat) | lineConfig (n i : Nat)
  | segmentRoom (g : Nat) | hostMirror | mirrorBacklog | ledgerFenceStatus | ledgerStatus
  | ledgerCounter (p : Port) (k : Nat) | ledgerWear (i k : Nat)
  | mirrorEnable | dirtyBudget | autoCheckpoint | warnControl | currentEpoch | lastRootEpoch
  | recoveryReport | rootBenign | throttleTime | checkpoints | stormCount | durableStatus
  | mirrorSpares (c : Nat) | mirrorRetries (c : Nat) | mirrorCorrected (c : Nat)
  | creditMax (p : Port) | creditOver (p : Port) | vholdAtStorm | tjExcursions | unqualifiedLoss
  | powerCeiling | dozeDelay | retainDelay | islandWakes | islandRetains | dieTemperature
  | securityState | ownerKey | deviceSerial | sealedRooms | tamperAction | tamperEnable | tamperLog
  | tamperCount | authNonce | authSigR | authSigS | authRequest | authResult | debugGrant
  | debugActive | imageLastDigest | imageRejectDetail
  deriving DecidableEq, Repr

/-- 0x0000 to 0x02FF (Tables DC-3 to DC-5). -/
def objLow (index sub : Nat) : Option Obj :=
  match index, sub with
  | 0x0000, 0 => some .idPart
  | 0x0000, 1 => some .idStepping
  | 0x0000, 2 => some .idCaps
  | 0x0000, 3 => some .provisionalId
  | 0x0000, 4 => some .productName
  | 0x0000, 5 => some .dictionaryVersion
  | 0x0000, 6 => some .imageFormat
  | 0x0100, 0 => some .linkARooms
  | 0x0100, 1 => some .linkBRooms
  | 0x0100, 2 => some .hatchTimeout
  | 0x0120, 0 => some .sbMode
  | 0x0120, 1 => some .sbAddress
  | 0x0120, 2 => some .sbHatchWait
  | 0x0120, 3 => some .sbEid
  | 0x0120, 4 => some .sbCarrierLoss
  | 0x0120, 5 => some .sbDynAddr
  | 0x0140, n => if n < 16 then some (.alertSelect n) else none
  | 0x0160, 0 => some .keeperReset
  | 0x0160, 1 => some .strapValues
  | 0x0160, 2 => some .startStatus
  | 0x0160, 3 => some .resetCause
  | 0x0180, 0 => some .stageData
  | 0x0180, 1 => some .stageOffset
  | 0x0180, 2 => some .imageControl
  | 0x0180, 3 => some .imageStatus
  | 0x0180, 4 => some .imageLastSequence
  | 0x0180, 5 => some .imageIgnored
  | 0x0180, 6 => some .imageClamped
  | 0x0180, 7 => some .imageFirstIgnored
  | 0x0200, 0 => some .conductStatus
  | 0x0200, 1 => some .ignLast
  | 0x0200, 2 => some (.ignCount .linkA)
  | 0x0200, 3 => some (.ignCount .linkB)
  | 0x0200, 4 => some (.ignCount .sideband)
  | 0x0200, 5 => some .ignCountClr
  | 0x0200, 6 => some .deadboltStatus
  | 0x0200, 7 => some .deadboltSet
  | 0x0200, 8 => some .hatchAbortLog
  | _, _ => none

/-- 0x1000 to 0x2FFF (Tables DC-6 to DC-8). -/
def objSourceTarget (index sub : Nat) : Option Obj :=
  match index, sub with
  | 0x1000, 0 => some .sourceConfig
  | 0x1000, 1 => some .sourceState
  | 0x1000, 2 => some .sourceControl
  | 0x1000, 3 => some .sourceHolder
  | 0x1000, 4 => some .sourceMask
  | 0x1F00, 0 => some .letterboxRooms
  | 0x1F00, 1 => some .noteLimit
  | 0x1F00, 2 => some .noteSlotsFree
  | 0x1F00, 3 => some .lastReject
  | 0x1F01, k => if k < 9 then some (.intakeCounter .a k) else none
  | 0x1F02, k => if k < 9 then some (.intakeCounter .b k) else none
  | 0x1F03, b => if b < 32 then some (.noteSlotsBank b) else none
  | 0x1F10, m => if m < 16 then some (.roomReach m) else none
  | 0x2000, 0x0 => some .targetRoom
  | 0x2000, 0x1 => some .targetPort
  | 0x2000, 0x2 => some .targetControl
  | 0x2000, 0x3 => some .targetStatus
  | 0x2000, 0x4 => some (.pane .normal)
  | 0x2000, 0x5 => some (.pane .fast)
  | 0x2000, 0x6 => some (.wake .normal)
  | 0x2000, 0x7 => some (.wake .fast)
  | 0x2000, 0x8 => some .fallbackTarget
  | 0x2000, 0x9 => some (.threshold .normal)
  | 0x2000, 0xA => some (.threshold .fast)
  | 0x2000, 0xB => some (.louvre .normal)
  | 0x2000, 0xC => some (.louvre .fast)
  | 0x2000, 0xD => some .warnMember
  | 0x2000, 0xE => some .flushState
  | 0x2F00, 0 => some (.activeWatchdog .normal)
  | 0x2F00, 1 => some (.activeWatchdog .fast)
  | 0x2F00, 2 => some .eoiErrorRaise
  | 0x2F00, 3 => some .eoiErrors
  | 0x2F00, 4 => some .eoiErrorLast
  | 0x2F00, 5 => some .watchdogExpiries
  | 0x2F00, 6 => some .watchdogLast
  | 0x2F00, 7 => some .shutter
  | _, _ => none

/-- 0x3000 to 0x30FF (Table DC-9). -/
def objQueue (index sub : Nat) : Option Obj :=
  let q := index - 0x3000
  match sub with
  | 0 => some (.queueControl q)
  | 1 => some (.queueConfig q)
  | 2 => some (.queuePoll q)
  | 3 => some (.queueRingBase q)
  | 4 => some (.queueIndices q)
  | 5 => some (.queueCounter q 5)
  | 6 => some (.queueCounter q 6)
  | 7 => some (.queueCounter q 7)
  | 8 => some (.queueCounter q 8)
  | 9 => some (.queueEvent q)
  | _ => none

/-- 0x4000 to 0x4FFF (Table DC-10). -/
def objXlate (index sub : Nat) : Option Obj :=
  let m := index - 0x4000
  if m < 16 then
    match sub with
    | 0 => some (.xlateRoot m)
    | 1 => some (.xlateControl m)
    | 2 => some (.xlateFaults m)
    | 3 => some (.xlateWalks m)
    | _ => none
  else
    match index, sub with
    | 0x4F00, 0 => some .invalidateRange
    | 0x4F00, 1 => some .faultIndex
    | 0x4F00, 2 => some .faultRecord
    | 0x4F00, 3 => some .faultOverflow
    | 0x4F00, 4 => some .faultRaise
    | 0x4F00, 5 => some .faultCount
    | 0x4F00, 6 => some .faultConsume
    | _, _ => none

/-- 0x5000 to 0x5FFF (Table DC-11). -/
def objWired (index sub : Nat) : Option Obj :=
  let n := index - 0x5100
  if 0x5100 ≤ index then
    if 56 ≤ n then none
    else if sub = 0 then some (.laneControl n)
    else if sub = 1 then some (.laneStatus n)
    else if sub ≤ 9 then some (.laneCounter n sub)
    else if sub = 10 then some (.laneLines n)
    else if 0x40 ≤ sub && sub < 0x80 then some (.lineConfig n (sub - 0x40))
    else none
  else
    match index, sub with
    | 0x5000, p => some (.pinConfig p)
    | 0x5001, p => some (.pinConfig (256 + p))
    | 0x5002, 0 => some .pinLevels
    | 0x5003, 0 => some .sillCrc
    | _, _ => none

/-- 0x6000 to 0x6FFF (Table DC-12). -/
def objLedger (index sub : Nat) : Option Obj :=
  match index, sub with
  | 0x6000, g => if g < 64 then some (.segmentRoom g) else none
  | 0x6001, 0 => some .hostMirror
  | 0x6001, 1 => some .mirrorBacklog
  | 0x6001, 2 => some .ledgerFenceStatus
  | 0x6001, 3 => some .ledgerStatus
  | 0x6002, k => if k < 4 then some (.ledgerCounter .a k) else none
  | 0x6003, k => if k < 4 then some (.ledgerCounter .b k) else none
  | i, k => if 0x6010 ≤ i && i < 0x6014 && k < 5 then some (.ledgerWear (i - 0x6010) k) else none

/-- 0x7000 to 0x8FFF (Tables DC-13 and DC-14). -/
def objDurable (index sub : Nat) : Option Obj :=
  match index, sub with
  | 0x7000, 0x0 => some .mirrorEnable
  | 0x7000, 0x1 => some .dirtyBudget
  | 0x7000, 0x2 => some .autoCheckpoint
  | 0x7000, 0x3 => some .warnControl
  | 0x7000, 0x4 => some .currentEpoch
  | 0x7000, 0x5 => some .lastRootEpoch
  | 0x7000, 0x6 => some .recoveryReport
  | 0x7000, 0x7 => some .rootBenign
  | 0x7000, 0x8 => some .throttleTime
  | 0x7000, 0x9 => some .checkpoints
  | 0x7000, 0xA => some .stormCount
  | 0x7000, 0xB => some .durableStatus
  | 0x7020, 0 => some (.creditMax .a)
  | 0x7020, 1 => some (.creditMax .b)
  | 0x7020, 2 => some (.creditOver .a)
  | 0x7020, 3 => some (.creditOver .b)
  | 0x7020, 4 => some .vholdAtStorm
  | 0x7020, 5 => some .tjExcursions
  | 0x7020, 6 => some .unqualifiedLoss
  | 0x8000, 0 => some .powerCeiling
  | 0x8000, 1 => some .dozeDelay
  | 0x8000, 2 => some .retainDelay
  | 0x8000, 3 => some .islandWakes
  | 0x8000, 4 => some .islandRetains
  | 0x8000, 5 => some .dieTemperature
  | i, k =>
    if 0x7010 ≤ i && i < 0x7018 then
      match k with
      | 0 => some (.mirrorSpares (i - 0x7010))
      | 1 => some (.mirrorRetries (i - 0x7010))
      | 2 => some (.mirrorCorrected (i - 0x7010))
      | _ => none
    else none

/-- 0x9000 to 0x9FFF (Table DC-15). -/
def objSecurity (index sub : Nat) : Option Obj :=
  match index, sub with
  | 0x9000, 0 => some .securityState
  | 0x9000, 1 => some .ownerKey
  | 0x9000, 2 => some .deviceSerial
  | 0x9000, 3 => some .sealedRooms
  | 0x9000, 4 => some .tamperAction
  | 0x9000, 5 => some .tamperEnable
  | 0x9000, 6 => some .tamperLog
  | 0x9000, 7 => some .tamperCount
  | 0x9010, 0 => some .authNonce
  | 0x9010, 1 => some .authSigR
  | 0x9010, 2 => some .authSigS
  | 0x9010, 3 => some .authRequest
  | 0x9010, 4 => some .authResult
  | 0x9020, 0 => some .debugGrant
  | 0x9020, 1 => some .debugActive
  | 0x9030, 0 => some .imageLastDigest
  | 0x9030, 1 => some .imageRejectDetail
  | _, _ => none

/-- The object at an index and subindex; none where the location is reserved (R149, R151, R827). -/
def objAt (index sub : Nat) : Option Obj :=
  if index < 0x1000 then objLow index sub
  else if index < 0x3000 then objSourceTarget index sub
  else if index < 0x3100 then objQueue index sub
  else if index < 0x4000 then none
  else if index < 0x5000 then objXlate index sub
  else if index < 0x6000 then objWired index sub
  else if index < 0x7000 then objLedger index sub
  else if index < 0x9000 then objDurable index sub
  else if index < 0xA000 then objSecurity index sub
  else none

/-! ### Descriptions (DS.2, DS.3, DC.1) -/

/-- The Right column (R819). -/
inductive Right where
  | r
  | rw
  | wo
  deriving DecidableEq, Repr

/-- The condition codes of Table DC-2; O is the copies' own. -/
inductive Cond where
  | none
  | e
  | p
  | pStar
  | q
  | m
  | h
  | f
  | i
  | k
  | k0
  | d
  | c
  deriving DecidableEq, Repr

/-- Persistence classes (Table DS-3), as DESCRIBE numbers them. -/
inductive Pers where
  | img
  | dur
  | kpr
  | vol
  deriving DecidableEq, Repr

/-- What the catalogue says of an object: its type's code and length, its right, its condition, its
persistence and the clamp of an object that is one quantity (R826). -/
structure Desc where
  type : Nat
  len : Nat
  right : Right
  cond : Cond
  pers : Pers
  lo : Nat
  hi : Nat
  deriving DecidableEq, Repr

/-- Types of Table DS-2 with their lengths. -/
def tBool : Nat × Nat := (0x01, 1)
def tU8 : Nat × Nat := (0x02, 1)
def tU16 : Nat × Nat := (0x03, 2)
def tU32 : Nat × Nat := (0x04, 4)
def tU64 : Nat × Nat := (0x05, 8)
def tAddr : Nat × Nat := (0x06, 6)
def tEpoch : Nat × Nat := (0x07, 8)
def tEnum : Nat × Nat := (0x08, 1)
def tMask : Nat × Nat := (0x09, 2)
def tOct32 : Nat × Nat := (0x0B, 32)
def tOct64 : Nat × Nat := (0x0C, 64)
def tStr : Nat × Nat := (0x0D, 32)
def tRec (n : Nat) : Nat × Nat := (0x0E, n)

/-- A description of an object that is no quantity. -/
def mkDesc (t : Nat × Nat) (right : Right) (cond : Cond) (p : Pers) : Desc :=
  { type := t.1, len := t.2, right := right, cond := cond, pers := p, lo := 0, hi := 0 }

/-- A description of a quantity. -/
def quantity (t : Nat × Nat) (cond : Cond) (p : Pers) (lo hi : Nat) : Desc :=
  { mkDesc t .rw cond p with lo := lo, hi := hi }

/-- The catalogue (Tables DC-3 to DC-15). -/
def Obj.desc : Obj → Desc
  | .idPart => mkDesc tU16 .r .none .vol
  | .idStepping => mkDesc tU32 .r .none .vol
  | .idCaps => mkDesc tU32 .r .none .vol
  | .provisionalId => mkDesc tU64 .r .none .vol
  | .productName => mkDesc tStr .r .none .vol
  | .dictionaryVersion => mkDesc tU16 .r .none .vol
  | .imageFormat => mkDesc tU16 .r .none .vol
  | .linkARooms => mkDesc tMask .rw .p .img
  | .linkBRooms => mkDesc tMask .rw .p .img
  | .hatchTimeout => quantity tU16 .none .vol 10 65535
  | .sbMode => mkDesc tEnum .r .none .kpr
  | .sbAddress => mkDesc tU8 .r .none .kpr
  | .sbHatchWait => quantity tU16 .p .img 1 1000
  | .sbEid => mkDesc tU8 .r .none .vol
  | .sbCarrierLoss => mkDesc tU32 .r .none .vol
  | .sbDynAddr => mkDesc tU8 .r .none .vol
  | .alertSelect _ => mkDesc tEnum .rw .p .kpr
  | .keeperReset => mkDesc (tRec 4) .wo .p .vol
  | .strapValues => mkDesc tU8 .r .none .kpr
  | .startStatus => mkDesc tU32 .r .none .vol
  | .resetCause => mkDesc (tRec 8) .r .none .vol
  | .stageData => mkDesc tOct64 .wo .i .vol
  | .stageOffset => quantity tU32 .i .vol 0 262080
  | .imageControl => mkDesc tEnum .rw .i .vol
  | .imageStatus => mkDesc tU32 .r .none .vol
  | .imageLastSequence => mkDesc tU64 .r .none .dur
  | .imageIgnored => mkDesc tU32 .r .none .vol
  | .imageClamped => mkDesc tU32 .r .none .vol
  | .imageFirstIgnored => mkDesc tU32 .r .none .vol
  | .conductStatus => mkDesc tU32 .r .none .vol
  | .ignLast => mkDesc tU32 .r .none .vol
  | .ignCount _ => mkDesc tU32 .r .none .vol
  | .ignCountClr => mkDesc tU8 .wo .c .vol
  | .deadboltStatus => mkDesc tU8 .r .none .kpr
  | .deadboltSet => mkDesc tU8 .rw .d .kpr
  | .hatchAbortLog => mkDesc tU32 .r .none .vol
  | .sourceConfig => mkDesc (tRec 8) .rw .e .img
  | .sourceState => mkDesc tU32 .r .e .dur
  | .sourceControl => mkDesc tEnum .rw .e .vol
  | .sourceHolder => mkDesc tU16 .r .e .dur
  | .sourceMask => mkDesc tBool .rw .e .img
  | .letterboxRooms => mkDesc tMask .rw .p .img
  | .noteLimit => quantity tU8 .p .img 1 64
  | .noteSlotsFree => mkDesc tU32 .r .none .vol
  | .lastReject => mkDesc (tRec 12) .r .pStar .vol
  | .intakeCounter _ _ => mkDesc tU64 .r .none .vol
  | .noteSlotsBank _ => mkDesc tU16 .r .none .vol
  | .roomReach _ => mkDesc tMask .rw .p .img
  | .targetRoom => mkDesc tU8 .rw .e .img
  | .targetPort => mkDesc tEnum .rw .e .img
  | .targetControl => mkDesc tU32 .rw .e .img
  | .targetStatus => mkDesc tU32 .r .e .vol
  | .pane _ => mkDesc tAddr .rw .e .img
  | .wake _ => mkDesc (tRec 12) .rw .e .img
  | .fallbackTarget => mkDesc tU16 .rw .e .img
  | .threshold _ => quantity tU16 .e .img 0 256
  | .louvre _ => mkDesc tU16 .rw .e .img
  | .warnMember => mkDesc tBool .rw .e .img
  | .flushState => mkDesc tEnum .r .e .dur
  | .activeWatchdog _ => quantity tU32 .p .img 10 10000000
  | .eoiErrorRaise => mkDesc tBool .rw .p .img
  | .eoiErrors => mkDesc tU64 .r .none .vol
  | .eoiErrorLast => mkDesc (tRec 8) .r .none .vol
  | .watchdogExpiries => mkDesc tU64 .r .none .vol
  | .watchdogLast => mkDesc (tRec 8) .r .none .vol
  | .shutter => mkDesc tBool .rw .p .vol
  | .queueControl _ => mkDesc tU32 .rw .q .img
  | .queueConfig _ => mkDesc tU32 .rw .q .img
  | .queuePoll _ => quantity tU32 .q .img 8 1048575
  | .queueRingBase _ => mkDesc tAddr .rw .q .img
  | .queueIndices _ => mkDesc (tRec 8) .r .q .dur
  | .queueCounter _ _ => mkDesc tU64 .r .q .vol
  | .queueEvent _ => mkDesc tU32 .r .q .vol
  | .xlateRoot _ => mkDesc tU64 .rw .m .img
  | .xlateControl _ => mkDesc tU32 .rw .m .img
  | .xlateFaults _ => mkDesc tU64 .r .none .vol
  | .xlateWalks _ => mkDesc tU64 .r .none .vol
  | .invalidateRange => mkDesc (tRec 12) .wo .m .vol
  | .faultIndex => mkDesc tU16 .rw .none .vol
  | .faultRecord => mkDesc (tRec 64) .r .f .dur
  | .faultOverflow => mkDesc tU64 .r .none .dur
  | .faultRaise => mkDesc tBool .rw .p .img
  | .faultCount => mkDesc tU32 .r .none .dur
  | .faultConsume => { quantity tU16 .p .vol 0 4096 with right := .wo }
  | .pinConfig _ => mkDesc (tRec 4) .rw .e .img
  | .pinLevels => mkDesc tOct64 .r .none .vol
  | .sillCrc => mkDesc tU64 .rw .pStar .img
  | .laneControl _ => mkDesc (tRec 8) .rw .pStar .img
  | .laneStatus _ => mkDesc tU32 .r .none .vol
  | .laneCounter _ _ => mkDesc tU64 .r .none .vol
  | .laneLines _ => mkDesc tU64 .r .none .vol
  | .lineConfig _ _ => mkDesc (tRec 4) .rw .e .img
  | .segmentRoom _ => mkDesc tU8 .rw .p .img
  | .hostMirror => mkDesc (tRec 16) .rw .h .img
  | .mirrorBacklog => mkDesc tU32 .r .none .vol
  | .ledgerFenceStatus => mkDesc tU32 .r .none .vol
  | .ledgerStatus => mkDesc tU32 .r .none .vol
  | .ledgerCounter _ _ => mkDesc tU64 .r .none .vol
  | .ledgerWear _ 0 => mkDesc tU8 .r .none .dur
  | .ledgerWear _ 1 => mkDesc tU16 .r .none .dur
  | .ledgerWear _ _ => mkDesc tU64 .r .none .dur
  | .mirrorEnable => mkDesc tBool .rw .p .img
  | .dirtyBudget => quantity tU8 .p .img 1 8
  | .autoCheckpoint => quantity tU32 .p .img 0 60000
  | .warnControl => mkDesc tU32 .rw .p .img
  | .currentEpoch => mkDesc tEpoch .r .none .dur
  | .lastRootEpoch => mkDesc tEpoch .r .none .dur
  | .recoveryReport => mkDesc (tRec 32) .r .none .vol
  | .rootBenign => mkDesc tU64 .r .none .dur
  | .throttleTime => mkDesc tU64 .r .none .vol
  | .checkpoints => mkDesc tU64 .r .none .vol
  | .stormCount => mkDesc tU64 .r .none .dur
  | .durableStatus => mkDesc tU32 .r .none .vol
  | .mirrorSpares _ => mkDesc tU8 .r .none .dur
  | .mirrorRetries _ => mkDesc tU64 .r .none .vol
  | .mirrorCorrected _ => mkDesc tU64 .r .none .vol
  | .creditMax _ => mkDesc tU32 .r .none .vol
  | .creditOver _ => mkDesc tU64 .r .none .vol
  | .vholdAtStorm => mkDesc tU16 .r .none .dur
  | .tjExcursions => mkDesc tU32 .r .none .kpr
  | .unqualifiedLoss => mkDesc tU32 .r .none .kpr
  | .powerCeiling => mkDesc tEnum .rw .p .img
  | .dozeDelay => quantity tU32 .p .img 10 100000
  | .retainDelay => quantity tU32 .p .img 10 1000000
  | .islandWakes => mkDesc tU64 .r .none .vol
  | .islandRetains => mkDesc tU64 .r .none .vol
  | .dieTemperature => mkDesc tU16 .r .none .vol
  | .securityState => mkDesc tEnum .r .none .kpr
  | .ownerKey => mkDesc tOct64 .rw .k0 .kpr
  | .deviceSerial => mkDesc tU64 .r .none .kpr
  | .sealedRooms => mkDesc tMask .rw .k .kpr
  | .tamperAction => mkDesc tEnum .rw .k .kpr
  | .tamperEnable => mkDesc tU8 .rw .k .kpr
  | .tamperLog => mkDesc (tRec 16) .r .none .kpr
  | .tamperCount => mkDesc tU32 .r .none .kpr
  | .authNonce => mkDesc tOct32 .r .none .vol
  | .authSigR => mkDesc tOct64 .rw .none .vol
  | .authSigS => mkDesc tOct64 .rw .none .vol
  | .authRequest => mkDesc (tRec 4) .wo .p .vol
  | .authResult => mkDesc tU8 .r .none .vol
  | .debugGrant => mkDesc tEnum .r .none .vol
  | .debugActive => mkDesc tEnum .r .none .vol
  | .imageLastDigest => mkDesc tOct64 .r .none .dur
  | .imageRejectDetail => mkDesc tEnum .r .none .vol

/-- Array objects (R150): the element is an SN or a TN. -/
inductive Element where
  | none
  | sn
  | tn
  deriving DecidableEq, Repr

/-- What an object's element names. -/
def Obj.element : Obj → Element
  | .sourceConfig | .sourceState | .sourceControl | .sourceHolder | .sourceMask => .sn
  | .targetRoom | .targetPort | .targetControl | .targetStatus | .pane _ | .wake _
  | .fallbackTarget | .threshold _ | .louvre _ | .warnMember | .flushState => .tn
  | _ => .none

/-- The element names something (R152). -/
def Obj.elementExists (o : Obj) (e : Nat) : Bool :=
  match o.element with
  | .none => true
  | .sn => snExists e
  | .tn => decide (e < 4096)

/-- The lowest-numbered Deadbolt that guards any value of an object (R826, Table DC-16). -/
def Obj.bolt : Obj → Option Nat
  | .sourceConfig | .targetRoom | .queueConfig _ | .roomReach 0 => some 0
  | .authRequest => some 1
  | .mirrorEnable => some 2
  | .sillCrc => some 3
  | _ => none

/-- The Room that an object or element belongs to (R160, R400, R699); `bs` is the value written. -/
def Obj.room (s : State) (o : Obj) (e : Nat) (bs : List Byte) : Option Nat :=
  match o with
  | .queueControl q | .queueConfig q | .queuePoll q | .queueRingBase q | .queueIndices q
  | .queueCounter q _ | .queueEvent q => some (s.queue q).room
  | .xlateRoot m | .xlateControl m | .xlateFaults m | .xlateWalks m => some m
  | .invalidateRange => if bs.isEmpty then none else some (fieldAt bs 0 1)
  | .pinConfig p => some (s.src (0x100000 + p)).room
  | .lineConfig n i => some (s.src (lineSn n i)).room
  | .segmentRoom g => some (s.segRoom g)
  | _ =>
    match o.element with
    | .none => none
    | .sn => if snExists e then some (s.src e).room else none
    | .tn => if e < 4096 then some (s.tgt e).room else none

/-- The record that a requester's FaultRecordIndex names (R555). -/
def State.faultRec (s : State) (r : Req) : FaultRec :=
  mget FaultRec.zero s.dur.faults.recs (s.xlate.recIndex.get r)

/-- Sealed or Lockdown. -/
def SecState.narrow (x : SecState) : Bool := x == .sealed || x == .lockdown

/-! ### Rights (DS.3, SD.1.2) -/

/-- The right of a requester on an object in a security state, no condition applied: 1 for R, 3 for RW
(R157, R817 to R819, R698). -/
def rightOf (sec : SecState) (r : Req) (o : Obj) (index : Nat) : Nat :=
  let base := if o.desc.right = .r then 1 else 3
  if !sec.narrow then base
  else if index < 0x0100 || (0x0200 ≤ index && index < 0x0300) then base
  else if index < 0x0200 then
    if sec = .lockdown then 1
    else if (o = .linkARooms ∨ o = .linkBRooms) ∧ r ≠ .sideband then 1
    else base
  else if index < 0x9000 then (if sec = .lockdown ∧ r = .sideband then 1 else base)
  else if o = .authRequest ∨ o = .authSigR ∨ o = .authSigS then base
  else 1

/-- An object with the index it stands at. -/
def Obj.index : Obj → Nat
  | .idPart | .idStepping | .idCaps | .provisionalId | .productName | .dictionaryVersion
  | .imageFormat => 0x0000
  | .linkARooms | .linkBRooms | .hatchTimeout => 0x0100
  | .sbMode | .sbAddress | .sbHatchWait | .sbEid | .sbCarrierLoss | .sbDynAddr => 0x0120
  | .alertSelect _ => 0x0140
  | .keeperReset | .strapValues | .startStatus | .resetCause => 0x0160
  | .stageData | .stageOffset | .imageControl | .imageStatus | .imageLastSequence | .imageIgnored
  | .imageClamped | .imageFirstIgnored => 0x0180
  | .conductStatus | .ignLast | .ignCount _ | .ignCountClr | .deadboltStatus | .deadboltSet
  | .hatchAbortLog => 0x0200
  | .sourceConfig | .sourceState | .sourceControl | .sourceHolder | .sourceMask => 0x1000
  | .letterboxRooms | .noteLimit | .noteSlotsFree | .lastReject => 0x1F00
  | .intakeCounter p _ => 0x1F01 + p.num
  | .noteSlotsBank _ => 0x1F03
  | .roomReach _ => 0x1F10
  | .targetRoom | .targetPort | .targetControl | .targetStatus | .pane _ | .wake _
  | .fallbackTarget | .threshold _ | .louvre _ | .warnMember | .flushState => 0x2000
  | .activeWatchdog _ | .eoiErrorRaise | .eoiErrors | .eoiErrorLast | .watchdogExpiries
  | .watchdogLast | .shutter => 0x2F00
  | .queueControl q | .queueConfig q | .queuePoll q | .queueRingBase q | .queueIndices q
  | .queueCounter q _ | .queueEvent q => 0x3000 + q
  | .xlateRoot m | .xlateControl m | .xlateFaults m | .xlateWalks m => 0x4000 + m
  | .invalidateRange | .faultIndex | .faultRecord | .faultOverflow | .faultRaise | .faultCount
  | .faultConsume => 0x4F00
  | .pinConfig p => 0x5000 + p / 256
  | .pinLevels => 0x5002
  | .sillCrc => 0x5003
  | .laneControl n | .laneStatus n | .laneCounter n _ | .laneLines n | .lineConfig n _ => 0x5100 + n
  | .segmentRoom _ => 0x6000
  | .hostMirror | .mirrorBacklog | .ledgerFenceStatus | .ledgerStatus => 0x6001
  | .ledgerCounter p _ => 0x6002 + p.num
  | .ledgerWear i _ => 0x6010 + i
  | .mirrorEnable | .dirtyBudget | .autoCheckpoint | .warnControl | .currentEpoch | .lastRootEpoch
  | .recoveryReport | .rootBenign | .throttleTime | .checkpoints | .stormCount | .durableStatus => 0x7000
  | .mirrorSpares c | .mirrorRetries c | .mirrorCorrected c => 0x7010 + c
  | .creditMax _ | .creditOver _ | .vholdAtStorm | .tjExcursions | .unqualifiedLoss => 0x7020
  | .powerCeiling | .dozeDelay | .retainDelay | .islandWakes | .islandRetains | .dieTemperature => 0x8000
  | .securityState | .ownerKey | .deviceSerial | .sealedRooms | .tamperAction | .tamperEnable
  | .tamperLog | .tamperCount => 0x9000
  | .authNonce | .authSigR | .authSigS | .authRequest | .authResult => 0x9010
  | .debugGrant | .debugActive => 0x9020
  | .imageLastDigest | .imageRejectDetail => 0x9030

/-- The subindex an object stands at. -/
def Obj.sub : Obj → Nat
  | .idPart | .linkARooms | .sbMode | .keeperReset | .stageData | .conductStatus | .sourceConfig
  | .letterboxRooms | .targetRoom | .queueControl _ | .xlateRoot _ | .invalidateRange | .pinLevels
  | .sillCrc | .laneControl _ | .hostMirror | .mirrorEnable | .mirrorSpares _ | .powerCeiling
  | .securityState | .authNonce | .debugGrant | .imageLastDigest => 0
  | .idStepping | .linkBRooms | .sbAddress | .strapValues | .stageOffset | .ignLast | .sourceState
  | .noteLimit | .targetPort | .queueConfig _ | .xlateControl _ | .faultIndex | .laneStatus _
  | .mirrorBacklog | .dirtyBudget | .mirrorRetries _ | .dozeDelay | .ownerKey | .authSigR
  | .debugActive | .imageRejectDetail => 1
  | .idCaps | .hatchTimeout | .sbHatchWait | .startStatus | .imageControl | .sourceControl
  | .noteSlotsFree | .targetControl | .eoiErrorRaise | .queuePoll _ | .xlateFaults _ | .faultRecord
  | .ledgerFenceStatus | .autoCheckpoint | .mirrorCorrected _ | .retainDelay | .deviceSerial
  | .authSigS => 2
  | .provisionalId | .sbEid | .resetCause | .imageStatus | .sourceHolder | .lastReject
  | .targetStatus | .eoiErrors | .queueRingBase _ | .xlateWalks _ | .faultOverflow | .ledgerStatus
  | .warnControl | .islandWakes | .sealedRooms | .authRequest => 3
  | .productName | .sbCarrierLoss | .imageLastSequence | .sourceMask | .eoiErrorLast
  | .queueIndices _ | .faultRaise | .currentEpoch | .vholdAtStorm | .islandRetains | .tamperAction
  | .authResult => 4
  | .dictionaryVersion | .sbDynAddr | .imageIgnored | .ignCountClr | .watchdogExpiries | .faultCount
  | .lastRootEpoch | .tjExcursions | .dieTemperature | .tamperEnable => 5
  | .imageFormat | .imageClamped | .deadboltStatus | .watchdogLast | .faultConsume | .recoveryReport
  | .unqualifiedLoss | .tamperLog => 6
  | .imageFirstIgnored | .deadboltSet | .shutter | .rootBenign | .tamperCount => 7
  | .hatchAbortLog | .fallbackTarget | .throttleTime => 8
  | .queueEvent _ | .checkpoints => 9
  | .ignCount r => 2 + reqCode r
  | .pane c => 4 + c.num
  | .wake c => 6 + c.num
  | .threshold c => 9 + c.num
  | .louvre c => 11 + c.num
  | .warnMember => 13
  | .flushState => 14
  | .activeWatchdog c => c.num
  | .stormCount | .laneLines _ => 10
  | .durableStatus => 11
  | .creditMax p => p.num
  | .creditOver p => 2 + p.num
  | .alertSelect n => n
  | .intakeCounter _ k => k
  | .noteSlotsBank b => b
  | .roomReach m => m
  | .queueCounter _ k => k
  | .pinConfig p => p % 256
  | .laneCounter _ k => k
  | .lineConfig _ i => 0x40 + i
  | .segmentRoom g => g
  | .ledgerCounter _ k => k
  | .ledgerWear _ k => k

/-- INDEX:SUBINDEX, as IGN_LAST.ADDR records it (Table CN-23). -/
def Obj.addr (o : Obj) : Nat := o.index * 256 + o.sub

/-- The sideband is kept from what belongs to a Room outside SealedSidebandRooms (R699). -/
def sidebandDenied (s : State) (r : Req) (room : Option Nat) : Bool :=
  r == .sideband && s.nv.sec.narrow &&
    match room with
    | some m => !s.mayTouch .sideband m
    | none => false

/-- A requester may read an object or element (R159, R160, R699, Table DC-2). -/
def mayRead (s : State) (r : Req) (o : Obj) (e : Nat) : Bool :=
  let room := if o = .faultRecord then
      (if (s.faultRec r).type = 0 then none else some (s.faultRec r).room)
    else o.room s e []
  let roomOk := match room with
    | some m => s.mayTouch r m
    | none => true
  o.elementExists e && !sidebandDenied s r room &&
    (r == .sideband ||
      match o.desc.cond with
      | .e | .q | .f => roomOk
      | .pStar => s.platform r
      | _ => true)

/-! ### The judgement of a write (R837) -/

/-- Step 3: the requester's right on the object, and the Room of what is addressed. -/
def writeDenied (s : State) (r : Req) (o : Obj) (e : Nat) (bs : List Byte) : Bool :=
  let link := r != .sideband
  let room := o.room s e bs
  let roomOk := match room with
    | some m => decide (16 ≤ m) || s.mayTouch r m
    | none => true
  rightOf s.nv.sec r o o.index != 3 || sidebandDenied s r (room.filter (· < 16)) ||
    match o.desc.cond with
    | .none | .f | .c => false
    | .e | .q | .m => link && !roomOk
    | .p | .pStar => link && !s.platform r
    | .h =>
      let m := fieldAt bs 1 1
      link && (!s.platform r || (decide (m < 16) && !s.mayTouch r m))
    | .i => s.image.owner.any (· != r)
    | .k => s.nv.sec.narrow || (link && !s.platform r)
    | .k0 => s.nv.sec != .provisioning || (link && !s.platform r)
    | .d => link && !s.platform r && fieldAt bs 0 1 % 32 != 0

/-- TARGET of a SourceConfig record: 0xFFFF is none. -/
def targetField (v : Nat) : Option Nat := if v = 0xFFFF then none else some v

/-- An identifier that is neither a TN nor none. -/
def badTarget (v : Nat) : Bool := decide (0x1000 ≤ v) && v != 0xFFFF

/-- Step 4: an identifier in the element or the value names nothing (R105, R152, R154, R822). -/
def namesNothing (o : Obj) (e : Nat) (bs : List Byte) : Bool :=
  let v := leNat bs
  let byte := fun n => fieldAt bs n 1
  !o.elementExists e ||
    match o with
    | .alertSelect _ => decide (10 < v)
    | .keeperReset => decide (1 < byte 0) || fieldAt bs 1 2 != 0x4B52
    | .imageControl => decide (3 < v)
    | .sourceConfig =>
      decide (1 < byte 3) || (!isIpi e && (badTarget (fieldAt bs 0 2) || decide (15 < byte 4)))
    | .sourceControl => decide (2 < v)
    | .targetRoom => decide (15 < v)
    | .targetPort => decide (1 < v)
    | .fallbackTarget => badTarget v
    | .xlateRoot _ => decide (2 ^ 52 ≤ v)
    | .invalidateRange => decide (15 < byte 0)
    | .faultIndex => decide (4095 < v)
    | .pinConfig _ | .lineConfig _ _ => decide (5 < byte 0)
    | .laneControl _ => decide (2 < byte 1)
    | .segmentRoom _ => decide (15 < v)
    | .hostMirror => decide (15 < byte 1) || decide (63 < byte 2)
    | .powerCeiling => decide (2 < v)
    | .tamperAction => decide (2 < v)
    | .ownerKey => !ownerKeyValid bs
    | .authRequest =>
      decide (3 < byte 0) || ((byte 0 == 2 || byte 0 == 3) && decide (3 < byte 1))
    | _ => false

/-- ROOM of a QUEUE_CONFIG value. -/
def queueRoomField (v : Nat) : Nat := bits v 11 8

/-- A new Room outside a link's mask (R162). -/
def newRoomDenied (s : State) (r : Req) (old new : Nat) : Bool :=
  r != .sideband && old != new && !s.mayTouch r new

/-- Step 5: a right that depends on the value written (R162, R328, R400). -/
def valueDenied (s : State) (r : Req) (o : Obj) (e : Nat) (bs : List Byte) : Bool :=
  match o with
  | .sourceConfig =>
    if isIpi e then false
    else
      let old := s.src e
      let target := targetField (fieldAt bs 0 2)
      let room := fieldAt bs 4 1
      newRoomDenied s r old.room room ||
        ((target != old.target || room != old.room) && !s.routeReaches room target)
  | .targetRoom => newRoomDenied s r (s.tgt e).room (leNat bs)
  | .queueConfig q => newRoomDenied s r (s.queue q).room (queueRoomField (leNat bs))
  | .segmentRoom _ => false
  | _ => false

/-- Step 6: a Deadbolt guards the write (R117, R332, R833, Table DC-16). -/
def boltGuards (s : State) (o : Obj) (e : Nat) (bs : List Byte) : Bool :=
  let set := fun n => s.keeper.deadbolts.getLsbD n
  match o with
  | .sourceConfig => !isIpi e && room0Guard s (s.src e).room (fieldAt bs 4 1)
  | .targetRoom => room0Guard s (s.tgt e).room (leNat bs)
  | .queueConfig q => room0Guard s (s.queue q).room (queueRoomField (leNat bs))
  | .roomReach 0 => set 0 && (BitVec.ofNat 16 (leNat bs) ||| 1) != s.reach 0
  | .mirrorEnable => set 2
  | .sillCrc => set 3
  | .authRequest => (fieldAt bs 0 1 == 2 && set 1) || (fieldAt bs 0 1 == 3 && set 4)
  | _ => false

/-- An ENABLE write of 1 meets an overlapping on-chip ring (R406). -/
def ringTaken (s : State) (q : Nat) : Bool :=
  (List.range 256).any fun k =>
    k != q && (s.qvol k).state != .disabled && ringsOverlap (s.queue q) (s.queue k)

/-- Step 7: a condition of the object's own state (R201, R406, R443). An image record's ENABLE is not
applied (R824). -/
def stateDenied (s : State) (image : Bool) (o : Obj) (bs : List Byte) : Bool :=
  match o with
  | .queueConfig q | .queueRingBase q => !((s.qvol q).state == .disabled && queueIdle s q)
  | .queueControl q => !image && bit (leNat bs) 0 && ringTaken s q
  | .imageControl => leNat bs == 3 && s.image.state == .applying
  | _ => false

/-- Step 2: a clear of another requester's counter (Table CN-25). -/
def clearsOther (r : Req) (o : Obj) (bs : List Byte) : Bool :=
  match o with
  | .ignCountClr => fieldAt bs 0 1 % 8 / 2 ^ reqCode r * 2 ^ reqCode r != fieldAt bs 0 1 % 8 ||
      decide (2 ^ (reqCode r + 1) ≤ fieldAt bs 0 1 % 8)
  | _ => false

/-- The first reason for which a write is ignored, in the order of R837 from its second step on. -/
def judgeWrite (s : State) (r : Req) (image : Bool) (o : Obj) (e : Nat) (bs : List Byte) : Option Nat :=
  if clearsOther r o bs then some rNotOwner
  else if writeDenied s r o e bs then some rAccess
  else if namesNothing o e bs then some rName
  else if valueDenied s r o e bs then some rAccess
  else if boltGuards s o e bs then some rDeadbolt
  else if stateDenied s image o bs then some rAccess
  else none

end Sys2Proof.Machine
end

