-- ==== Sys2Proof/Machine/Objects.lean ====
section
/-!
DEFINITION. The value of every dictionary object (DC), the clear of a status object's read-clear fields
(Table DC-17), and the effect of a write of every object that no reason of R837 stops. Image staging
stands in Image.lean.
-/

namespace Sys2Proof.Machine

open Sys2Proof

/-! ### Values -/

/-- ProductName (Table DC-3). -/
def productName : List Byte :=
  bytesAt [0x4F, 0x43, 0x54, 0x45, 0x4C, 0x4F, 0x20, 0x4F, 0x44, 0x34, 0x30, 0x39, 0x36] 0 32

/-- SourceConfig (Table PK-8). -/
def sourceConfigBytes (r : Source) : List Byte :=
  leBytes 2 (r.target.getD 0xFFFF) ++
    [BitVec.ofNat 8 r.priority, BitVec.ofNat 8 r.cls.num, BitVec.ofNat 8 r.room, 0, 0, 0]

/-- WakeNormal and WakeFast (Table DL-1, R347). -/
def wakeBytes (t : Target) (c : Cls) : List Byte :=
  leBytes 8 (alignDown (t.wakeAddr c) 2) ++ leBytes 4 (t.wakeData c).toNat

/-- QueueIndices (Table WQ-16). -/
def queueIndices (s : State) (q : Nat) : List Byte :=
  let d := s.queue q
  leBytes 2 d.prod ++ leBytes 2 d.cons ++ leBytes 2 d.take ++ [BitVec.ofNat 8 (s.qvol q).state.num, 0]

/-- XlateControl (Table TF-10). -/
def xlateControl (x : XlateRoom) : Nat := b2n x.enable + 2 * x.walkPort.num

/-- An object that is an octet string or a record, as bytes; none where it is a number. -/
def objRecord (s : State) (r : Req) (o : Obj) (e : Nat) : Option (List Byte) :=
  match o with
  | .productName => some productName
  | .resetCause => some (resetCauseBytes s.keeper.resetCause)
  | .keeperReset | .stageData | .invalidateRange | .authRequest => some []
  | .sourceConfig => some (sourceConfigBytes (s.src e))
  | .lastReject => some (lastRejectBytes (s.conduct.get r).lastReject)
  | .wake c => some (wakeBytes (s.tgt e) c)
  | .eoiErrorLast => some (targetEventBytes (s.conduct.get r).eoiError)
  | .watchdogLast => some (targetEventBytes (s.conduct.get r).wdogLast)
  | .queueIndices q => some (queueIndices s q)
  | .faultRecord => some (faultBytes (s.faultRec r))
  | .pinConfig p => some [BitVec.ofNat 8 (s.pinCfg p).mode, BitVec.ofNat 8 (s.pinCfg p).filter, 0, 0]
  | .pinLevels => some (pinLevels s)
  | .laneControl n => some (laneControlBytes (s.laneCfg n))
  | .lineConfig n i => some [BitVec.ofNat 8 (mget 0 s.dur.lines (64 * n + i)), 0, 0, 0]
  | .hostMirror => some (hostMirrorBytes s.dur.g.hostMirror)
  | .recoveryReport => some (recoveryReport s.durab)
  | .ownerKey => some s.nv.ownerKey
  | .tamperLog => some (tamperLogBytes s.nv.tamperLog)
  | .authNonce => some ((s.auth.get r).nonce.getD [])
  | .authSigR => some (s.auth.get r).sigR
  | .authSigS => some (s.auth.get r).sigS
  | .imageLastDigest => some s.dur.g.imageLastDigest
  | _ => none

/-- The identity, access, sideband and image objects that are numbers (Tables DC-3, DC-4). -/
def lowNumber (s : State) (o : Obj) : Nat :=
  match o with
  | .idPart => 0x4096
  | .idStepping => idStepping
  | .idCaps => 0x001FFFFF
  | .provisionalId => provisionalId s.keeper
  | .dictionaryVersion => 0x0100
  | .imageFormat => 0x0100
  | .linkARooms => s.dur.g.linkARooms.toNat
  | .linkBRooms => s.dur.g.linkBRooms.toNat
  | .hatchTimeout => s.hatch.timeout
  | .sbMode => b2n s.keeper.straps.sbMode
  | .sbAddress => 0x48 + s.keeper.straps.sbAddr % 4
  | .sbHatchWait => s.dur.g.sbHatchWait
  | .sbEid => s.sideband.eid
  | .sbCarrierLoss => s.sideband.carrierLoss
  | .sbDynAddr => if s.keeper.straps.sbMode then 0 else s.sideband.dynAddr
  | .alertSelect n => mget 0 s.keeper.alertSelect n
  | .strapValues => strapValues s.keeper.straps
  | .startStatus => globalStatus s
  | .stageOffset => s.image.offset
  | .imageControl => s.image.control
  | .imageStatus => imageStatus s.image
  | .imageLastSequence => s.dur.g.imageLastSequence
  | .imageIgnored => s.image.ignored
  | .imageClamped => s.image.clamped
  | .imageFirstIgnored => s.image.firstIgnored
  | _ => 0

/-- The conduct, source, target and queue objects that are numbers (Tables DC-5 to DC-9). -/
def midNumber (s : State) (r : Req) (o : Obj) (e : Nat) : Nat :=
  match o with
  | .conductStatus => conductStatus (s.conduct.get r)
  | .ignLast => ignLastWord (s.conduct.get r).ignLast
  | .ignCount k => (s.conduct.get k).ignCount
  | .deadboltStatus | .deadboltSet => s.keeper.deadbolts.toNat
  | .hatchAbortLog => abortLogWord (s.conduct.get r).abortLog
  | .sourceState => sourceState s e
  | .sourceHolder => sourceHolder s e
  | .sourceMask => b2n (s.src e).mask
  | .letterboxRooms => s.dur.g.roomEnable.toNat
  | .noteLimit => s.dur.g.noteLimit
  | .noteSlotsFree => ((List.range 32).map (notesFree s)).sum
  | .intakeCounter p k => intakeCounter (s.port p) k
  | .noteSlotsBank b => notesFree s b
  | .roomReach m => (s.reach m).toNat
  | .targetRoom => (s.tgt e).room
  | .targetPort => (s.tgt e).port.num
  | .targetControl => targetControl (s.tgt e)
  | .targetStatus => targetStatus s r e
  | .pane c => alignDown ((s.tgt e).pane c) 6
  | .fallbackTarget => (s.tgt e).fallback.getD 0xFFFF
  | .threshold c => (s.tgt e).threshold c
  | .louvre c => (s.tgt e).louvre c
  | .warnMember => b2n (s.tgt e).warnMember
  | .flushState => (s.tgt e).flush.num
  | .activeWatchdog .normal => s.dur.g.wdogN
  | .activeWatchdog .fast => s.dur.g.wdogF
  | .eoiErrorRaise => b2n s.dur.g.eoiRaise
  | .eoiErrors => s.fabric.eoiErrors
  | .watchdogExpiries => s.fabric.wdogExpiries
  | .shutter => b2n s.fabric.shutter
  | .queueControl q => queueControl s q
  | .queueConfig q => queueConfigWord (s.queue q)
  | .queuePoll q => (s.queue q).interval
  | .queueRingBase q => alignDown (s.queue q).ringBase 6
  | .queueCounter q k => queueCounter (s.qvol q) k
  | .queueEvent q => ((s.qvol q).event.get r).toNat
  | _ => 0

/-- The translation, wired and Ledger objects that are numbers (Tables DC-10 to DC-12). -/
def unitNumber (s : State) (r : Req) (o : Obj) : Nat :=
  match o with
  | .xlateRoot m => alignDown (s.xroom m).root 12
  | .xlateControl m => xlateControl (s.xroom m)
  | .xlateFaults m => mget 0 s.xlate.faultCount m
  | .xlateWalks m => mget 0 s.xlate.walkCount m
  | .faultIndex => s.xlate.recIndex.get r
  | .faultOverflow => s.dur.faults.overflow
  | .faultRaise => b2n s.dur.g.faultRaise
  | .faultCount => flCount s r
  | .sillCrc => s.dur.g.crcEnforce.toNat
  | .laneStatus n => laneStatus (s.lane n) r
  | .laneCounter n k => laneCounter (s.lane n) k
  | .laneLines n => (s.lane n).held.toNat
  | .segmentRoom g => s.segRoom g
  | .mirrorBacklog => s.ledger.backlog.length
  | .ledgerFenceStatus => ledgerFenceStatus s r
  | .ledgerStatus => ledgerStatus s r
  | .ledgerCounter p k => ledgerCounter s.ledger p k
  | .ledgerWear i k => ledgerWear s.ledger i k
  | _ => 0

/-- The durability, power, security and debug objects that are numbers (Tables DC-13 to DC-15). -/
def highNumber (s : State) (r : Req) (o : Obj) : Nat :=
  match o with
  | .mirrorEnable => b2n s.dur.g.mirrorEnable
  | .dirtyBudget => s.dur.g.dirtyBudget
  | .autoCheckpoint => s.dur.g.autoCheckpoint
  | .warnControl => warnControl s.dur.g
  | .currentEpoch => s.dur.g.epoch
  | .lastRootEpoch => s.dur.g.lastRootEpoch
  | .rootBenign => s.dur.g.rootBenign
  | .throttleTime => s.durab.throttleTime
  | .checkpoints => s.durab.rootsCommitted
  | .stormCount => s.dur.g.stormCount
  | .durableStatus => durableStatus s r
  | .mirrorSpares c => mget 32 s.mram.spares c
  | .mirrorRetries c => mget 0 s.durab.retries c
  | .mirrorCorrected c => mget 0 s.durab.corrected c
  | .creditMax .a => (s.conduct.get r).creditMaxA
  | .creditMax .b => (s.conduct.get r).creditMaxB
  | .creditOver p => (s.port p).creditOver
  | .vholdAtStorm => s.dur.g.vholdAtStorm
  | .tjExcursions => s.keeper.tjExcursions
  | .unqualifiedLoss => s.keeper.unqualifiedLoss
  | .powerCeiling => s.dur.g.ceiling
  | .dozeDelay => s.dur.g.dozeDelay
  | .retainDelay => s.dur.g.retainDelay
  | .islandWakes => s.power.wakes
  | .islandRetains => s.power.retains
  | .dieTemperature => (Config.dieTemperature s.free).toNat
  | .securityState => s.nv.sec.num
  | .deviceSerial => Config.deviceSerial.toNat
  | .sealedRooms => s.nv.sealedRooms.toNat
  | .tamperAction => s.nv.tamperAction
  | .tamperEnable => s.nv.tamperEnable.toNat
  | .tamperCount => s.nv.tamperCount
  | .authResult => (s.auth.get r).result
  | .debugGrant => s.dap.grant
  | .debugActive => debugActive s
  | .imageRejectDetail => s.image.rejectDetail
  | _ => 0

/-- The value of an object that a requester reads, in the bytes of its type (R9, R153, R820); a write-only
one reads as zeros (R819). -/
def objValue (s : State) (r : Req) (o : Obj) (e : Nat) : List Byte :=
  let len := o.desc.len
  if o.desc.right = .wo then List.replicate len 0
  else
    match objRecord s r o e with
    | some bs => bytesAt bs 0 len
    | none =>
      leBytes len (if o.index < 0x0200 then lowNumber s o
        else if o.index < 0x4000 then midNumber s r o e
        else if o.index < 0x7000 then unitNumber s r o
        else highNumber s r o)

/-! ### Status objects (R115, R821, Table DC-17) -/

/-- A requester's copy of the object's read-clear fields is cleared; the other copies stay (R111). An
object that is no status object is not changed (R168). -/
def clearStatus (r : Req) (o : Obj) (e : Nat) (s : State) : State :=
  match o with
  | .conductStatus => s.modConduct r fun c => { c with status := 0 }
  | .ignLast => s.modConduct r fun c => { c with ignLast := { c.ignLast with valid := false } }
  | .hatchAbortLog => s.modConduct r fun c => { c with abortLog := { c.abortLog with valid := false } }
  | .lastReject => s.modConduct r fun c => { c with lastReject := { c.lastReject with valid := false } }
  | .targetStatus =>
    s.modFabric fun x => { x with
      tstatus := mmod ⟨0, 0, 0⟩ x.tstatus e fun (p : Per3 (BitVec 3)) => p.set r 0 }
  | .eoiErrorLast => s.modConduct r fun c => { c with eoiError := { c.eoiError with valid := false } }
  | .watchdogLast => s.modConduct r fun c => { c with wdogLast := { c.wdogLast with valid := false } }
  | .laneStatus n => s.modLane n fun l => { l with flags := l.flags.set r 0 }
  | .creditMax .a => s.modConduct r fun c => { c with creditMaxA := 0 }
  | .creditMax .b => s.modConduct r fun c => { c with creditMaxB := 0 }
  | .queueEvent q => s.modQVol q fun v => { v with event := v.event.set r 0 }
  | .faultCount =>
    { s with xlate := { s.xlate with
      overflow := s.xlate.overflow.set r false
      new := s.xlate.new.set r false } }
  | .ledgerFenceStatus => s.modLedger fun l => { l with dropped := l.dropped.set r 0 }
  | .ledgerStatus => s.modLedger fun l => { l with status := l.status.set r 0 }
  | .durableStatus => { s with durab := { s.durab with status := s.durab.status.set r 0 } }
  | _ => s

/-! ### Writes -/

/-- The value that a quantity or a BOOL takes (R102, Table DS-2); another object's number as written. -/
def Obj.legal (o : Obj) (bs : List Byte) : Nat :=
  let d := o.desc
  let v := leNat bs
  if d.hi ≠ 0 then clamp d.lo d.hi v else if d.type = 0x01 then min v 1 else v

/-- A quantity of the value written is outside its range (R102, R103, R155, R165). -/
def Obj.clamps (o : Obj) (bs : List Byte) : Bool :=
  match o with
  | .pinConfig _ => decide (fieldAt bs 1 1 < 2)
  | .laneControl _ => clamp 3 4096 (fieldAt bs 2 2) != fieldAt bs 2 2
  | .hostMirror => decide (64 - fieldAt bs 2 1 < fieldAt bs 3 1)
  | .queueConfig _ => clamp 4 16 (bits (leNat bs) 4 0) != bits (leNat bs) 4 0
  | _ => o.legal bs != leNat bs

/-- A stand-alone durable object changed; its line becomes dirty if its value changes. -/
def setG (line : Nat) (f : Globals → Globals) (s : State) : State :=
  if f s.dur.g = s.dur.g then s else (s.modG f).touch (objectLine line)

/-- A target's record changed; its line becomes dirty if its value changes. -/
def setTgt (tn : Nat) (f : Target → Target) (s : State) : State :=
  if f (s.tgt tn) = s.tgt tn then s else s.putTgt tn (f (s.tgt tn))

/-- A write of SourceConfig (R338, R339). -/
def writeSourceConfig (sn : Nat) (bs : List Byte) (s : State) : State :=
  applyRoute { sn := sn
               target := some (targetField (fieldAt bs 0 2))
               priority := some (fieldAt bs 2 1)
               cls := some (Cls.at (fieldAt bs 3 1))
               room := some (fieldAt bs 4 1)
               mask := none } s

/-- A write of SourceControl (R341): RAISE is an event, which the Management island sends to the source's Gather island
as any other (R49, R50); WITHDRAW acts at the bank. -/
def writeSourceControl (sn v : Nat) (s : State) : State :=
  if v = 1 then s.raiseFrom idManagement sn else if v = 2 then withdrawSource sn s else s

/-- PowerWarnMember written; 0 ends the target's part in the barrier (R625). -/
def writeWarnMember (tn : Nat) (b : Bool) (s : State) : State :=
  let s := setTgt tn (fun t => { t with warnMember := b }) s
  if b then s else flushLeave tn .notMember s

/-- A wake record written (R347). -/
def writeWake (tn : Nat) (c : Cls) (bs : List Byte) (s : State) : State :=
  let a := alignDown (fieldAt bs 0 8) 2
  let v := BitVec.ofNat 32 (fieldAt bs 8 4)
  setTgt tn (fun t => match c with
    | .normal => { t with wakeNAddr := a, wakeNData := v }
    | .fast => { t with wakeFAddr := a, wakeFData := v }) s

/-- ENABLE of a queue written 1 (R442, R449): sampling starts anew at TAKE, but a draining queue goes on
where it was; a STOPPED one stays stopped (R445). -/
def queueEnable (q : Nat) (s : State) : State :=
  let take := (s.queue q).take
  s.modQVol q fun v =>
    match v.state with
    | .disabled => { v with
        state := .running, recovered := false, sampled := take, lastTick := s.now, specBlocked := [] }
    | .draining => { v with state := .running, recovered := false }
    | _ => { v with recovered := false }

/-- QUEUE_CONTROL written (R441, R442); an image record leaves ENABLE unchanged (R824). -/
def writeQueueControl (image : Bool) (q v : Nat) (s : State) : State :=
  let s := if (s.queue q).evtIdleEn == bit v 1 then s else s.modQueue q fun d => { d with evtIdleEn := bit v 1 }
  if image then s else if bit v 0 then queueEnable q s else queueDisable q s

/-- TargetControl written; an image record leaves ENABLE unchanged (R824). -/
def writeTargetControl (image : Bool) (tn v : Nat) (s : State) : State :=
  let enable := if image then b2n (s.tgt tn).enable else v % 2
  setTargetControl tn (v / 2 * 2 + enable) s

/-- LaneControl's fields (Table WS-8). -/
def laneCfgOf (bs : List Byte) : LaneCfg :=
  let b := fieldAt bs 0 1
  { enable := bit b 0, invert := bit b 1, gapEdge := bit b 2, stalePolicy := fieldAt bs 1 1,
    timeout := clamp 3 4096 (fieldAt bs 2 2) }

/-- LedgerHostMirror's fields (Table LG-5). -/
def hostMirrorOf (bs : List Byte) : HostMirror :=
  let b := fieldAt bs 0 1
  { enable := bit b 0, port := Port.at (bits b 1 1), room := fieldAt bs 1 1, first := fieldAt bs 2 1,
    count := fieldAt bs 3 1, base := fieldAt bs 4 6 }

/-- What surrounds a Storm sequence that a KeeperReset CAPTURE starts: power stays, every write succeeds; the
hold-up voltage and the time of the capture are free values. -/
def captureInput (s : State) : StormInput :=
  { vhold10mV := Config.freeNat s.free % 2 ^ 16
    retries := []
    failed := []
    captureUs := Config.freeNat (s.free + 1) % 2 ^ 32
    ending := .complete }

/-- KeeperReset written (R766 to R769). -/
def writeKeeperReset (bs : List Byte) (s : State) : State :=
  if fieldAt bs 0 1 = 0 then keeperCapture (captureInput s) s.draw.draw else keeperDiscard 5 s

/-- LedgerSegmentRoom written: the change is the segment's alone (R558). -/
def writeSegmentRoom (g room : Nat) (s : State) : State :=
  if s.segRoom g = room then s
  else
    { s with dur := { s.dur with segRooms := mput 0 g room s.dur.segRooms } }.touch (objectLine (720 + g))

/-- The effect of a write of an object of 0x0100 to 0x02FF (Tables DC-4, DC-5). -/
def writeLow (r : Req) (o : Obj) (bs : List Byte) (s : State) : State :=
  let v := o.legal bs
  match o with
  | .linkARooms => setG 703 (fun g => { g with linkARooms := BitVec.ofNat 16 v }) s
  | .linkBRooms => setG 704 (fun g => { g with linkBRooms := BitVec.ofNat 16 v }) s
  | .hatchTimeout => { s with hatch := { s.hatch with timeout := v } }
  | .sbHatchWait => setG 705 (fun g => { g with sbHatchWait := v }) s
  | .alertSelect n =>
    { s with keeper := { s.keeper with alertSelect := mput 0 n v s.keeper.alertSelect } }
  | .keeperReset => writeKeeperReset bs s
  | .ignCountClr =>
    if bit v (reqCode r) then s.modConduct r fun c => { c with ignCount := 0 } else s
  | .deadboltSet =>
    { s with keeper := { s.keeper with deadbolts := s.keeper.deadbolts ||| BitVec.ofNat 5 v } }
  | _ => s

/-- The effect of a write of an object of 0x1000 to 0x2FFF (Tables DC-6 to DC-8). -/
def writeRouting (image : Bool) (o : Obj) (e : Nat) (bs : List Byte) (s : State) : State :=
  let v := o.legal bs
  match o with
  | .sourceConfig => writeSourceConfig e bs s
  | .sourceControl => writeSourceControl e v s
  | .sourceMask => setMask e (v == 1) s
  | .letterboxRooms => setG 706 (fun g => { g with roomEnable := BitVec.ofNat 16 v }) s
  | .noteLimit => setG 707 (fun g => { g with noteLimit := v }) s
  | .roomReach m =>
    if BitVec.ofNat 16 v ||| BitVec.ofNat 16 (2 ^ m) = s.reach m then s else setReach m (BitVec.ofNat 16 v) s
  | .targetRoom => setTargetRoom e v s
  | .targetPort => setTgt e (fun t => { t with port := Port.at v }) s
  | .targetControl => writeTargetControl image e v s
  | .pane c => setPane e c v s
  | .wake c => writeWake e c bs s
  | .fallbackTarget => setTgt e (fun t => { t with fallback := targetField v }) s
  | .threshold c => setThreshold e c v s
  | .louvre c => setLouvre e c v s
  | .warnMember => writeWarnMember e (v == 1) s
  | .activeWatchdog .normal => setG 708 (fun g => { g with wdogN := v }) s
  | .activeWatchdog .fast => setG 709 (fun g => { g with wdogF := v }) s
  | .eoiErrorRaise => setG 710 (fun g => { g with eoiRaise := v == 1 }) s
  | .shutter => setShutter (v == 1) s
  | _ => s

/-- The effect of a write of an object of 0x3000 to 0x6FFF (Tables DC-9 to DC-12). -/
def writeUnit (r : Req) (image : Bool) (o : Obj) (bs : List Byte) (s : State) : State :=
  let v := o.legal bs
  match o with
  | .queueControl q => writeQueueControl image q v s
  | .queueConfig q => setQueueConfig q v s
  | .queuePoll q => if (s.queue q).interval = v then s else s.modQueue q fun d => { d with interval := v }
  | .queueRingBase q => s.modQueue q fun d => { d with ringBase := alignDown v 6 }
  | .xlateRoot m => setXlateRoom m (fun x => { x with root := alignDown v 12 }) s
  | .xlateControl m =>
    setXlateRoom m (fun x => { x with enable := bit v 0, walkPort := Port.at (bits v 1 1) }) s
  | .invalidateRange => invalidateRange (fieldAt bs 0 1) (fieldAt bs 1 6) (fieldAt bs 8 4) s
  | .faultIndex => { s with xlate := { s.xlate with recIndex := s.xlate.recIndex.set r v } }
  | .faultRaise => setG 712 (fun g => { g with faultRaise := v == 1 }) s
  | .faultConsume => consumeFaults v s
  | .pinConfig p => setPinCfg p (fieldAt bs 0 1) (fieldAt bs 1 1) s
  | .sillCrc => setG 711 (fun g => { g with crcEnforce := BitVec.ofNat 64 (v % 2 ^ 56) }) s
  | .laneControl n => setLaneCtl n (laneCfgOf bs) s
  | .lineConfig n i => setLineCfg n i (fieldAt bs 0 1) s
  | .segmentRoom g => writeSegmentRoom g v s
  | .hostMirror => setHostMirror (hostMirrorOf bs) s
  | _ => s

/-- The effect of a write of an object of 0x7000 to 0x9FFF (Tables DC-13 to DC-15). -/
def writeHigh (r : Req) (o : Obj) (bs : List Byte) (s : State) : State :=
  let v := o.legal bs
  match o with
  | .mirrorEnable => setMirror (v == 1) s
  | .dirtyBudget => setDirtyBudget v s
  | .autoCheckpoint => setG 713 (fun g => { g with autoCheckpoint := v }) s
  | .warnControl => setG 714 (fun g => { g with warnEnable := bit v 0, warnChannel := bits v 7 4 }) s
  | .powerCeiling => setCeiling v s
  | .dozeDelay => setG 715 (fun g => { g with dozeDelay := v }) s
  | .retainDelay => setG 716 (fun g => { g with retainDelay := v }) s
  | .ownerKey => { s with nv := { s.nv with ownerKey := bytesAt bs 0 64 } }
  | .sealedRooms => { s with nv := { s.nv with sealedRooms := BitVec.ofNat 16 v } }
  | .tamperAction => { s with nv := { s.nv with tamperAction := v } }
  | .tamperEnable => { s with nv := { s.nv with tamperEnable := BitVec.ofNat 2 v } }
  | .authSigR => s.modAuth r fun a => { a with sigR := bytesAt bs 0 64 }
  | .authSigS => s.modAuth r fun a => { a with sigS := bytesAt bs 0 64 }
  | .authRequest => authRequest r (fieldAt bs 0 1) (fieldAt bs 1 1) s
  | _ => s

/-- The effect of a write that nothing stops, image staging apart. `image` marks an element write of a
configuration image. -/
def applyObject (r : Req) (image : Bool) (o : Obj) (e : Nat) (bs : List Byte) (s : State) : State :=
  if o.index < 0x1000 then writeLow r o bs s
  else if o.index < 0x3000 then writeRouting image o e bs s
  else if o.index < 0x7000 then writeUnit r image o bs s
  else writeHigh r o bs s

/-- A write of an object, judged (R837), counted if it is ignored (R108), applied if not. It answers the
completion code of Table CN-6; `space` and `addr` are what IGN_LAST records. -/
def writeObject (r : Req) (space addr : Nat) (image : Bool) (apply : State → State) (o : Obj) (e : Nat)
    (bs : List Byte) (s : State) : State × Nat :=
  match judgeWrite s r image o e bs with
  | some reason =>
    (s.ignoredWrite r space addr reason,
     if reason = rNotOwner then 8 else if reason = rDeadbolt then 5 else if reason = rAccess then 4 else 3)
  | none =>
    let c := o.clamps bs
    ((apply s).clampedBy r c, if c then 1 else 0)

end Sys2Proof.Machine
end

