-- ==== Sys2Proof/Machine/Image.lean ====
section
/-!
DEFINITION. Configuration images (DS.8, SD.4): the staging buffer, the checks of Tables DS-10 and SD-11,
the apply, and what the objects of 0x0180 do when written.
-/

namespace Sys2Proof.Machine

open Sys2Proof

/-! ### The format (DS.8.1) -/

/-- The first bytes of the staging buffer. -/
def imageBytes (i : Image) (n : Nat) : List Byte := Memory.readN i.buffer 0 n

/-- Fields of the header (Table DS-8). -/
def imgLen (i : Image) : Nat := fieldAt (imageBytes i 64) 8 4
def imgSequence (i : Image) : Nat := fieldAt (imageBytes i 64) 16 8
def imgRecCount (i : Image) : Nat := fieldAt (imageBytes i 64) 24 4
def imgSigLen (i : Image) : Nat := fieldAt (imageBytes i 64) 32 2

/-- The bytes that the CRC, the signature and the digest cover (Table DS-8, R715, R717). -/
def imgBody (i : Image) : List Byte := imageBytes i (imgLen i - imgSigLen i)

/-- A record is well formed: KIND is FILL or LIST, COUNT is at least 1, and where the object exists VLEN is
its type's length and COUNT is 1 unless it is an array (Table DS-9). -/
def recordOk (kind : Nat) (r : ImgRec) : Bool :=
  decide (kind < 2) && decide (1 ≤ r.count) &&
    match objAt r.index r.sub with
    | none => true
    | some o => r.vlen == o.desc.len && (o.element != .none || r.count == 1)

/-- The records between the header and the signature block, if they fit exactly (Table DS-10, check 3). -/
def parseRecords : Nat → List Byte → Option (List ImgRec)
  | 0, bs => if bs.isEmpty then some [] else none
  | n + 1, bs =>
    if bs.isEmpty then some []
    else
      let kind := fieldAt bs 3 1
      let vlen := fieldAt bs 7 1
      let count := fieldAt bs 8 4
      let len := if kind = 0 then vlen else count * vlen
      let size := 16 + (len + 3) / 4 * 4
      let r : ImgRec :=
        { index := fieldAt bs 0 2, sub := fieldAt bs 2 1, list := kind == 1,
          element := fieldAt bs 4 3, vlen := vlen, count := count, values := (bs.drop 16).take len }
      if bs.length < size || !recordOk kind r then none
      else (parseRecords n (bs.drop size)).map (r :: ·)

/-- The records of the staged image. -/
def imgRecords (i : Image) : Option (List ImgRec) :=
  parseRecords ((imgBody i).length / 16 + 1) ((imgBody i).drop 64)

/-! ### Verification (R202, R716) -/

/-- ImageRejectDetail for check 5 in a security state; 0 passes (Table SD-11). -/
def signatureCheck (s : State) (i : Image) : Nat :=
  let len := imgSigLen i
  let block := (imageBytes i (imgLen i)).drop (imgLen i - len)
  let good := ecdsaVerify s.nv.ownerKey (imgBody i) (bytesAt block 8 48) (bytesAt block 56 48)
  if s.nv.sec = .lockdown then 4
  else if len ≠ 0 ∧ len ≠ 104 then 5
  else if s.nv.sec = .provisioning then 0
  else if len = 0 then (if s.nv.sec = .sealed then 1 else 0)
  else if fieldAt block 0 2 ≠ 1 then 5
  else if !good then 2
  else if s.nv.sec = .sealed ∧ imgSequence i ≤ s.dur.g.imageLastSequence then 3
  else 0

/-- The first failing check of Table DS-10; 0 passes. -/
def imageCheck (s : State) (i : Image) : Nat :=
  let h := imageBytes i 64
  let body := imgBody i
  if bytesAt h 0 4 ≠ [0x4F, 0x43, 0x54, 0x43] ∨ fieldAt h 4 2 ≠ 0x0100 ∨ fieldAt h 6 2 ≠ 64 ∨
      i.staged < imgLen i then 1
  else if fieldAt h 12 2 ≠ 0x4096 ∨ fieldAt h 14 1 ≠ 0x02 ∨ fieldAt h 15 1 ≠ 0x41 then 2
  else if body.length < 64 ∨ (imgRecords i).map List.length ≠ some (imgRecCount i) then 3
  else if (crc32c (body.take 28 ++ [0, 0, 0, 0] ++ body.drop 32)).toNat ≠ fieldAt h 28 4 then 4
  else if signatureCheck s i ≠ 0 then 5
  else 0

/-- VERIFY (R202): it applies nothing. -/
def imageVerify (s : State) : State :=
  let e := imageCheck s s.image
  { s with image := { s.image with
    state := if e = 0 then .verified else .failed
    error := e
    rejectDetail := if e = 5 then signatureCheck s s.image else 0 } }

/-! ### The apply (R204 to R208) -/

/-- Islands that hold an object's state. -/
def objIslands (o : Obj) (e : Nat) : List Nat :=
  match o with
  | .queueControl q | .queueConfig q | .queuePoll q | .queueRingBase q | .queueIndices q
  | .queueCounter q _ | .queueEvent q => [idQueue (q / 16)]
  | .xlateRoot m | .xlateControl m | .xlateFaults m | .xlateWalks m => [idXlate (m % 4)]
  | .pinConfig p => [idGather (gatherOf (0x100000 + p))]
  | .laneControl n | .laneStatus n | .laneCounter n _ | .laneLines n | .lineConfig n _ => [idGather n]
  | .ledgerWear i _ => [idLedger i]
  | _ =>
    match o.element with
    | .none => []
    | .sn => if snExists e then [idBank (bankOf e)] else []
    | .tn => if e < 4096 then [idDelivery (e / 64)] else []

/-- What an element write's outcome adds to ImageIgnored, ImageFirstIgnored and ImageClamped (R206). The catalogue does
not call the two counters saturating; that they stop at their maximum, as R109 has it for counters that it names, is the
model's (DESIGN CHOICE, log entry 79). -/
def countElement (k code : Nat) (s : State) : State :=
  let i := s.image
  if code = 1 then { s with image := { i with clamped := satAdd 32 i.clamped 1 } }
  else if code = 0 ∨ code = 2 then s
  else
    { s with image := { i with
      ignored := satAdd 32 i.ignored 1
      firstIgnored := if i.firstIgnored = 0xFFFFFFFF then k else i.firstIgnored } }

/-- The n-th value of a record. -/
def ImgRec.value (rec : ImgRec) (n : Nat) : List Byte :=
  if rec.list then bytesAt rec.values (n * rec.vlen) rec.vlen else rec.values

/-- One element write of record `k` by the staging owner, its islands awake (R204, R206, R207). A reserved location takes
none (R101). -/
def writeElement (r : Req) (k : Nat) (rec : ImgRec) (n : Nat) (s : State) : State :=
  match objAt rec.index rec.sub with
  | none => countElement k 4 s
  | some o =>
    let e := if o.element = .none then 0 else rec.element + n
    let bs := rec.value n
    if o.desc.pers ≠ .img then countElement k 4 (s.ignoredWrite r 2 o.addr rAccess)
    else
      crossing (idManagement :: objIslands o e)
        (fun s =>
          let (s, code) := writeObject r 2 o.addr true (applyObject r true o e bs) o e bs s
          countElement k code s) (s.wakeForWrite (objIslands o e))

/-- The islands that an element write of a record must reach. -/
def elementIslands (rec : ImgRec) (n : Nat) : List Nat :=
  match objAt rec.index rec.sub with
  | none => []
  | some o => objIslands o (if o.element = .none then 0 else rec.element + n)

/-- The next element write of the apply under way, in image order and ascending element order (R204). It waits, as a
dictionary write does, while an island that it must reach cannot take it (R44, R82, R743) or a bank's quota holds its
change (R603). -/
def applyNext (s : State) : State :=
  match s.image.todo with
  | [] => s
  | (k, rec) :: rest =>
    let n := s.image.element
    if rec.count ≤ n then { s with image := { s.image with todo := rest, element := 0 } }
    else if (elementIslands rec n).any (fun i => !s.clocked i) then s
    else
      let s' := writeElement (s.image.owner.getD .sideband) k rec n s
      if (heldBanks s s').isEmpty then { s' with image := { s'.image with element := n + 1 } }
      else throttleEngage (heldBanks s s') s

/-- Everything still to be applied, as far as nothing holds it. -/
def applyRest (s : State) : State :=
  (List.range (s.image.todo.foldl (fun n p => n + p.2.count + 1) 0)).foldl (fun s _ => applyNext s) s

/-- APPLY (R202, R204, R830). An image that fails its checks ends the ownership (R201). Its records are taken from the
buffer as verified; the element writes follow with the time and at the apply's end. -/
def imageApply (r : Req) (s : State) : State :=
  let s := imageVerify s
  if s.image.state ≠ .verified then endStaging s
  else
    let recs := (imgRecords s.image).getD []
    { s with image := { s.image with
      state := .applying
      owner := some (s.image.owner.getD r)
      ignored := 0
      clamped := 0
      firstIgnored := 0xFFFFFFFF
      todo := recs.zipIdx.map fun p => (p.2, p.1)
      element := 0
      sequence := imgSequence s.image
      digest := bytesAt (sha384 (imgBody s.image)) 0 64 } }

/-- The apply ends once its last element write is made: the sequence and the digest of the image applied are recorded,
and staging ownership ends (R201, R208, R717). -/
def imageApplied (s : State) : State :=
  if s.image.state ≠ .applying then s
  else
    let s := applyRest s
    if !s.image.todo.isEmpty then s
    else
      let i := s.image
      let s := setG 717 (fun g => { g with imageLastSequence := i.sequence, imageLastDigest := i.digest }) s
      endStaging { s with image := { i with state := .applied, sequence := 0, digest := [] } }

/-- An apply goes on with the time that passes (R204). -/
def imageTick (s : State) : State :=
  if s.image.state == .applying && s.running && s.clocked idManagement then applyNext s else s

/-- IMAGE_APPLY_END (R208). -/
def execImageApplyEnd (s : State) : Host.Outcome State Fault Refusal :=
  answer s <| onArrival [idManagement] imageApplied

/-- IMAGE_STAGE_TIMEOUT: 1 s without a staging write by the owner (R201). -/
def execImageStageTimeout (s : State) : Host.Outcome State Fault Refusal :=
  answer s fun s =>
    if s.image.owner.isNone || s.image.state == .applying then s
    else endStaging (s.elapseTo (s.image.lastWrite + 1000000000))

/-! ### Writes of the objects of 0x0180 (R199 to R202) -/

/-- ImageStageData written (R199 to R201). -/
def stageData (r : Req) (bs : List Byte) (s : State) : State :=
  let i := s.image
  { s with image := { i with
    owner := some (i.owner.getD r)
    state := if i.state = .applying then .applying else .staging
    error := if i.state = .applying then i.error else 0
    buffer := Memory.writeN i.buffer i.offset (bytesAt bs 0 64)
    staged := max i.staged (i.offset + 64)
    offset := min 262080 (i.offset + 64)
    lastWrite := s.now } }

/-- ImageControl written (R202); while an apply runs VERIFY and APPLY do nothing (R205). -/
def imageControlWrite (r : Req) (v : Nat) (s : State) : State :=
  let s := { s with image := { s.image with control := v } }
  if s.image.state = .applying then s
  else if v = 1 then imageVerify s
  else if v = 2 then imageApply r s
  else if v = 3 then endStaging s
  else s

/-- The effect of a write of any object that nothing stops. -/
def applyAny (r : Req) (o : Obj) (e : Nat) (bs : List Byte) (s : State) : State :=
  match o with
  | .stageData => stageData r bs s
  | .stageOffset => { s with image := { s.image with offset := alignDown (o.legal bs) 6 } }
  | .imageControl => imageControlWrite r (leNat bs) s
  | _ => applyObject r false o e bs s

/-! ### Dictionary accesses (CN.7.2, DS.3, DS.5) -/

/-- The result of an access that gives no data. -/
def HatchResult.plain (code length : Nat) (applied : Bool) : HatchResult :=
  { code := code, data := [], length := length, applied := applied, notBefore := 0, readBack := none }

/-- A read of a reserved location, and a read denied: zeros with LENGTH 4 (R101, R159). -/
def HatchResult.reserved : HatchResult :=
  { code := 2, data := [0, 0, 0, 0], length := 4, applied := true, notBefore := 0, readBack := none }

/-- The object is not restored yet (R169). -/
def notReady (s : State) (o : Obj) : Bool := !s.keeper.rdy && decide (0x0300 ≤ o.index)

/-- A READ, or a READ_CLEAR, of an object (R135, R153, R159, R168, R169). -/
def dictRead (r : Req) (clear : Bool) (index sub e : Nat) (s : State) : State × HatchResult :=
  match objAt index sub with
  | none => (s, .reserved)
  | some o =>
    if notReady s o then (s, .plain 7 o.desc.len false)
    else if !mayRead s r o e then (s, .reserved)
    else
      let res : HatchResult :=
        { code := 0, data := objValue s r o e, length := o.desc.len, applied := true, notBefore := 0,
          readBack := none }
      let s := if o = .dieTemperature then s.draw else s
      (if clear then clearStatus r o e s else s, res)

/-- A WRITE of an object (R136, R167, R169, R203, R375). An APPLY while RDY reads 0 ends with NOT_READY where nothing
would ignore it; that one by a requester that is not the staging owner is ignored with ACCESS all the same (R200) is the
model's order of the two (DESIGN CHOICE, log entry 80). -/
def dictWrite (r : Req) (index sub e : Nat) (data : List Byte) (s : State) : State × HatchResult :=
  match objAt index sub with
  | none => (s, .plain 2 4 false)
  | some o =>
    let bs := bytesAt data 0 o.desc.len
    if notReady s o then (s, .plain 7 o.desc.len false)
    else if o = .imageControl ∧ leNat bs = 2 ∧ s.keeper.rdy = false ∧ judgeWrite s r false o e bs = none then
      (s, .plain 7 o.desc.len false)
    else
      let (s, code) := writeObject r 2 o.addr false (applyAny r o e bs) o e bs s
      (s, { HatchResult.plain code o.desc.len (decide (code < 2)) with
        notBefore := if o = .sourceMask ∧ code < 2 then s.now + 250 else 0 })

/-- The Management island serves requests: it is released, its clock runs, no boot failure (SD.3.1). -/
def mgmtServes (s : State) : Bool :=
  s.powered && s.keeper.serving && !s.keeper.bootFail && s.clocked idManagement

/-- A requester can reach the controller now: its link is up, or the sideband's supply is in range. -/
def reqReaches (s : State) (r : Req) : Bool :=
  match r with
  | .linkA => s.portA.linkUp
  | .linkB => s.portB.linkUp
  | .sideband => s.keeper.vddio && s.keeper.pstate != .p3

/-- A requester's write of an object, whichever carrier brings it. It waits while an island that it must
reach cannot take it (R44, R82, R743) or a bank's quota holds its change (R603); a write that ends with NOT_READY
needs no island (R169). -/
def dictCommand (r : Req) (o : Obj) (e : Nat) (bs : List Byte) (s : State) : State :=
  let ids := if notReady s o then [] else objIslands o e
  let wait := Access.dict o.index o.sub e bs
  if !s.powered || !s.keeper.serving || s.keeper.bootFail || !reqReaches s r then s
  else if (idManagement :: ids).any (fun i => !s.clocked i) then s.hold r wait
  else
    let s := (s.wakeUp idManagement).wakeForWrite ids
    let s' := crossing (idManagement :: ids) (fun s => (dictWrite r o.index o.sub e bs s).1) s
    if (heldBanks s s').isEmpty then s' else (throttleEngage (heldBanks s s') s).hold r wait

end Sys2Proof.Machine
end

