-- ==== Sys2Proof/Machine/Hatch.lean ====
section
/-!
DEFINITION. The Hatch (CN.7): its commands, its completion, and what its registers do when written. Its
release and its aborts stand in Ownership.lean.
-/

namespace Sys2Proof.Machine

open Sys2Proof

/-- The Hatch changed. -/
def State.modHatch (s : State) (f : Hatch → Hatch) : State := { s with hatch := f s.hatch }

/-- The ownership timer restarts; it stands while BUSY is 1 (R139). -/
def hatchTouch (s : State) : State := s.modHatch fun h => { h with timerFrom := s.now }

/-- The bytes of the data window (R135, R136). -/
def hatchBytes (h : Hatch) : List Byte := h.data.flatMap fun w => leBytes 4 w.toNat

/-- Words of a byte string for the data window, zero beyond its end (R135). -/
def hatchWords (bs : List Byte) : List Word :=
  (List.range 16).map fun k => BitVec.ofNat 32 (fieldAt bs (4 * k) 4)

/-- INDEX, SUBINDEX and ELEMENT of the command (Tables CN-16, CN-17). -/
def hatchIndex (h : Hatch) : Nat := h.addr.toNat / 2 ^ 16
def hatchSub (h : Hatch) : Nat := h.addr.toNat / 2 ^ 8 % 2 ^ 8

/-- What the command in OPCODE does (R133 to R137): its result waits to be published. An opcode that names no
command is counted against HATCH_CMD; its LENGTH is a free value. The sideband's WRITE is a SET's, whose READ is made
with it, so that no write comes between (R185). -/
def hatchRun (r : Req) (s : State) : State :=
  let h := s.hatch
  let e := h.element.toNat
  let (s, res) :=
    if h.opcode = 1 then dictRead r false (hatchIndex h) (hatchSub h) e s
    else if h.opcode = 2 then
      let (s, res) := dictWrite r (hatchIndex h) (hatchSub h) e (hatchBytes h) s
      if r = .sideband then
        let (s, after) := dictRead r false (hatchIndex h) (hatchSub h) e s
        (s, { res with readBack := some (after.code, after.data) })
      else (s, res)
    else if h.opcode = 3 then dictRead r true (hatchIndex h) (hatchSub h) e s
    else
      ((s.ignoredWrite r 0 0x104C rName).draw, HatchResult.plain 6 (Config.freeNat s.free % 2 ^ 7) false)
  if s.hatch.owner = none then s else s.modHatch fun h => { h with result := some res }

/-- Islands that the command's object lies in. -/
def hatchIslands (h : Hatch) : List Nat :=
  match objAt (hatchIndex h) (hatchSub h) with
  | none => []
  | some o => objIslands o h.element.toNat

/-- The command ends with NOT_READY, which needs no island (R169). -/
def hatchNotReady (s : State) : Bool :=
  match objAt (hatchIndex s.hatch) (hatchSub s.hatch) with
  | none => false
  | some o => notReady s o

/-- The command takes effect once the islands of its object can take it and no quota holds it (R44, R603,
R743); until then BUSY stays 1. -/
def hatchPerform (s : State) : State :=
  match s.hatch.owner with
  | none => s
  | some r =>
    let ids := if hatchNotReady s then [] else hatchIslands s.hatch
    if !s.hatch.busy || s.hatch.result.isSome || ids.any (fun i => !s.clocked i) then s
    else
      let s := if s.hatch.opcode = 2 then s.wakeForWrite ids else s.wakeForRead ids
      crossing (idManagement :: ids) (guarded (hatchRun r)) s

/-- A HATCH_CMD write by the owner (R132, R133). -/
def hatchCommand (opcode : Nat) (s : State) : State :=
  hatchPerform (s.modHatch fun h => { h with
    busy := true, opcode := opcode % 2 ^ 8, result := none, applied := false })

/-- BUSY clears, and CODE, LENGTH, data and VALID are set, in one update (R133, R135, R139, R375); a release
written meanwhile takes effect with the result discarded (R128). -/
def hatchPublish (res : HatchResult) (s : State) : State :=
  let s := s.elapseTo res.notBefore
  if s.hatch.releasing then releaseHatch s
  else
    s.modHatch fun h => { h with
      busy := false
      valid := true
      code := res.code
      length := res.length
      applied := res.applied
      result := none
      readBack := res.readBack
      timerFrom := s.now
      data := if h.opcode != 2 && (res.code == 0 || res.code == 2) then hatchWords res.data else h.data }

/-- HATCH_COMPLETE (R133). -/
def hatchComplete (s : State) : State :=
  if !s.hatch.busy then s
  else
    let s := hatchPerform s
    match s.hatch.result with
    | none => s
    | some res => hatchPublish res s

/-- The Management island works (SD.3.1, R81). -/
def whenServing (f : State → State) (s : State) : State := if mgmtServes s then f s else s

/-- HATCH_COMPLETE (R133). The completion of a sideband command belongs to the request that gave it. -/
def execHatchComplete (s : State) : Host.Outcome State Fault Refusal := answer s (whenServing hatchComplete)

/-! ### The Hatch page (R123 to R132, R138) -/

/-- A claim (R123). -/
def hatchClaim (r : Req) (tag : BitVec 16) (s : State) : State :=
  s.modHatch fun h => { h with owner := some r, tag := tag, timerFrom := s.now }

/-- A write of HATCH_OWNER (R123 to R126, R128). -/
def writeHatchOwner (r : Req) (v : Nat) (s : State) : State :=
  let tag := BitVec.ofNat 16 v
  let mine := s.hatch.owner == some r && s.hatch.tag == tag
  if bit v 31 then
    if mine then
      if s.hatch.busy then s.modHatch fun h => { h with releasing := true } else releaseHatch s
    else s.ignoredWrite r 0 0x1040 rNotOwner
  else if tag = 0 then s.ignoredWrite r 0 0x1040 rName
  else if s.hatch.owner.isNone then hatchClaim r tag s
  else if mine then hatchTouch s
  else s

/-- A write that only the owner may make (R131). The manual does not say what a write of HATCH_DATA, HATCH_ADDR or
HATCH_ELEMENT does while BUSY is 1: it is accepted at once, and a command that has not yet taken effect uses the new
values (DESIGN CHOICE, log entry 75). -/
def ownerWrite (r : Req) (addr : Nat) (f : State → State) (s : State) : State :=
  if s.hatch.owner == some r then f (hatchTouch s) else s.ignoredWrite r 0 addr rNotOwner

/-- A write of HATCH_CMD (R131, R132). -/
def writeHatchCmd (r : Req) (v : Nat) (s : State) : State :=
  ownerWrite r 0x104C
    (fun s =>
      if s.hatch.busy || s.hatch.valid then s.ignoredWrite r 0 0x104C rSequence else hatchCommand v s) s

/-- A write of HATCH_STATUS (R131, R138). -/
def writeHatchStatus (r : Req) (v : Nat) (s : State) : State :=
  if bit v 2 then ownerWrite r 0x1050 (fun s => s.modHatch fun h => { h with valid := false }) s
  else if s.hatch.owner == some r then hatchTouch s
  else s

/-- A write of HATCH_TIMEOUT (Table CN-20, R131). -/
def writeHatchTimeout (r : Req) (v : Nat) (s : State) : State :=
  let t := v % 2 ^ 16
  let set := fun (s : State) =>
    (s.modHatch fun h => { h with timeout := max 10 t }).clampedBy r (decide (t < 10))
  if s.hatch.owner.isNone then set s else ownerWrite r 0x1054 set s

end Sys2Proof.Machine
end

