-- ==== Sys2Proof/Machine/Registers.lean ====
section
/-!
DEFINITION. The registers of BAR0 and BAR2 (CN.2, CN.8 and the register tables of DL, WQ, TF, LG, DU and
PW): where each stands, which islands own it, what a read returns and does, and what a write does.
-/

namespace Sys2Proof.Machine

open Sys2Proof

/-- The registers. A queue's, a target's and the MSI-X table's carry their number or class. -/
inductive Reg where
  | portId | sync | scratch
  | hatchData (n : Nat) | hatchOwner | hatchAddr | hatchElement | hatchCmd | hatchStatus
  | hatchTimeout
  | mgmtEvent | mgmtEnable
  | shutterConfirm | sourceMask | maskConfirm
  | dirtyLines | flushStatus | recoveryStatus | powerStatus
  | xlateInv | xlateFence | flIndex | ledgerFence
  | msix (n : Nat) | pba (n : Nat)
  | queueProd (q : Nat) | queueCons (q : Nat) | queueTake (q : Nat) | queueStatus (q : Nat)
  | queueStop (q : Nat) | invalMark (q : Nat) | entrySlot (q : Nat) | queueAction (q : Nat)
  | window (q n : Nat)
  | claim (tn : Nat) (c : Cls) | eoi (tn : Nat) (c : Cls) | classStatus (tn : Nat) (c : Cls)
  | targetReset (tn : Nat)
  /-- A register that is the same value as an object; `width` is how many of its bits are fields. -/
  | object (o : Obj) (e : Nat) (width : Nat)
  deriving DecidableEq, Repr

/-! ### The map (Tables CN-3, DL-2, R452) -/

/-- The registers of the identity, Hatch and conduct pages (CN.8). -/
def regConduct (off : Nat) : Option Reg :=
  if 0x1000 ≤ off && off < 0x1040 then some (.hatchData ((off - 0x1000) / 4))
  else
    match off with
    | 0x0000 => some (.object .idPart 0 0)
    | 0x0004 => some (.object .idStepping 0 0)
    | 0x0008 => some (.object .idCaps 0 0)
    | 0x000C => some .portId
    | 0x0010 => some (.object .startStatus 0 0)
    | 0x0014 => some .sync
    | 0x0018 => some .scratch
    | 0x1040 => some .hatchOwner
    | 0x1044 => some .hatchAddr
    | 0x1048 => some .hatchElement
    | 0x104C => some .hatchCmd
    | 0x1050 => some .hatchStatus
    | 0x1054 => some .hatchTimeout
    | 0x1058 => some (.object .hatchAbortLog 0 0)
    | 0x2000 => some (.object .conductStatus 0 0)
    | 0x2004 => some (.object .ignLast 0 0)
    | 0x2010 => some (.object (.ignCount .linkA) 0 0)
    | 0x2014 => some (.object (.ignCount .linkB) 0 0)
    | 0x2018 => some (.object (.ignCount .sideband) 0 0)
    | 0x201C => some (.object .ignCountClr 0 3)
    | 0x2020 => some (.object .deadboltStatus 0 0)
    | 0x2024 => some (.object .deadboltSet 0 5)
    | 0x2030 => some .mgmtEvent
    | 0x2034 => some .mgmtEnable
    | _ => none

/-- The registers of BAR0 pages 3 to 7 and of the MSI-X space. -/
def regPages (off : Nat) : Option Reg :=
  match off with
  | 0x3000 => some (.object .shutter 0 1)
  | 0x3004 => some .shutterConfirm
  | 0x3008 => some .sourceMask
  | 0x300C => some .maskConfirm
  | 0x4000 => some (.object .durableStatus 0 0)
  | 0x4004 => some .dirtyLines
  | 0x4008 => some (.object .dirtyBudget 0 4)
  | 0x400C => some (.object .warnControl 0 8)
  | 0x4010 => some .flushStatus
  | 0x4014 => some .recoveryStatus
  | 0x5000 => some (.object .powerCeiling 0 2)
  | 0x5004 => some .powerStatus
  | 0x6000 => some .xlateInv
  | 0x6004 => some .xlateFence
  | 0x6010 => some .flIndex
  | 0x6014 => some (.object .faultCount 0 0)
  | 0x6018 => some (.object .faultConsume 0 13)
  | 0x7000 => some .ledgerFence
  | 0x7004 => some (.object .ledgerStatus 0 0)
  | 0xA000 => some (.msix 0)
  | 0xA004 => some (.msix 1)
  | 0xA008 => some (.msix 2)
  | 0xA00C => some (.msix 3)
  | 0xA800 => some (.pba 0)
  | 0xA804 => some (.pba 1)
  | _ => none

/-- The registers of a queue's block (Tables WQ-4 to WQ-15). -/
def regQueue (q off : Nat) : Option Reg :=
  if 0x40 ≤ off && off < 0x80 then some (.window q ((off - 0x40) / 4))
  else
    match off with
    | 0x00 => some (.object (.queueControl q) 0 2)
    | 0x04 => some (.object (.queueConfig q) 0 24)
    | 0x08 => some (.object (.queuePoll q) 0 20)
    | 0x0C => some (.queueProd q)
    | 0x10 => some (.queueCons q)
    | 0x14 => some (.queueTake q)
    | 0x18 => some (.queueStatus q)
    | 0x1C => some (.object (.queueEvent q) 0 0)
    | 0x20 => some (.queueStop q)
    | 0x24 => some (.invalMark q)
    | 0x28 => some (.entrySlot q)
    | 0x2C => some (.queueAction q)
    | _ => none

/-- The registers of a Wicket page (Table DL-2). -/
def regWicket (tn off : Nat) : Option Reg :=
  match off with
  | 0x000 => some (.claim tn .normal)
  | 0x004 => some (.eoi tn .normal)
  | 0x008 => some (.object (.threshold .normal) tn 9)
  | 0x00C => some (.object (.louvre .normal) tn 16)
  | 0x010 => some (.classStatus tn .normal)
  | 0x100 => some (.claim tn .fast)
  | 0x104 => some (.eoi tn .fast)
  | 0x108 => some (.object (.threshold .fast) tn 9)
  | 0x10C => some (.object (.louvre .fast) tn 16)
  | 0x110 => some (.classStatus tn .fast)
  | 0x200 => some (.object .targetControl tn 5)
  | 0x204 => some (.object .targetStatus tn 0)
  | 0x208 => some (.targetReset tn)
  | _ => none

/-- The register at an offset; none where the location is reserved. -/
def regAt (w : Window) (off : Nat) : Option Reg :=
  match w with
  | .bar0 =>
    if off < 0x3000 then regConduct off
    else if off < 0x10000 then regPages off
    else if off < 0x20000 then regQueue ((off - 0x10000) / 256) (off % 256)
    else none
  | .bar2 => if off < 0x1000000 then regWicket (off / 4096) (off % 4096) else none

/-- SPACE of IGN_LAST (Table CN-23). -/
def windowSpace : Window → Nat
  | .bar0 => 0
  | .bar2 => 1

/-- A window's size (Table CN-2). -/
def windowSize : Window → Nat
  | .bar0 => 2 ^ 20
  | .bar2 => 2 ^ 24

/-- The islands that hold an offset's register; whether it answers at RDY 0 (R97, R98). The manual names no island for
the registers of the pages 0x3000 to 0x7FFF, which the Management island reaches: a Halt of that island zeroes them
(DESIGN CHOICE, log entry 73). SOURCE_MASK also needs the Store bank of its source, which `bankOfMask` gives. -/
def regOwner (port : Port) (w : Window) (off : Nat) : Bool × List Nat :=
  match w with
  | .bar0 =>
    if off < 0x3000 then (true, [idManagement])
    else if off < 0x8000 then (false, [idManagement])
    else if 0x10000 ≤ off && off < 0x20000 then (false, [idQueue ((off - 0x10000) / 4096)])
    else (false, [idLink port])
  | .bar2 => (false, [idDelivery (off / 2 ^ 18 % 64)])

/-- The Room of a target's page or a queue's block (R348, R400). -/
def regRoom (s : State) (w : Window) (off : Nat) : Option Nat :=
  match w with
  | .bar0 =>
    if 0x10000 ≤ off && off < 0x20000 then some (s.queue ((off - 0x10000) / 256)).room else none
  | .bar2 => some (s.tgt (off / 4096)).room

/-- A location that stands reserved for now: ENTRY_SLOT and the entry window of a queue whose ring is not on chip (R101,
Tables WQ-13 and WQ-15). -/
def Reg.present (s : State) : Reg → Bool
  | .entrySlot q => (s.queue q).onchip
  | .window q _ => (s.queue q).onchip
  | _ => true

/-- The register that stands at an offset now. -/
def regNow (s : State) (w : Window) (off : Nat) : Option Reg := (regAt w off).filter (Reg.present s)

/-- A link may access what stands at an offset. -/
def regAllowed (s : State) (port : Port) (w : Window) (off : Nat) : Bool :=
  match regRoom s w off with
  | none => true
  | some m => s.linkReaches port m

/-! ### Reads -/

/-- The MSI-X table entry of a port (R88). -/
def msixWord (p : PortState) : Nat → Nat
  | 0 => p.msixAddr % 2 ^ 32
  | 1 => p.msixAddr / 2 ^ 32
  | 2 => p.msixData.toNat
  | _ => b2n p.msixMasked

/-- A word of the entry window as the read latch holds it (R408). -/
def latchWord (s : State) (port : Port) (q n : Nat) : Nat :=
  (((s.qvol q).latch.get port).getD n 0).toNat

/-- The value of a register as a port reads it, before any effect of the read. -/
def regValue (s : State) (port : Port) (g : Reg) : Nat :=
  let h := s.hatch
  match g with
  | .portId => portId s port
  | .sync => 0
  | .scratch => s.scratch.toNat
  | .hatchData n => if h.owner = some port.req then (h.data.getD n 0).toNat else 0
  | .hatchOwner => hatchOwner h
  | .hatchAddr => h.addr.toNat
  | .hatchElement => h.element.toNat
  | .hatchCmd => 0
  | .hatchStatus => hatchStatus h
  | .hatchTimeout => h.timeout
  | .mgmtEvent => (s.port port).mgmtEvent.toNat
  | .mgmtEnable => (s.port port).mgmtEnable.toNat
  | .shutterConfirm => shutterConfirm s
  | .sourceMask => 0
  | .maskConfirm => maskConfirm (s.port port)
  | .dirtyLines => (dirtyLines s).length
  | .flushStatus => flushStatus s
  | .recoveryStatus => recoveryStatus s.durab
  | .powerStatus => powerStatus s
  | .xlateInv => 0
  | .xlateFence => xlateFence s
  | .flIndex => flIndex s
  | .ledgerFence => ledgerFenceStatus s port.req
  | .msix n => msixWord (s.port port) n
  | .pba n => if n = 0 then b2n (s.port port).pba else 0
  | .queueProd q => (s.queue q).prod
  | .queueCons q => (s.queue q).cons
  | .queueTake q => (s.queue q).take
  | .queueStatus q => queueStatus s q
  | .queueStop q => queueStopWord (s.qvol q)
  | .invalMark q => invalMark (s.qvol q)
  | .entrySlot q => if (s.queue q).onchip then (s.qvol q).entrySlot.get port else 0
  | .queueAction _ => 0
  | .window q n => if (s.queue q).onchip then latchWord s port q n else 0
  | .claim _ _ => 0
  | .eoi _ _ => 0
  | .classStatus tn c => classStatus s tn c
  | .targetReset _ => 0
  | .object o e _ => leNat (objValue s port.req o e)

/-- The owner's access to a Hatch register restarts the ownership timer (R139). -/
def hatchPageTouch (port : Port) (off : Nat) (s : State) : State :=
  if 0x1000 ≤ off && off < 0x105C && s.hatch.owner == some port.req then hatchTouch s else s

/-- A read of a register, with its effect: the requester's read-clear fields clear (R111), window 0 takes a
snapshot (R408), MGMT_EVENT clears and withdraws its signal (R147), MASK_CONFIRM waits for the mask window
(R374). -/
def readReg (port : Port) (g : Reg) (s : State) : State × Word :=
  let s := match g with
    | .maskConfirm => if (s.port port).maskValid then s.elapseTo ((s.port port).maskAt + 250) else s
    | .window q n => if n = 0 && (s.queue q).onchip then (windowRead port q 0 s).1 else s
    | _ => s
  let v := BitVec.ofNat 32 (regValue s port g)
  let s := match g with
    | .object o e _ => clearStatus port.req o e s
    | .mgmtEvent => s.modPort port fun p => { p with mgmtEvent := 0, pba := false }
    | _ => s
  (s, v)

/-- A posted write that a read completion on the same port follows: of QUEUE_CONS, the completion writes of its queue
(R437); of XLATE_FENCE, every write (R532). -/
def Reg.follows (g : Reg) (r : LinkReq) : Bool :=
  match g, r with
  | .queueCons q, .completion k _ _ _ _ _ _ _ => q == k
  | .xlateFence, .completion _ _ _ _ _ _ _ _ => true
  | .xlateFence, .hostStore _ _ _ _ _ _ _ => true
  | .xlateFence, .ledgerCopy _ _ _ _ => true
  | .xlateFence, .delivery _ _ _ _ _ _ => true
  | _, _ => false

/-- The requests of a port issued in order up to and with the last one for which a test holds. -/
def issueAllOf (p : Port) (f : LinkReq → Bool) : List LinkReq → State → State
  | [], s => s
  | r :: rs, s =>
    if (r :: rs).any f then issueAllOf p f rs (r.emitTo p (s.modPort p fun x => { x with out := rs })) else s

/-- A read completes after the posted writes that it follows: they are issued first, or the read waits while the port
may issue nothing. -/
def afterWrites (r : Reader) (a : Access) (g : Reg) (f : State → State) (s : State) : State :=
  let p := s.port r.port
  if !p.out.any (Reg.follows g) then f s
  else if p.canIssue then f (issueAllOf r.port (Reg.follows g) p.out s)
  else s.hold r.port.req a

/-- A read of a Letterbox page: zero, with no side effect (R260); not before the writes of the port to that page have
taken effect (R93). -/
def letterboxRead (r : Reader) (a : Access) (s : State) : State :=
  if !s.powered || !(s.port r.port).linkUp then s
  else if s.keeper.bootFail || !s.keeper.rdy then s.answerRead r 0
  else if mget 0 s.power.lockLost (idLink r.port) != 0 || waitsBehind s r.port a then s.hold r.port.req a
  else s.answerRead r 0

/-- A 32-bit read on a port (R78, R91, R93, R98, R100, R348, R400). -/
def regRead (r : Reader) (w : Window) (off : Nat) (s : State) : State :=
  let a := Access.read w off r.first r.count
  if w = .bar0 && (letterboxPage off).isSome then letterboxRead r a s
  else
    match regNow s w off with
    | some (.claim tn c) => claimRead r tn c s
    | some .ledgerFence => fenceRead r s
    | g =>
      let own := regOwner r.port w off
      let read := hostRead r a own.1 own.2
        (fun s =>
          match g with
          | none => (s, 0)
          | some g =>
            if regAllowed s r.port w off then
              readReg r.port g (if w = .bar0 then hatchPageTouch r.port off s else s)
            else (s, 0))
      match g with
      | some g => if accessGate s r.port own.1 own.2 = .pass then afterWrites r a g read s else read s
      | none => read s

/-! ### Writes -/

/-- A write of SOURCE_MASK (R372, R374, R377). -/
def writeSourceMask (port : Port) (off v : Nat) (s : State) : State :=
  let sn := v % 2 ^ 24
  if !snExists sn then s.ignoredWrite port.req 0 off rName
  else if !s.mayTouch port.req (s.src sn).room then s.ignoredWrite port.req 0 off rAccess
  else maskFromPort port sn (bit v 31) s

/-- A write of XLATE_INV (Table TF-9). -/
def writeXlateInv (port : Port) (off v : Nat) (s : State) : State :=
  let room := v % 16
  if s.linkReaches port room then invalidate room none none s else s.ignoredWrite port.req 0 off rAccess

/-- A write of MGMT_ENABLE (R146). -/
def writeMgmtEnable (port : Port) (v : Nat) (s : State) : State :=
  s.modPort port fun p =>
    let new := BitVec.ofNat 12 v
    let enables := p.mgmtEvent &&& new &&& ~~~p.mgmtEnable != 0
    let other := p.mgmtEvent &&& new &&& p.mgmtEnable != 0
    { p with mgmtEnable := new, pba := p.pba || (enables && !other) }

/-- A write of an MSI-X table word (R88). -/
def writeMsix (port : Port) (n v : Nat) (s : State) : State :=
  s.modPort port fun p =>
    match n with
    | 0 => { p with msixAddr := p.msixAddr / 2 ^ 32 * 2 ^ 32 + v }
    | 1 => { p with msixAddr := p.msixAddr % 2 ^ 32 + 2 ^ 32 * v }
    | 2 => { p with msixData := BitVec.ofNat 32 v }
    | _ => { p with msixMasked := bit v 0 }

/-- A write of QUEUE_PROD (R411, R414). -/
def writeQueueProd (port : Port) (q off v : Nat) (s : State) : State :=
  let v := v % 2 ^ 16
  if prodAccepts (s.queue q) v then
    (if (s.queue q).prod = v then s else s.modQueue q fun d => { d with prod := v })
  else s.ignoredWrite port.req 0 off rName

/-- A write of ENTRY_SLOT (Table WQ-13). -/
def writeEntrySlot (port : Port) (q off v : Nat) (s : State) : State :=
  let v := v % 2 ^ 16
  if !(s.queue q).onchip then s
  else if (s.queue q).size ≤ v then s.ignoredWrite port.req 0 off rName
  else s.modQVol q fun x => { x with entrySlot := x.entrySlot.set port v }

/-- A write of QUEUE_ACTION (R422, R445, R446). -/
def writeQueueAction (port : Port) (q off v : Nat) (s : State) : State :=
  if actionRefused s q (bit v 2) (bit v 3) then s.ignoredWrite port.req 0 off rAccess else queueActions q v s

/-- A write of TARGET_RESET (Table DL-10). -/
def writeTargetReset (port : Port) (tn off v : Nat) (s : State) : State :=
  if v % 2 ^ 16 = 0x7E5E then resetTarget true tn s else s.ignoredWrite port.req 1 off rName

/-- A write of a register that may be accessed, by its access codes (Table CN-1). -/
def writeReg (port : Port) (w : Window) (off v : Nat) (g : Reg) (s : State) : State :=
  let r := port.req
  match g with
  | .scratch => { s with scratch := BitVec.ofNat 32 v }
  | .hatchData n =>
    ownerWrite r off (fun s => s.modHatch fun h => { h with data := setAt h.data n (BitVec.ofNat 32 v) }) s
  | .hatchOwner => writeHatchOwner r v s
  | .hatchAddr =>
    ownerWrite r off (fun s => s.modHatch fun h => { h with addr := BitVec.ofNat 32 (v / 256 * 256) }) s
  | .hatchElement =>
    ownerWrite r off (fun s => s.modHatch fun h => { h with element := BitVec.ofNat 24 v }) s
  | .hatchCmd => writeHatchCmd r v s
  | .hatchStatus => writeHatchStatus r v s
  | .hatchTimeout => writeHatchTimeout r v s
  | .mgmtEnable => writeMgmtEnable port v s
  | .sourceMask => writeSourceMask port off v s
  | .xlateInv => writeXlateInv port off v s
  | .msix n => writeMsix port n v s
  | .queueProd q => writeQueueProd port q off v s
  | .entrySlot q => writeEntrySlot port q off v s
  | .queueAction q => writeQueueAction port q off v s
  | .window q n => if (s.queue q).onchip then windowWrite port q n (BitVec.ofNat 32 v) s else s
  | .eoi tn c => judgeEoi tn c (v % 2 ^ 24) s
  | .targetReset tn => writeTargetReset port tn off v s
  | .object o e width =>
    if width = 0 then s
    else
      let bs := leBytes (max 4 o.desc.len) (v % 2 ^ width)
      (writeObject r (windowSpace w) off false (applyObject r false o e bs) o e bs s).1
  | _ => s

/-- The Store bank that a write of SOURCE_MASK must reach to take effect (R372). -/
def bankOfMask (w : Window) (off v : Nat) : List Nat :=
  if w = .bar0 && off == 0x3008 && snExists (v % 2 ^ 24) then [idBank (bankOf (v % 2 ^ 24))] else []

/-- A whole 32-bit write on a port (R85, R86, R98, R100, R101, R348, R400). The owner's write of a Hatch register restarts
the ownership timer whatever else it does (R139). -/
def regWrite (port : Port) (w : Window) (off v : Nat) (s : State) : State :=
  let own := regOwner port w off
  hostWrite port (.write w off v) own.1 (own.2 ++ bankOfMask w off v)
    (fun s =>
      match regNow s w off with
      | none => s
      | some g =>
        if regAllowed s port w off then writeReg port w off v g (if w = .bar0 then hatchPageTouch port off s else s)
        else s.ignoredWrite port.req (windowSpace w) off rAccess) s

/-- A write that does not cover a whole register (R92); at a reserved location it is not counted. -/
def regPartial (port : Port) (w : Window) (off : Nat) (s : State) : State :=
  let own := regOwner port w off
  hostWrite port (.part w off) own.1 own.2
    (fun s =>
      match regNow s w off with
      | none => s
      | some _ =>
        (if w = .bar0 then hatchPageTouch port off s else s).ignoredWrite port.req (windowSpace w) off rPartial) s

/-- The 32-bit parts of a posted write, in ascending address order (R90): each offset with the number its
bytes spell and its byte enables. -/
def dwordsOf (w : HostWrite) : List (Nat × Nat × List Bool) :=
  let first := w.offset / 4
  let lead := w.offset % 4
  let data := List.replicate lead (0 : Byte) ++ w.data
  let enables := List.replicate lead false ++ w.enables
  (List.range ((data.length + 3) / 4)).map fun k =>
    (4 * (first + k), fieldAt data (4 * k) 4, (enables.drop (4 * k)).take 4)

/-- One 32-bit part of a posted write: one that lacks a byte, or every byte, is partial (R92). -/
def writeDword (port : Port) (w : Window) (s : State) (d : Nat × Nat × List Bool) : State :=
  if windowSize w ≤ d.1 then s
  else if d.2.2.length = 4 && d.2.2.all id then regWrite port w d.1 d.2.1 s
  else regPartial port w d.1 s

/-- The 32-bit parts of a read, in ascending address order (R90): each offset with the first byte and the number of
bytes of it that the read asks for. -/
def wordsOf (offset len : Nat) : List (Nat × Nat × Nat) :=
  if len = 0 then []
  else
    (List.range ((offset + len - 1) / 4 + 1 - offset / 4)).map fun k =>
      let at' := 4 * (offset / 4 + k)
      let first := offset - at'
      (at', first, min 4 (offset + len - at') - first)

/-- A read of a window of registers (R90, R91): each part completes with the bytes it was asked for. -/
def windowRegRead (port : Port) (w : Window) (offset len : Nat) (s : State) : State :=
  (wordsOf offset len).foldl (fun s p => regRead ⟨port, p.2.1, p.2.2⟩ w p.1 s) s

/-- A posted write to a window of registers (R90). A Letterbox page takes it as a message whose requester
ID is a free value. -/
def postedWrite (port : Port) (w : Window) (h : HostWrite) (s : State) : State :=
  if w = .bar0 && (letterboxPage h.offset).isSome then
    letterboxArrival port (BitVec.ofNat 16 (Config.freeNat s.free)) h s.draw
  else (dwordsOf h).foldl (writeDword port w) s

end Sys2Proof.Machine
end

