-- ==== Sys2Proof/Machine/Commands.lean ====
section
/-!
DEFINITION. The commands that are one register access or one dictionary write, by the row of the table
that names them. A link's access goes through the register where the object has one; the sideband's, and
every access to an object without a register, is a dictionary write of its requester.
-/

namespace Sys2Proof.Machine

open Sys2Proof

/-- A value written by a requester: a link writes the register, the sideband the object (R166). -/
def viaRegister (r : Req) (w : Window) (off v : Nat) (o : Obj) (e : Nat) (s : State) : State :=
  match r with
  | .linkA => regWrite .a w off v s
  | .linkB => regWrite .b w off v s
  | .sideband => dictCommand .sideband o e (leBytes o.desc.len v) s

/-- The BAR0 offset of a register of a queue's block. -/
def queueOffset (q o : Nat) : Nat := 0x10000 + 0x100 * q + o

/-! ### Reads -/

/-- RC_READ: a read of a register that holds read-clear fields, or of any other one, of any length (R90, R91, R111). -/
def execRcRead (port : Port) (window : Window) (offset : Nat) (s : State) (length : Nat := 4) :
    Host.Outcome State Fault Refusal :=
  answer s fun s =>
    if windowSize window < offset + length then
      if s.powered && (s.port port).linkUp then s.emit (.unsupportedRequest port) else s
    else windowRegRead port window offset length s

/-- A read of one whole register. -/
def wholeRead (port : Port) (w : Window) (off : Nat) : State → State := regRead (Reader.whole port) w off

/-- MASK_CONFIRM_READ (R374). -/
def execMaskConfirmRead (port : Port) (s : State) : Host.Outcome State Fault Refusal :=
  answer s (wholeRead port .bar0 0x300C)

/-- SYNC_READ: it completes once every earlier posted write of the port has taken effect (R94, Table CN-12). -/
def execSyncRead (port : Port) (s : State) : Host.Outcome State Fault Refusal :=
  answer s (wholeRead port .bar0 0x0014)

/-- MGMT_EVENT_READ (R147). -/
def execMgmtEventRead (port : Port) (s : State) : Host.Outcome State Fault Refusal :=
  answer s (wholeRead port .bar0 0x2030)

/-- ENTRY_WINDOW_SNAPSHOT: a read of ENTRY_WINDOW0 (R408). -/
def execEntryWindowSnapshot (port : Port) (q : Fin 256) (s : State) : Host.Outcome State Fault Refusal :=
  answer s (wholeRead port .bar0 (queueOffset q 0x40))

/-! ### The management vector (R146) -/

/-- MGMT_ENABLE_WRITE (R146). -/
def execMgmtEnableWrite (port : Port) (value : Word) (s : State) : Host.Outcome State Fault Refusal :=
  answer s (regWrite port .bar0 0x2034 value.toNat)

/-- MGMT_VECTOR_SEND: a pending signal is sent once every condition of R146 holds, behind the posted writes that its
port issued before it. The command carries MSI-X Enable and Function Mask as the last configuration writes of the MSI-X
capability left them: the table has no row for those writes (log entry 66). -/
def execMgmtVectorSend (port : Port) (s : State) (enable : Bool := true) (funcMask : Bool := false) :
    Host.Outcome State Fault Refusal :=
  answer s fun s =>
    if !configAnswers s port then s
    else
      let s := s.modPort port fun p => { p with msixEnable := enable, msixFuncMask := funcMask }
      let p := s.port port
      if !p.pba || !p.msixEnable || p.msixFuncMask || p.msixMasked || !p.canIssue then s
      else (s.modPort port fun p => { p with pba := false }).emit (.msix port p.msixAddr p.msixData)

/-! ### Register writes -/

/-- REGISTER_WRITE: a posted write to BAR0 or BAR2 (R84, R90). -/
def execRegisterWrite (port : Port) (window : Window) (write : HostWrite) (s : State) :
    Host.Outcome State Fault Refusal :=
  answer s (postedWrite port window write)

/-- DEADBOLT_SET (R116). -/
def execDeadboltSet (req : Req) (value : Word) (s : State) : Host.Outcome State Fault Refusal :=
  answer s (viaRegister req .bar0 0x2024 value.toNat .deadboltSet 0)

/-- IGN_COUNT_CLR (R109, Table CN-25). -/
def execIgnCountClr (req : Req) (value : Word) (s : State) : Host.Outcome State Fault Refusal :=
  answer s (viaRegister req .bar0 0x201C value.toNat .ignCountClr 0)

/-- SHUTTER_CLOSE (R366). -/
def execShutterClose (req : Req) (s : State) : Host.Outcome State Fault Refusal :=
  answer s (viaRegister req .bar0 0x3000 1 .shutter 0)

/-- SHUTTER_OPEN (R368). -/
def execShutterOpen (req : Req) (s : State) : Host.Outcome State Fault Refusal :=
  answer s (viaRegister req .bar0 0x3000 0 .shutter 0)

/-- A mask or unmask (R372, R377): a link writes SOURCE_MASK, the sideband the object. -/
def maskCommand (r : Req) (sn : Nat) (m : Bool) (s : State) : State :=
  match r with
  | .linkA => regWrite .a .bar0 0x3008 (sn + 2 ^ 31 * b2n m) s
  | .linkB => regWrite .b .bar0 0x3008 (sn + 2 ^ 31 * b2n m) s
  | .sideband => dictCommand .sideband .sourceMask sn [BitVec.ofNat 8 (b2n m)] s

/-- SOURCE_MASK (R372). -/
def execSourceMask (req : Req) (sn : BitVec 24) (s : State) : Host.Outcome State Fault Refusal :=
  answer s (maskCommand req sn.toNat true)

/-- SOURCE_UNMASK (R376). -/
def execSourceUnmask (req : Req) (sn : BitVec 24) (s : State) : Host.Outcome State Fault Refusal :=
  answer s (maskCommand req sn.toNat false)

/-- THRESHOLD_WRITE (R311, R314). -/
def execThresholdWrite (req : Req) (tn : Fin 4096) (cls : Cls) (value : Word) (s : State) :
    Host.Outcome State Fault Refusal :=
  answer s (viaRegister req .bar2 (wicketOffset tn cls 8) value.toNat (.threshold cls) tn)

/-- LOUVRE_WRITE (R380). -/
def execLouvreWrite (req : Req) (tn : Fin 4096) (cls : Cls) (value : Word) (s : State) :
    Host.Outcome State Fault Refusal :=
  answer s (viaRegister req .bar2 (wicketOffset tn cls 0xC) value.toNat (.louvre cls) tn)

/-- TARGET_CONTROL_WRITE (R346, R387, R388). -/
def execTargetControlWrite (req : Req) (tn : Fin 4096) (value : Word) (s : State) :
    Host.Outcome State Fault Refusal :=
  answer s (viaRegister req .bar2 (wicketOffset tn .normal 0x200) value.toNat .targetControl tn)

/-- TARGET_RESET (R382, R383). -/
def execTargetReset (port : Port) (tn : Fin 4096) (value : Word) (s : State) :
    Host.Outcome State Fault Refusal :=
  answer s (regWrite port .bar2 (wicketOffset tn .normal 0x208) value.toNat)

/-- DIRTY_BUDGET_WRITE (R602). -/
def execDirtyBudgetWrite (req : Req) (value : Word) (s : State) : Host.Outcome State Fault Refusal :=
  answer s (viaRegister req .bar0 0x4008 value.toNat .dirtyBudget 0)

/-- CEILING_WRITE (R657, R686). -/
def execCeilingWrite (req : Req) (value : Word) (s : State) : Host.Outcome State Fault Refusal :=
  answer s (viaRegister req .bar0 0x5000 value.toNat .powerCeiling 0)

/-- XLATE_INV (R526). -/
def execXlateInv (port : Port) (value : Word) (s : State) : Host.Outcome State Fault Refusal :=
  answer s (regWrite port .bar0 0x6000 value.toNat)

/-- FL_CONSUME (R554). -/
def execFlConsume (req : Req) (value : Word) (s : State) : Host.Outcome State Fault Refusal :=
  answer s (viaRegister req .bar0 0x6018 value.toNat .faultConsume 0)

/-! ### Queue registers -/

/-- QUEUE_PROD_WRITE (R411). -/
def execQueueProdWrite (port : Port) (q : Fin 256) (value : Word) (s : State) :
    Host.Outcome State Fault Refusal :=
  answer s (regWrite port .bar0 (queueOffset q 0x0C) value.toNat)

/-- QUEUE_ENABLE (R442). -/
def execQueueEnable (req : Req) (q : Fin 256) (evtIdle : Bool) (s : State) :
    Host.Outcome State Fault Refusal :=
  answer s (viaRegister req .bar0 (queueOffset q 0) (1 + at1 evtIdle 1) (.queueControl q) 0)

/-- QUEUE_DISABLE (R441). -/
def execQueueDisable (req : Req) (q : Fin 256) (evtIdle : Bool) (s : State) :
    Host.Outcome State Fault Refusal :=
  answer s (viaRegister req .bar0 (queueOffset q 0) (at1 evtIdle 1) (.queueControl q) 0)

/-- QUEUE_CONFIG_WRITE (R443). -/
def execQueueConfigWrite (req : Req) (q : Fin 256) (value : Word) (s : State) :
    Host.Outcome State Fault Refusal :=
  answer s (viaRegister req .bar0 (queueOffset q 4) value.toNat (.queueConfig q) 0)

/-- INVALIDATE (R422). -/
def execInvalidate (port : Port) (q : Fin 256) (s : State) : Host.Outcome State Fault Refusal :=
  answer s (regWrite port .bar0 (queueOffset q 0x2C) 1)

/-- RESUME (R445). -/
def execResume (port : Port) (q : Fin 256) (s : State) : Host.Outcome State Fault Refusal :=
  answer s (regWrite port .bar0 (queueOffset q 0x2C) 2)

/-- RETRACT (R446). -/
def execRetract (port : Port) (q : Fin 256) (s : State) : Host.Outcome State Fault Refusal :=
  answer s (regWrite port .bar0 (queueOffset q 0x2C) 4)

/-- ZERO_INDEX (R446). -/
def execZeroIndex (port : Port) (q : Fin 256) (s : State) : Host.Outcome State Fault Refusal :=
  answer s (regWrite port .bar0 (queueOffset q 0x2C) 8)

/-- ENTRY_WINDOW_COMMIT: a write of ENTRY_WINDOW15 (R407). -/
def execEntryWindowCommit (port : Port) (q : Fin 256) (value : Word) (s : State) :
    Host.Outcome State Fault Refusal :=
  answer s (regWrite port .bar0 (queueOffset q 0x7C) value.toNat)

/-! ### The Hatch registers (CN.7) -/

/-- HATCH_CLAIM (R123). -/
def execHatchClaim (port : Port) (tag : BitVec 16) (s : State) : Host.Outcome State Fault Refusal :=
  answer s (regWrite port .bar0 0x1040 tag.toNat)

/-- HATCH_REFRESH: the owner writes HATCH_OWNER with its tag again (R125). -/
def execHatchRefresh (port : Port) (tag : BitVec 16) (s : State) : Host.Outcome State Fault Refusal :=
  answer s (regWrite port .bar0 0x1040 tag.toNat)

/-- HATCH_RELEASE (R126). -/
def execHatchRelease (port : Port) (tag : BitVec 16) (s : State) : Host.Outcome State Fault Refusal :=
  answer s (regWrite port .bar0 0x1040 (tag.toNat + 2 ^ 31))

/-- HATCH_READ (R137). -/
def execHatchRead (port : Port) (s : State) : Host.Outcome State Fault Refusal :=
  answer s (regWrite port .bar0 0x104C 1)

/-- HATCH_WRITE (R136). -/
def execHatchWrite (port : Port) (s : State) : Host.Outcome State Fault Refusal :=
  answer s (regWrite port .bar0 0x104C 2)

/-- HATCH_READ_CLEAR (R114). -/
def execHatchReadClear (port : Port) (s : State) : Host.Outcome State Fault Refusal :=
  answer s (regWrite port .bar0 0x104C 3)

/-- HATCH_DONE (R138). -/
def execHatchDone (port : Port) (s : State) : Host.Outcome State Fault Refusal :=
  answer s (regWrite port .bar0 0x1050 4)

/-! ### Dictionary writes -/

/-- The object of a wired line, pins first, then the lanes' lines (Table PK-1). -/
def wiredObj (line : Nat) : Obj :=
  if line < 512 then .pinConfig line else .lineConfig ((line - 512) / 64) ((line - 512) % 64)

/-- LINE_CONFIG_WRITE (R216, R246). -/
def execLineConfigWrite (req : Req) (line : Fin 4096) (record : List Byte) (s : State) :
    Host.Outcome State Fault Refusal :=
  answer s (dictCommand req (wiredObj line) 0 record)

/-- LANE_CONTROL_WRITE (R250). -/
def execLaneControlWrite (req : Req) (lane : Fin 56) (record : List Byte) (s : State) :
    Host.Outcome State Fault Refusal :=
  answer s (dictCommand req (.laneControl lane) 0 record)

/-- SOURCE_CONFIG_WRITE (R338). -/
def execSourceConfigWrite (req : Req) (sn : BitVec 24) (record : List Byte) (s : State) :
    Host.Outcome State Fault Refusal :=
  answer s (dictCommand req .sourceConfig sn.toNat record)

/-- RAISE (R341). -/
def execRaise (req : Req) (sn : BitVec 24) (s : State) : Host.Outcome State Fault Refusal :=
  answer s (dictCommand req .sourceControl sn.toNat [1])

/-- WITHDRAW (R341). -/
def execWithdraw (req : Req) (sn : BitVec 24) (s : State) : Host.Outcome State Fault Refusal :=
  answer s (dictCommand req .sourceControl sn.toNat [2])

/-- TARGET_ROOM_WRITE (R329, R332). -/
def execTargetRoomWrite (req : Req) (tn : BitVec 24) (room : Byte) (s : State) :
    Host.Outcome State Fault Refusal :=
  answer s (dictCommand req .targetRoom tn.toNat [room])

/-- ROOM_REACH_WRITE (R327, R330). -/
def execRoomReachWrite (req : Req) (room : Fin 16) (mask : BitVec 16) (s : State) :
    Host.Outcome State Fault Refusal :=
  answer s (dictCommand req (.roomReach room) 0 (leBytes 2 mask.toNat))

/-- INVALIDATE_RANGE (R526). -/
def execInvalidateRange (req : Req) (record : List Byte) (s : State) : Host.Outcome State Fault Refusal :=
  answer s (dictCommand req .invalidateRange 0 record)

/-- MIRROR_DISABLE (R620). -/
def execMirrorDisable (req : Req) (s : State) : Host.Outcome State Fault Refusal :=
  answer s (dictCommand req .mirrorEnable 0 [0])

/-- MIRROR_ENABLE (R621). -/
def execMirrorEnable (req : Req) (s : State) : Host.Outcome State Fault Refusal :=
  answer s (dictCommand req .mirrorEnable 0 [1])

/-- NEW_NONCE (R701). -/
def execNewNonce (req : Req) (s : State) : Host.Outcome State Fault Refusal :=
  answer s (dictCommand req .authRequest 0 [1, 0, 0, 0])

/-- SET_STATE (R691). -/
def execSetState (req : Req) (arg : Byte) (s : State) : Host.Outcome State Fault Refusal :=
  answer s (dictCommand req .authRequest 0 [2, arg, 0, 0])

/-- DEBUG (R731). -/
def execDebug (req : Req) (arg : Byte) (s : State) : Host.Outcome State Fault Refusal :=
  answer s (dictCommand req .authRequest 0 [3, arg, 0, 0])

/-- AUTH_NONE (R704). -/
def execAuthNone (req : Req) (s : State) : Host.Outcome State Fault Refusal :=
  answer s (dictCommand req .authRequest 0 [0, 0, 0, 0])

/-- IMAGE_STAGE_DATA (R199, R200). -/
def execImageStageData (req : Req) (data : List Byte) (s : State) : Host.Outcome State Fault Refusal :=
  answer s (dictCommand req .stageData 0 data)

/-- IMAGE_VERIFY (R202). -/
def execImageVerify (req : Req) (s : State) : Host.Outcome State Fault Refusal :=
  answer s (dictCommand req .imageControl 0 [1])

/-- IMAGE_APPLY (R204). -/
def execImageApply (req : Req) (s : State) : Host.Outcome State Fault Refusal :=
  answer s (dictCommand req .imageControl 0 [2])

/-- IMAGE_DISCARD (R201). -/
def execImageDiscard (req : Req) (s : State) : Host.Outcome State Fault Refusal :=
  answer s (dictCommand req .imageControl 0 [3])

/-! ### KeeperReset (R765 to R769, R786) -/

/-- A write of KeeperReset whose effect is given. -/
def keeperResetWrite (r : Req) (mode : Byte) (key : BitVec 16) (effect : State → State) (s : State) : State :=
  if !mgmtServes s || !reqReaches s r then s
  else
    (writeObject r 2 Obj.keeperReset.addr false effect .keeperReset 0 (mode :: leBytes 2 key.toNat ++ [0])
      (s.wakeUp idManagement)).1

/-- KEEPER_RESET_CAPTURE (R767). -/
def execKeeperResetCapture (req : Req) (key : BitVec 16) (storm : StormInput) (s : State) :
    Host.Outcome State Fault Refusal :=
  answer s (keeperResetWrite req 0 key (keeperCapture storm))

/-- KEEPER_RESET_DISCARD (R768). -/
def execKeeperResetDiscard (req : Req) (key : BitVec 16) (s : State) : Host.Outcome State Fault Refusal :=
  answer s (keeperResetWrite req 1 key (keeperDiscard 5))

end Sys2Proof.Machine
end

