-- ==== Sys2Proof/Machine/Held.lean ====
section
/-!
DEFINITION. What waits in order for an island, a clock, an earlier write or a bank's quota (R44, R82, R93, R603) goes on:
the held accesses are tried again by the commands that can release them, and with the time that passes.
-/

namespace Sys2Proof.Machine

open Sys2Proof

/-- The port of a link. -/
def linkPort : Req → Port
  | .linkA => .a
  | .linkB => .b
  | .sideband => .a

/-- A posted write to BAR0 or BAR2 that the controller has received. -/
def Access.isPosted : Access → Bool
  | .write _ _ _ | .part _ _ | .letterbox _ _ => true
  | _ => false

/-- A held access tried again; a posted write stays held while its port's staging buffer is full (R286). -/
def Access.redo (r : Req) (a : Access) (s : State) : State :=
  if a.isPosted && s.keeper.rdy && stagingFull s (linkPort r) then s.hold r a
  else
  match a with
  | .read w off first count => regRead ⟨linkPort r, first, count⟩ w off s
  | .write w off v => regWrite (linkPort r) w off v s
  | .part w off => regPartial (linkPort r) w off s
  | .letterbox requester w => letterboxArrival (linkPort r) requester w s
  | .dict index sub e bs =>
    match objAt index sub with
    | some o => dictCommand r o e bs s
    | none => s
  | .hostRead (.ringFetch q slot) result => fetchArrives q slot result s
  | .hostRead (.itemRead q) result => itemReadArrives q result s
  | .hostRead (.walkRead i w) result => walkReadArrives i w result s

/-- The held accesses tried again in the order of their arrival, after the fault records that waited; one that still
cannot act stays held, in its place. -/
def retryHeld (s : State) : State :=
  let s := releaseFaults s
  s.held.foldl (fun s x => x.2.redo x.1 s) { s with held := [] }

/-- LOCK_RETURN: an island resumes with no transfer lost or repeated (R82): what waited for it acts. -/
def execLockReturn (island : Island) (s : State) : Host.Outcome State Fault Refusal :=
  answer s fun s =>
    match islandId island with
    | none => s
    | some i => retryHeld (ledgerFlow (lockReturns i s))

/-- LOCK_TIMEOUT: lock has not returned for 10 µs; the core stops until a Keeper reset, and the accesses that waited
meet a controller that is not ready (R83, R98, R588). What becomes of the pieces of a Ledger island without its clock is
free (log entry 48). -/
def execLockTimeout (island : Island) (s : State) : Host.Outcome State Fault Refusal :=
  answer s fun s =>
    match islandId island with
    | none => s
    | some i => retryHeld (lockTimesOut i s)

/-- STATE_UPDATE (R212). -/
def execStateUpdate (gather : Fin 64) (s : State) : Host.Outcome State Fault Refusal :=
  answer s fun s => retryHeld (updateStep gather s)

/-- OUTBOUND_ISSUE (R71). -/
def execOutboundIssue (port : Port) (s : State) : Host.Outcome State Fault Refusal :=
  answer s fun s => retryHeld (outboundStep port s)

/-- MIRROR_WRITE (R600). -/
def execMirrorWrite (channel : Fin 8) (line : Nat) (s : State) (check : WriteCheck := .clean) :
    Host.Outcome State Fault Refusal :=
  answer s fun s => retryHeld (mirrorStep channel line check s)

/-- ROOT_COMMIT (R612, R618). -/
def execRootCommit (s : State) : Host.Outcome State Fault Refusal := answer s fun s => retryHeld (rootStep s)

/-- What a nanosecond with no command brings: time passes, what waited in a port's stream or was held is tried again, and
an image apply under way makes its next element write. -/
def passTime (s : State) : State := imageTick (retryHeld (ledgerFlow (s.elapse 1)))

end Sys2Proof.Machine
end

