-- ==== Sys2Proof/Machine/Peek.lean ====
section
/-!
DEFINITION. The Peephole (SD.7.4) and the accesses of the debug access port (SD.7.3).
-/

namespace Sys2Proof.Machine

open Sys2Proof

/-! ### What the Peephole sees (R113, R738) -/

/-- The OR of three copies, in link A's place. -/
def orBits {w : Nat} (p : Per3 (BitVec w)) : Per3 (BitVec w) := { p with a := p.a ||| p.b ||| p.sb }
def orBool (p : Per3 Bool) : Per3 Bool := { p with a := p.a || p.b || p.sb }

/-- Link A's conduct copies with the OR of every read-clear field. -/
def peekConduct (c : Per3 Conduct) : Conduct :=
  let any := fun (f : Conduct → Bool) => f c.a || f c.b || f c.sb
  let max' := fun (f : Conduct → Nat) => f c.a ||| f c.b ||| f c.sb
  { c.a with
    status := c.a.status ||| c.b.status ||| c.sb.status
    ignLast := { c.a.ignLast with valid := any fun x => x.ignLast.valid }
    abortLog := { c.a.abortLog with valid := any fun x => x.abortLog.valid }
    lastReject := { c.a.lastReject with valid := any fun x => x.lastReject.valid }
    eoiError := { c.a.eoiError with valid := any fun x => x.eoiError.valid }
    wdogLast := { c.a.wdogLast with valid := any fun x => x.wdogLast.valid }
    creditMaxA := max' Conduct.creditMaxA
    creditMaxB := max' Conduct.creditMaxB }

/-- The state as link A would read it if its copy of every read-clear field were the OR of all copies. -/
def peekView (s : State) : State :=
  { s with
    conduct := { s.conduct with a := peekConduct s.conduct }
    portA := { s.portA with mgmtEvent := s.portA.mgmtEvent ||| s.portB.mgmtEvent }
    wired := { s.wired with lanes := s.wired.lanes.map fun (n, l) =>
      (n, { l with flags := orBits l.flags }) }
    queues := { s.queues with vol := s.queues.vol.map fun (q, v) =>
      (q, { v with event := orBits v.event }) }
    fabric := { s.fabric with tstatus := s.fabric.tstatus.map fun (t, p) => (t, orBits p) }
    xlate := { s.xlate with overflow := orBool s.xlate.overflow, new := orBool s.xlate.new }
    ledger := { s.ledger with dropped := orBits s.ledger.dropped, status := orBits s.ledger.status }
    durab := { s.durab with status := orBits s.durab.status } }

/-- Registers that hold what only a Room may see (R740). -/
def confidentialReg : Reg → Bool
  | .hatchData _ => true
  | .window _ _ => true
  | _ => false

/-- Objects that hold what only a Room may see (R740). -/
def confidentialObj : Obj → Bool
  | .xlateRoot _ | .pane _ | .wake _ | .queueRingBase _ | .authNonce | .authSigR | .authSigS => true
  | _ => false

/-- The IOVA and IMAGE fields of a Fault Ledger record read zero (R740, Table TF-11). -/
def maskFault (bs : List Byte) : List Byte :=
  bytesAt bs 0 4 ++ List.replicate 6 0 ++ bytesAt bs 10 22 ++ List.replicate 12 0 ++ bytesAt bs 44 20

/-- A register as a PEEK reads it (R738, R740). -/
def peekReg (s : State) (g : Reg) : Nat :=
  if s.nv.sec = .sealed ∧ confidentialReg g = true then 0
  else
    match g with
    | .hatchData n => (s.hatch.data.getD n 0).toNat
    | g => regValue (peekView s) .a g

/-- A word of an object as a PEEK reads it (R739, R740). -/
def peekObj (s : State) (o : Obj) (e word : Nat) : Nat :=
  if s.nv.sec = .sealed ∧ confidentialObj o = true then 0
  else if !o.elementExists e then 0
  else
    let bs := objValue (peekView s) .linkA o e
    fieldAt (if o = .faultRecord ∧ s.nv.sec = .sealed then maskFault bs else bs) (4 * word) 4

/-- A word of BAR4 as a PEEK reads it; what an uncorrectable line gives is a free value. -/
def peekLedger (s : State) (off : Nat) : Nat :=
  if s.nv.sec = .sealed then 0
  else if off / 64 ∈ s.ledger.bad then Config.freeNat s.free
  else leNat (Memory.readN s.ledger.mem off 4)

/-- DAP_ADDR's fields (Table SD-16). -/
def dapSpace (d : Debug) : Nat := d.addr.toNat / 2 ^ 30
def dapOffset (d : Debug) : Nat := d.addr.toNat % 2 ^ 30 / 4 * 4
def dapIndex (d : Debug) : Nat := bits d.addr.toNat 29 14
def dapSub (d : Debug) : Nat := bits d.addr.toNat 13 6

/-- The word at DAP_ADDR. -/
def peekWord (s : State) : Nat :=
  let d := s.dap
  match dapSpace d with
  | 0 => ((regAt .bar0 (dapOffset d)).map (peekReg s)).getD 0
  | 1 => ((regAt .bar2 (dapOffset d)).map (peekReg s)).getD 0
  | 2 => if dapOffset d < 2 ^ 26 then peekLedger s (dapOffset d) else 0
  | _ =>
    match objAt (dapIndex d) (dapSub d) with
    | none => 0
    | some o => peekObj s o d.element.toNat (d.addr.toNat % 16)

/-- A retained island whose object no register shell holds is woken (R741). -/
def peekWakes (s : State) : State :=
  if dapSpace s.dap = 3 then
    match objAt (dapIndex s.dap) (dapSub s.dap) with
    | none => s
    | some o =>
      (objIslands o s.dap.element.toNat).foldl
        (fun s i => if (s.island i).level = .retained then s.wakeUp i else s) s
  else s

/-- PEEK (R738). -/
def dapPeek (s : State) : State :=
  match dapCheck s 1 with
  | some code => dapStatus code s
  | none =>
    let v := BitVec.ofNat 32 (peekWord s)
    let s := dapStatus dapOk (peekWakes s.draw)
    { s with dap := { s.dap with data := v } }

/-- PEEK (R738). -/
def execPeek (s : State) : Host.Outcome State Fault Refusal := answer s (dapCommand 1 dapPeek)

/-! ### HYDAP (R736, Tables SD-15 and SD-16) -/

/-- What a DAP register reads. -/
def dapRead (s : State) (reg : Nat) : Nat :=
  match reg with
  | 0 => 0x40960A02
  | 1 => dapStatusWord s
  | 2 => s.dap.addr.toNat
  | 3 => s.dap.element.toNat
  | 4 => s.dap.data.toNat
  | 5 => s.dap.haltSel.toNat
  | _ => 0

/-- A write of DAP_CMD; an OP that names no command is a bad argument. -/
def dapRun (op : Nat) (s : State) : State :=
  match op with
  | 1 => dapPeek s
  | 2 => dapHalt s
  | 3 => dapRelease s
  | 4 => dapScanEnter s
  | 5 => dapScanExit s
  | _ => dapStatus dapBadArg s

/-- What a write of a DAP register does. -/
def dapWrite (reg v : Nat) (s : State) : State :=
  match reg with
  | 2 => { s with dap := { s.dap with addr := BitVec.ofNat 32 v } }
  | 3 => { s with dap := { s.dap with element := BitVec.ofNat 24 v } }
  | 5 => { s with dap := { s.dap with haltSel := BitVec.ofNat 16 v } }
  | 6 => dapRun (v % 16) s
  | _ => s

/-- One Update-DR of HYDAP: the access is made, and the next Capture-DR returns its outcome. While a
command runs, a further one does not begin and the captures return BUSY. -/
def hydapAccess (dr : BitVec 40) (s : State) : State :=
  let reg := bits dr.toNat 35 32
  let write := bit dr.toNat 36
  let v := dr.toNat % 2 ^ 32
  if !tapLive s || s.dap.tap != .hydap then s
  else
    let busy := dapRunning s
    let s := { s with dap := { s.dap with
      capReg := BitVec.ofNat 4 reg
      capWrite := write
      capData := BitVec.ofNat 32 (if write then v else dapRead s reg)
      capStatus := dapOk } }
    if !write || (busy && reg == 6) then s else dapWrite reg v s

/-- HYDAP_ACCESS (R736). -/
def execHydapAccess (dr : BitVec 40) (s : State) : Host.Outcome State Fault Refusal :=
  answer s (hydapAccess dr)

end Sys2Proof.Machine
end

