-- ==== Sys2Proof/Machine/Sideband.lean ====
section
/-!
DEFINITION. The sideband (DS.6, DS.7): the I3C common command codes, MCTP control messages, and the Mirpiral
Dictionary Protocol. The codes of MCTP and I3C messages are PRESUMED from the standards that the manual
names and does not restate.
-/

namespace Sys2Proof.Machine

open Sys2Proof

/-- The sideband changed. -/
def State.modSb (s : State) (f : Sideband → Sideband) : State := { s with sideband := f s.sideband }

/-- The Management island serves the sideband: VDDIO in range and not in P3 (R197, R714). What arrives wakes
the island. -/
def onSideband (f : State → State) (s : State) : State :=
  if mgmtServes s && reqReaches s .sideband then f ((s.wakeUp idManagement).busy idManagement) else s

/-- SB_MODE is 0: I3C Basic (R170). -/
def i3cMode (s : State) : Bool := !s.keeper.straps.sbMode

/-! ### Responses (R175, R191, R194, Table DS-4) -/

/-- A byte string in pieces of 64 bytes. -/
def in64s : Nat → List Byte → List (List Byte)
  | 0, _ => []
  | n + 1, bs => if bs.length ≤ 64 then [bs] else bs.take 64 :: in64s n (bs.drop 64)

/-- The packets of a message (R182): payloads of at most 64 bytes, numbered in turn. -/
def packetsOf (bytes : List Byte) : List MctpPacket :=
  let parts := in64s bytes.length bytes
  parts.zipIdx.map fun p =>
    { som := p.2 == 0, eom := p.2 + 1 == parts.length, seq := BitVec.ofNat 2 p.2, payload := p.1 }

/-- The PEC byte of a string (PRESUMED from the SMBus and MCTP I3C bindings, log entry 61). -/
def pecOf (bytes : List Byte) : Byte :=
  (bytes.flatMap fun (b : Byte) => (List.range 8).map fun k => b.getMsbD k).foldl crc8Bit 0

/-- The transport header and payload of a response's packet, with Tag Owner cleared (R191). -/
def packetBytes (p : Response) (k : MctpPacket) : List Byte :=
  let flags := 128 * b2n k.som + 64 * b2n k.eom + 16 * k.seq.toNat + p.tag.toNat
  [0x01, p.dest, p.src, BitVec.ofNat 8 flags] ++ k.payload

/-- What stands on the bus for a packet (R172, R174, R175): a read of the I3C target at its dynamic address, closed by the
PEC byte; or an SMBus block write with PEC to the bus owner, which names the sender's slave address. -/
def packetWire (s : State) (p : Response) (k : MctpPacket) : List Byte :=
  if i3cMode s then
    let data := packetBytes p k
    data ++ [pecOf (BitVec.ofNat 8 (2 * s.sideband.dynAddr + 1) :: data)]
  else
    let body := BitVec.ofNat 8 (2 * (0x48 + s.keeper.straps.sbAddr % 4) + 1) :: packetBytes p k
    let frame := [BitVec.ofNat 8 (2 * p.slave.toNat), 0x0F, BitVec.ofNat 8 body.length] ++ body
    frame ++ [pecOf frame]

/-- A packet of a response leaves. -/
def sendPacket (p : Response) (s : State) (k : MctpPacket) : State :=
  s.emit (.mctp p.dest p.src p.tag false k (packetWire s p k))

/-- The In-Band Interrupt that announces a pending packet, with the Mandatory Data Byte of the MCTP I3C binding, if the
events are enabled and an address is assigned (Table DS-4; the byte is PRESUMED, log entry 61). -/
def interrupt (s : State) : State :=
  if s.sideband.dynAddr ≠ 0 && s.sideband.events.getLsbD 0 then s.emit (.ibi 0xAE) else s

/-- The first response is offered to the bus owner: announced by an In-Band Interrupt, or its first packet written to the
bus owner on SMBus (R175). -/
def announce (s : State) : State :=
  match s.sideband.responses with
  | [] => s
  | p :: _ =>
    if i3cMode s then interrupt s
    else (((packetsOf p.bytes).take 1).foldl (sendPacket p) s).modSb fun b => { b with sent := 1 }

/-- The packets of a response that are still to leave, up to a number: in I3C mode each is announced and read in turn,
in SMBus mode each is written once the one before it was acknowledged. -/
def sendUpTo (n : Nat) (p : Response) (s : State) : State :=
  let more := ((packetsOf p.bytes).take n).drop s.sideband.sent
  let s :=
    if i3cMode s then
      more.foldl (fun s k => sendPacket p (if k.som then s else interrupt s) k) s
    else more.foldl (sendPacket p) s
  s.modSb fun b => { b with sent := max b.sent n }

/-- A response is ready. It waits behind those not yet delivered. -/
def respond (p : Response) (s : State) : State :=
  let t := s.modSb fun b => { b with responses := b.responses ++ [p] }
  if s.sideband.responses.isEmpty then announce t else t

/-- A response of the control or SPDM kind. -/
def answerMctp (m : MctpFrom) (bytes : List Byte) (s : State) : State :=
  respond { dest := m.src, src := m.dest, tag := m.tag, slave := m.slave, bytes := bytes, mirpiral := false, keep := false } s

/-! ### Mirpiral (DS.7.2 to DS.7.4) -/

/-- Codes of Table DS-7. -/
def stBadOpcode : Nat := 0x06
def stBadVersion : Nat := 0x10
def stBadLength : Nat := 0x11
def stHatchBusy : Nat := 0x12
def stAborted : Nat := 0x13
def stNotHeld : Nat := 0x14
def stQueueFull : Nat := 0x15

/-- A Mirpiral response to a request (Table DS-5). -/
def mirBytes (q : MirReq) (status : Nat) (body : List Byte) : List Byte :=
  [0x7F] ++ beBytes 4 Config.ianaNumber.toNat ++ [0x10, 0, q.inst, BitVec.ofNat 8 q.command,
    BitVec.ofNat 8 status] ++ leBytes 2 body.length ++ body

/-- That response on its way to the requester. -/
def mirResponse (q : MirReq) (mirpiral : Bool) (status : Nat) (body : List Byte) : Response :=
  { dest := q.src, src := q.dest, tag := q.tag, slave := q.slave, bytes := mirBytes q status body,
    mirpiral := mirpiral, keep := q.keep }

/-- The request being executed is answered. -/
def mirAnswer (q : MirReq) (status : Nat) (body : List Byte) (s : State) : State :=
  respond (mirResponse q true status body) (s.modSb fun b => { b with current := none })

/-- The address in a request's body (DS.7.2). -/
def mirIndex (q : MirReq) : Nat := fieldAt q.body 0 2
def mirSub (q : MirReq) : Nat := fieldAt q.body 2 1
def mirElement (q : MirReq) : Nat := fieldAt q.body 3 3
def mirAddress (q : MirReq) : List Byte := bytesAt q.body 0 6

/-- BODY_LEN matches the command, and a SET's LENGTH the object's type (Tables DS-6, DS-7). -/
def mirLengthOk (q : MirReq) : Bool :=
  q.bodyLen == q.body.length &&
    match q.command with
    | 1 | 3 | 4 => q.body.length == 6
    | 2 =>
      let n := fieldAt q.body 6 1
      7 ≤ q.body.length && q.body.length == 7 + n &&
        (match objAt (mirIndex q) (mirSub q) with
         | some o => o.desc.len == n
         | none => true)
    | 5 => q.body.isEmpty
    | _ => true

/-- A request that is answered without being carried out (R187, R188), and the answer's status. -/
def mirBad (q : MirReq) : Option Nat :=
  if q.version ≠ 0x10 then some stBadVersion
  else if q.command = 0 ∨ 5 < q.command then some stBadOpcode
  else if !mirLengthOk q then some stBadLength
  else none

/-- An unknown COMMAND is counted with reason NAME (R188). What IGN_LAST records as its address and space the
manual does not say: free values. -/
def countUnknown (s : State) : State :=
  (s.ignoredWrite .sideband (Config.freeNat s.free % 4) (Config.freeNat (s.free + 1) % 2 ^ 24) rName).draw.draw

/-- The sideband owns the Hatch. -/
def sbOwns (s : State) : Bool := s.hatch.owner == some .sideband

/-- The next request begins once the one before it is answered and its response delivered (R190); it restarts the timer
of a Hatch that the sideband keeps (R195). One that cannot be carried out is answered at once. -/
def mirNext (s : State) : State :=
  if s.sideband.current.isSome || s.sideband.responses.any Response.mirpiral then s
  else
    match s.sideband.waiting with
    | [] => s
    | q :: rest =>
      let s := s.modSb fun b => { b with waiting := rest, current := some { q with arrived := s.now } }
      let s := if sbOwns s then hatchTouch s else s
      match mirBad q with
      | none => s
      | some code =>
        mirAnswer q code [] (if code = stBadOpcode then countUnknown s else s)

/-- A Mirpiral request arrives (R184, R189, R190). The manual gives a QUEUE_FULL response no body: it is empty (DEDUCED,
log entry 55). -/
def mirArrive (m : MctpMsg) (s : State) : State :=
  let field := fun i n => fieldAt m.bytes i n
  let flags := field 6 1
  if beNat (bytesAt m.bytes 1 4) ≠ Config.ianaNumber.toNat || !bit flags 7 then s
  else
    let q : MirReq :=
      { dest := m.dest, src := m.src, tag := m.tag, slave := m.slave, keep := bit flags 6, inst := BitVec.ofNat 8 (field 7 1),
        version := field 5 1, command := field 8 1, bodyLen := field 10 2, body := m.bytes.drop 12,
        arrived := s.now }
    if 4 ≤ s.sideband.waiting.length then respond (mirResponse q false stQueueFull []) s
    else mirNext (s.modSb fun b => { b with waiting := b.waiting ++ [q] })

/-- A Hatch command for a request: the Hatch is claimed, or its timer restarted, and the command given
(R192, R195). -/
def mirHatch (q : MirReq) (opcode : Nat) (s : State) : State :=
  let s := if sbOwns s then hatchTouch s else hatchClaim .sideband 0xFFFF s
  hatchCommand opcode (s.modHatch fun h => { h with
    valid := false
    addr := BitVec.ofNat 32 (2 ^ 16 * mirIndex q + 2 ^ 8 * mirSub q)
    element := BitVec.ofNat 24 (mirElement q)
    data := if opcode = 2 then hatchWords (q.body.drop 7) else h.data })

/-- A command of the sideband is under way, or its result stands. -/
def mirUnderway (s : State) : Bool := sbOwns s && (s.hatch.busy || s.hatch.valid)

/-- LENGTH and value as the Hatch gave them (Table DS-6). The manual does not say what value a NOT_READY response
carries: it is what HATCH_DATA holds (DESIGN CHOICE, log entry 18). -/
def mirValue (q : MirReq) (s : State) : List Byte :=
  mirAddress q ++ [BitVec.ofNat 8 s.hatch.length] ++ bytesAt (hatchBytes s.hatch) 0 s.hatch.length

/-- A result that waits is published. -/
def mirPublish (s : State) : State := hatchComplete s

/-- The request being executed, if it names this command. -/
def mirRun (command : Nat) (f : MirReq → State → State) (s : State) : State :=
  match s.sideband.current with
  | none => s
  | some q => if q.command = command then f q s else s

/-- A link owns the Hatch: the island retries the claim (R192). -/
def linkOwns (s : State) : Bool := s.hatch.owner.any (· != .sideband)

/-- GET and GET_CLEAR: one Hatch command, and its value as the answer. -/
def mirRead (opcode : Nat) (q : MirReq) (s : State) : State :=
  if linkOwns s then s
  else
    let s := mirPublish (if mirUnderway s then s else mirHatch q opcode s)
    if s.hatch.valid then mirAnswer q s.hatch.code (mirValue q s) s else s

/-- The READ of a SET stands in the Hatch as its result. -/
def showReadBack (x : Nat × List Byte) (s : State) : State :=
  s.modHatch fun h => { h with
    opcode := 1
    code := x.1
    length := if x.1 = 2 then 4 else h.length
    readBack := none
    data := if x.1 = 0 || x.1 = 2 then hatchWords x.2 else h.data }

/-- SET: a WRITE, then a READ within the same ownership, made in one with it; the WRITE's code is the status (R185). -/
def mirSet (q : MirReq) (s : State) : State :=
  if linkOwns s then s
  else
    let s := mirPublish (if mirUnderway s then s else mirHatch q 2 s)
    if !s.hatch.valid then s
    else
      let code := s.hatch.code
      let s := showReadBack (s.hatch.readBack.getD (0, [])) s
      mirAnswer q code (mirValue q s) s

/-- Rights of a requester as DESCRIBE packs them (Table DS-6, R826). -/
def describeRights (s : State) (o : Obj) : Nat :=
  rightOf s.nv.sec .linkA o o.index + 4 * rightOf s.nv.sec .linkB o o.index +
    16 * rightOf s.nv.sec .sideband o o.index

/-- The number of a persistence class (Table DS-6). -/
def Pers.num : Pers → Nat
  | .img => 0
  | .dur => 1
  | .kpr => 2
  | .vol => 3

/-- DESCRIBE's answer from the description, without the Hatch (R186, R826). -/
def mirDescribe (q : MirReq) (s : State) : State :=
  match objAt (mirIndex q) (mirSub q) with
  | none => mirAnswer q 2 (mirAddress q) s
  | some o =>
    let d := o.desc
    mirAnswer q 0 (mirAddress q ++
      [BitVec.ofNat 8 d.type, BitVec.ofNat 8 d.len, BitVec.ofNat 8 (describeRights s o),
       BitVec.ofNat 8 d.pers.num, BitVec.ofNat 8 (o.bolt.getD 0xFF), 0, 0, 0] ++
      leBytes 8 d.lo ++ leBytes 8 d.hi) s

/-- RELEASE ends the hold (R196, Table DS-7). -/
def mirRelease (q : MirReq) (s : State) : State :=
  if sbOwns s then mirAnswer q 0 [] (releaseHatch s) else mirAnswer q stNotHeld [] s

/-- GET (R184, R192). -/
def execGet (s : State) : Host.Outcome State Fault Refusal := answer s (onSideband (mirRun 1 (mirRead 1)))

/-- SET (R185, R192). -/
def execSet (s : State) : Host.Outcome State Fault Refusal := answer s (onSideband (mirRun 2 mirSet))

/-- GET_CLEAR (R115, R192). -/
def execGetClear (s : State) : Host.Outcome State Fault Refusal := answer s (onSideband (mirRun 3 (mirRead 3)))

/-- DESCRIBE (R186). -/
def execDescribe (s : State) : Host.Outcome State Fault Refusal := answer s (onSideband (mirRun 4 mirDescribe))

/-- RELEASE (R196). -/
def execRelease (s : State) : Host.Outcome State Fault Refusal := answer s (onSideband (mirRun 5 mirRelease))

/-- SIDEBAND_HATCH_WAIT_EXPIRY: the claim has not succeeded for SidebandHatchWait (R192). The manual gives a HATCH_BUSY
response no body: it is empty (DEDUCED, log entry 55). -/
def execSidebandHatchWaitExpiry (s : State) : Host.Outcome State Fault Refusal :=
  answer s <| onSideband fun s =>
    match s.sideband.current with
    | none => s
    | some q =>
      if linkOwns s && decide (1 ≤ q.command ∧ q.command ≤ 3) then
        mirAnswer q stHatchBusy [] (s.elapseTo (q.arrived + 100000 * s.dur.g.sbHatchWait))
      else s

/-- What follows the delivery of a response: DONE is written, and the Hatch is released unless KEEP is set
(R194, R195). -/
def afterDelivery (p : Response) (s : State) : State :=
  if p.mirpiral && sbOwns s then
    if p.keep then hatchTouch (s.modHatch fun h => { h with valid := false }) else releaseHatch s
  else s

/-- The first response has been delivered. -/
def deliverResponse (s : State) : State :=
  match s.sideband.responses with
  | [] => s
  | p :: rest =>
    let s := (sendUpTo (packetsOf p.bytes).length p s).modSb fun b =>
      { b with responses := rest, sent := 0, retries := 0 }
    mirNext (announce (afterDelivery p s))

/-- RESPONSE_DELIVERED (R194, R195). -/
def execResponseDelivered (s : State) : Host.Outcome State Fault Refusal :=
  answer s (onSideband deliverResponse)

/-- HATCH_TIMEOUT: the ownership timer has reached HATCH_TIMEOUT; BUSY stops it (R139 to R141). A Mirpiral request whose
command's result stood is answered with ABORTED (Table DS-7). -/
def execHatchTimeout (s : State) : Host.Outcome State Fault Refusal :=
  answer s <| whenServing fun s =>
    if s.hatch.owner.isNone || s.hatch.busy then s
    else
      let cut := if mirUnderway s then s.sideband.current else none
      let took := b2n (hatchApplied s.hatch)
      let s := abortHatch 2 (s.elapseTo (s.hatch.timerFrom + 10000 * s.hatch.timeout))
      match cut with
      | none => s
      | some q => mirNext (mirAnswer q stAborted (mirAddress q ++ [BitVec.ofNat 8 took]) s)

/-! ### MCTP control messages (R179 to R183) -/

/-- A control response: its header and completion code, then its data. -/
def controlReply (m : MctpFrom) (inst : BitVec 5) (command code : Nat) (data : List Byte) (s : State) : State :=
  answerMctp m ([0, inst.zeroExtend 8, BitVec.ofNat 8 command, BitVec.ofNat 8 code] ++ data) s

/-- Set Endpoint ID (R176, R836): another EID than the assigned one is a loss of the carrier. -/
def controlSetEid (m : MctpFrom) (inst : BitVec 5) (op : Nat) (eid : Byte) (s : State) : State :=
  if 2 ≤ op || eid = 0 || eid = 0xFF then controlReply m inst 1 0x02 [] s
  else
    let n := eid.toNat
    let t := if s.sideband.eid ≠ 0 && s.sideband.eid ≠ n then carrierLoss s else s
    controlReply m inst 1 0 [0, eid, 0] (t.modSb fun b => { b with eid := n })

/-- Get Endpoint ID. -/
def controlGetEid (m : MctpFrom) (inst : BitVec 5) (s : State) : State :=
  controlReply m inst 2 0 [BitVec.ofNat 8 s.sideband.eid, 0, 0] s

/-- Get Endpoint UUID. -/
def controlUuid (m : MctpFrom) (inst : BitVec 5) (s : State) : State :=
  controlReply m inst 3 0 (beBytes 16 Config.endpointUuid.toNat) s

/-- Get MCTP Version Support: 1.3 for the base protocol and for control messages (R178). -/
def controlVersion (m : MctpFrom) (inst : BitVec 5) (type : Byte) (s : State) : State :=
  if type = 0xFF || type = 0 then controlReply m inst 4 0 [1, 0xF1, 0xF3, 0xFF, 0x00] s
  else controlReply m inst 4 0x80 [] s

/-- Get Message Type Support: SPDM and vendor-defined messages beside control (R180). -/
def controlTypes (m : MctpFrom) (inst : BitVec 5) (s : State) : State :=
  controlReply m inst 5 0 [2, 0x05, 0x7F] s

/-- Get Vendor Defined Message Support (R183). -/
def controlVendor (m : MctpFrom) (inst : BitVec 5) (selector : Byte) (s : State) : State :=
  if selector = 0 then
    controlReply m inst 6 0 ([0xFF, 0x01] ++ beBytes 4 Config.ianaNumber.toNat ++ [0x00, 0x10]) s
  else controlReply m inst 6 0x02 [] s

/-- A control request, by its command code; any other command is ERROR_UNSUPPORTED_CMD (R179). -/
def controlRequest (m : MctpFrom) (bytes : List Byte) (s : State) : State :=
  let byte := fun i => BitVec.ofNat 8 (fieldAt bytes i 1)
  let inst := BitVec.ofNat 5 (fieldAt bytes 1 1)
  if !bit (fieldAt bytes 1 1) 7 then s
  else
    match fieldAt bytes 2 1 with
    | 1 => controlSetEid m inst (fieldAt bytes 3 1 % 4) (byte 4) s
    | 2 => controlGetEid m inst s
    | 3 => controlUuid m inst s
    | 4 => controlVersion m inst (byte 3) s
    | 5 => controlTypes m inst s
    | 6 => controlVendor m inst (byte 3) s
    | n => controlReply m inst n 0x05 [] s

/-- The bus owner has assigned an endpoint ID and, in I3C mode, a dynamic address (R181, R836). -/
def assigned (s : State) : Bool := s.sideband.eid != 0 && (!i3cMode s || s.sideband.dynAddr != 0)

/-- A message to this endpoint (R181, R836): to EID 0x00 before the addresses are assigned, and then control messages
alone; afterwards to the assigned EID. -/
def accepts (m : MctpFrom) (control : Bool) (s : State) : Bool :=
  if assigned s then m.dest.toNat == s.sideband.eid else m.dest == 0 && control

/-- What an accepted control message does. -/
def onControl (m : MctpFrom) (f : State → State) (s : State) : State :=
  onSideband (fun s => if accepts m true s then f s else s) s

/-- SET_ENDPOINT_ID (R176, R836). -/
def execSetEndpointId (via : MctpFrom) (inst : BitVec 5) (eid : Byte) (s : State) :
    Host.Outcome State Fault Refusal :=
  answer s (onControl via (controlSetEid via inst 0 eid))

/-- GET_ENDPOINT_ID (R179). -/
def execGetEndpointId (via : MctpFrom) (inst : BitVec 5) (s : State) : Host.Outcome State Fault Refusal :=
  answer s (onControl via (controlGetEid via inst))

/-- GET_ENDPOINT_UUID (R179). -/
def execGetEndpointUuid (via : MctpFrom) (inst : BitVec 5) (s : State) : Host.Outcome State Fault Refusal :=
  answer s (onControl via (controlUuid via inst))

/-- GET_MCTP_VERSION_SUPPORT (R179). -/
def execGetMctpVersionSupport (via : MctpFrom) (inst : BitVec 5) (type : Byte) (s : State) :
    Host.Outcome State Fault Refusal :=
  answer s (onControl via (controlVersion via inst type))

/-- GET_MESSAGE_TYPE_SUPPORT (R179). -/
def execGetMessageTypeSupport (via : MctpFrom) (inst : BitVec 5) (s : State) :
    Host.Outcome State Fault Refusal :=
  answer s (onControl via (controlTypes via inst))

/-- GET_VENDOR_DEFINED_MESSAGE_SUPPORT (R183). -/
def execGetVendorDefinedMessageSupport (via : MctpFrom) (inst : BitVec 5) (selector : Byte) (s : State) :
    Host.Outcome State Fault Refusal :=
  answer s (onControl via (controlVendor via inst selector))

/-! ### I3C Basic (DS.6.2) -/

/-- The Keeper's part of an I3C command: it reaches a target in I3C mode. -/
def onI3c (f : State → State) (s : State) : State := onSideband (fun s => if i3cMode s then f s else s) s

/-- A command directed to the dynamic address; without one it is not acknowledged. -/
def directed (f : State → State) (s : State) : State :=
  onI3c (fun s => if s.sideband.dynAddr = 0 then s.emit .nack else f s) s

/-- The provisional ID as sent on the bus (R829). -/
def pidBytes (s : State) : List Byte := beBytes 6 (provisionalId s.keeper)

/-- ENTDAA: a target without a dynamic address sends its ID, BCR and DCR and takes the address. -/
def execEntdaa (address : BitVec 7) (s : State) : Host.Outcome State Fault Refusal :=
  answer s <| onI3c fun s =>
    if s.sideband.dynAddr ≠ 0 then s.emit .nack
    else
      announce ((s.emit (.ccc (pidBytes s ++ [0x06, 0x00]))).modSb fun b =>
        { b with dynAddr := address.toNat })

/-- SETDASA: the static address of R171 gets a dynamic address. -/
def execSetdasa (static : BitVec 7) (address : BitVec 7) (s : State) : Host.Outcome State Fault Refusal :=
  answer s <| onI3c fun s =>
    if static.toNat ≠ 0x48 + s.keeper.straps.sbAddr % 4 || s.sideband.dynAddr ≠ 0 then s.emit .nack
    else announce (s.modSb fun b => { b with dynAddr := address.toNat })

/-- SETNEWDA: the dynamic address changes. -/
def execSetnewda (address : BitVec 7) (s : State) : Host.Outcome State Fault Refusal :=
  answer s <| directed fun s => s.modSb fun b => { b with dynAddr := address.toNat }

/-- The dynamic address is lost, and with it the carrier (R176); neither it nor an endpoint ID is assigned then (R836). -/
def loseAddress (s : State) : State :=
  (if s.sideband.dynAddr = 0 then s else carrierLoss s).modSb fun b => { b with dynAddr := 0, eid := 0 }

/-- RSTDAA (R176, R836). -/
def execRstdaa (s : State) : Host.Outcome State Fault Refusal := answer s (onI3c loseAddress)

/-- RSTACT: a target reset (R176, R836). -/
def execRstact (s : State) : Host.Outcome State Fault Refusal := answer s (onI3c loseAddress)

/-- ENEC: events enabled; bit 0 the In-Band Interrupt, bit 3 the Hot-Join. A response that waits is then
announced. -/
def execEnec (events : Byte) (s : State) : Host.Outcome State Fault Refusal :=
  answer s <| onI3c fun s =>
    let t := s.modSb fun b => { b with events := b.events ||| (events &&& 9) }
    if s.sideband.events.getLsbD 0 then t else announce t

/-- DISEC: events disabled. -/
def execDisec (events : Byte) (s : State) : Host.Outcome State Fault Refusal :=
  answer s <| onI3c fun s => s.modSb fun b => { b with events := b.events &&& ~~~events }

/-- SETMWL: a length below 69 is ignored (R173), and 69 is the most there is (Table DS-4). -/
def execSetmwl (length : BitVec 16) (s : State) : Host.Outcome State Fault Refusal :=
  answer s <| directed fun s =>
    if length.toNat < 69 then s else s.modSb fun b => { b with mwl := min 69 length.toNat }

/-- SETMRL: a length below 69 is ignored (R173), and 69 is the most there is (Table DS-4). -/
def execSetmrl (length : BitVec 16) (s : State) : Host.Outcome State Fault Refusal :=
  answer s <| directed fun s =>
    if length.toNat < 69 then s else s.modSb fun b => { b with mrl := min 69 length.toNat }

/-- GETMWL. -/
def execGetmwl (s : State) : Host.Outcome State Fault Refusal :=
  answer s <| directed fun s => s.emit (.ccc (beBytes 2 s.sideband.mwl))

/-- GETMRL: the length, and the length of an interrupt's payload. -/
def execGetmrl (s : State) : Host.Outcome State Fault Refusal :=
  answer s <| directed fun s => s.emit (.ccc (beBytes 2 s.sideband.mrl ++ [Config.i3cIbiLength]))

/-- GETPID (R829). -/
def execGetpid (s : State) : Host.Outcome State Fault Refusal :=
  answer s <| directed fun s => s.emit (.ccc (pidBytes s))

/-- GETBCR (Table DS-4). -/
def execGetbcr (s : State) : Host.Outcome State Fault Refusal :=
  answer s <| directed fun s => s.emit (.ccc [0x06])

/-- GETDCR (Table DS-4). -/
def execGetdcr (s : State) : Host.Outcome State Fault Refusal :=
  answer s <| directed fun s => s.emit (.ccc [0x00])

/-- GETSTATUS: a free value. -/
def execGetstatus (s : State) : Host.Outcome State Fault Refusal :=
  answer s <| directed fun s => (s.emit (.ccc (beBytes 2 (Config.i3cStatus s.free).toNat))).draw

/-- GETMXDS. -/
def execGetmxds (s : State) : Host.Outcome State Fault Refusal :=
  answer s <| directed fun s => s.emit (.ccc (beBytes 2 Config.i3cMaxDataSpeed.toNat))

/-- HOT_JOIN: VDDIO has come up and the controller has no dynamic address; issued once (Table DS-4). -/
def execHotJoin (s : State) : Host.Outcome State Fault Refusal :=
  answer s fun s =>
    let up := s.powered && s.keeper.vddAux && i3cMode s
    let s := if up then { s with keeper := { s.keeper with vddio := true } } else s
    onI3c (fun s =>
      if s.sideband.dynAddr = 0 && !s.sideband.hotJoined && s.sideband.events.getLsbD 3 then
        (s.emit .hotJoin).modSb fun b => { b with hotJoined := true }
      else s) s

/-! ### SMBus (DS.6.3) -/

/-- SMBCLK_TIMEOUT: SMBCLK low longer than 35 ms (R176). -/
def execSmbclkTimeout (s : State) : Host.Outcome State Fault Refusal :=
  answer s <| onSideband fun s => if i3cMode s then s else carrierLoss s

/-- SMBUS_RETRY: 1 ms after lost arbitration or a byte not acknowledged, the packet is sent again, at most
three times; a failure after the third is a loss of the carrier (R175, R176). The packets before it were
acknowledged. -/
def execSmbusRetry (s : State) (packet : Nat := 0) : Host.Outcome State Fault Refusal :=
  answer s <| onSideband fun s =>
    match s.sideband.responses with
    | [] => s
    | p :: _ =>
      let packets := packetsOf p.bytes
      if i3cMode s || packets.length ≤ packet || packet + 1 < s.sideband.sent then s
      else
        let s := if s.sideband.sent ≤ packet then
            (sendUpTo (packet + 1) p s).modSb fun b => { b with retries := 0 }
          else s
        if 3 ≤ s.sideband.retries then carrierLoss s
        else
          let s := (s.elapse 1000000).modSb fun b => { b with retries := b.retries + 1 }
          ((packets.drop packet).take 1).foldl (sendPacket p) s

end Sys2Proof.Machine
end

