-- ==== Sys2Proof/Machine/Spdm.lean ====
section
/-!
DEFINITION. The SPDM 1.2 responder (SD.3.3) and MCTP_MESSAGE, which takes every message apart. The message
codes and layouts are PRESUMED from the SPDM standard, which the manual names and does not restate.
-/

namespace Sys2Proof.Machine

open Sys2Proof

/-- Error codes of SPDM. -/
def spdmInvalid : Nat := 0x01
def spdmUnexpected : Nat := 0x04
def spdmUnsupported : Nat := 0x07
def spdmMismatch : Nat := 0x41

/-- A request's bytes from its version byte on. -/
def spdmBytes (m : SpdmReq) (code : Nat) : List Byte :=
  [m.version, BitVec.ofNat 8 code, m.param1, m.param2] ++ m.body

/-- An SPDM response on message type 0x05. -/
def spdmReply (m : SpdmReq) (bytes : List Byte) (s : State) : State := answerMctp m.via ([0x05] ++ bytes) s

/-- An ERROR response (R711). -/
def spdmError (m : SpdmReq) (code data : Nat) (s : State) : State :=
  spdmReply m [0x12, 0x7F, BitVec.ofNat 8 code, BitVec.ofNat 8 data] s

/-- The negotiation changed. -/
def State.modSpdm (s : State) (f : Spdm → Spdm) : State :=
  s.modSb fun b => { b with spdm := b.spdm.map f }

/-- GET_VERSION: the one version; the negotiation restarts with this requester (R712). -/
def spdmVersion (m : SpdmReq) (s : State) : State :=
  if m.version ≠ 0x10 then spdmError m spdmMismatch 0 s
  else
    let out : List Byte := [0x10, 0x04, 0, 0, 0, 1, 0x00, 0x12]
    spdmReply m out (s.modSb fun b => { b with
      spdm := some { owner := m.via.src, caps := false, algs := false,
                     negotiation := spdmBytes m 0x84 ++ out, identity := [], measured := [] } })

/-- A request that follows GET_VERSION: of version 1.2, by the requester whose negotiation is kept, and in
its order (R711, R712). -/
def spdmAfter (ready : Spdm → Bool) (m : SpdmReq) (f : Spdm → State → State) (s : State) : State :=
  if m.version ≠ 0x12 then spdmError m spdmMismatch 0 s
  else
    match s.sideband.spdm with
    | none => spdmError m spdmUnexpected 0 s
    | some n =>
      if n.owner = m.via.src && ready n then f n s else spdmError m spdmUnexpected 0 s

/-- GET_CAPABILITIES (Table SD-8): CERT_CAP, CHAL_CAP and MEAS_CAP with signature, CTExponent 16. -/
def spdmCapabilities (m : SpdmReq) : State → State :=
  spdmAfter (fun n => !n.caps) m fun _ s =>
    let out : List Byte := [0x12, 0x61, 0, 0, 0, 16, 0, 0] ++ leBytes 4 0x16 ++ leBytes 4 1024 ++ leBytes 4 1024
    spdmReply m out (s.modSpdm fun n => { n with
      caps := true, negotiation := n.negotiation ++ spdmBytes m 0xE1 ++ out })

/-- NEGOTIATE_ALGORITHMS (Table SD-8): P-384 and SHA-384, which the requester must offer. -/
def spdmAlgorithms (m : SpdmReq) : State → State :=
  spdmAfter (fun n => n.caps && !n.algs) m fun _ s =>
    if !bit (fieldAt m.body 4 4) 7 || !bit (fieldAt m.body 8 4) 1 then spdmError m spdmInvalid 0 s
    else
      let out : List Byte := [0x12, 0x63, 0, 0] ++ leBytes 2 36 ++ [1, 0] ++ leBytes 4 4 ++ leBytes 4 0x80 ++
        leBytes 4 2 ++ List.replicate 16 0
      spdmReply m out (s.modSpdm fun n => { n with
        algs := true, negotiation := n.negotiation ++ spdmBytes m 0xE3 ++ out })

/-- The chain of slot 0, of at most 2,048 bytes (R710). -/
def certificates : List Byte := Config.certificateChain.take 2048

/-- GET_DIGESTS (Table SD-8). -/
def spdmDigests (m : SpdmReq) : State → State :=
  spdmAfter Spdm.algs m fun _ s =>
    let out : List Byte := [0x12, 0x01, 0, 0x01] ++ sha384 certificates
    spdmReply m out (s.modSpdm fun n => { n with identity := n.identity ++ spdmBytes m 0x81 ++ out })

/-- GET_CERTIFICATE: slot 0, any part whose response fits in 1,024 bytes (Table SD-8). -/
def spdmCertificate (m : SpdmReq) : State → State :=
  spdmAfter Spdm.algs m fun _ s =>
    let offset := fieldAt m.body 0 2
    let part := (certificates.drop offset).take (fieldAt m.body 2 2)
    if m.param1.toNat % 16 ≠ 0 || certificates.length ≤ offset || 1016 < part.length then
      spdmError m spdmInvalid 0 s
    else
      let out : List Byte := [0x12, 0x02, 0, 0] ++ leBytes 2 part.length ++
        leBytes 2 (certificates.length - offset - part.length) ++ part
      spdmReply m out (s.modSpdm fun n => { n with identity := n.identity ++ spdmBytes m 0x82 ++ out })

/-- The value of a measurement block and whether it is a digest (Table SD-9). -/
def measurement (s : State) (index : Nat) : List Byte :=
  match index with
  | 1 => bytesAt Config.bootRomDigest 0 48
  | 2 => sha384 ([BitVec.ofNat 8 s.nv.sec.num] ++ s.nv.ownerKey ++
      [if s.nv.pendingSealed then Config.pendingTransition else 0])
  | 3 => bytesAt s.dur.g.imageLastDigest 0 48
  | 4 => [BitVec.ofNat 8 s.dap.grant, BitVec.ofNat 8 (debugActive s),
      BitVec.ofNat 8 (b2n (s.keeper.deadbolts.getLsbD 4)), 0]
  | 5 => [s.keeper.deadbolts.zeroExtend 8]
  | _ => leBytes 4 s.nv.tamperCount ++ [BitVec.ofNat 8 s.nv.tamperLog.cause, 0, 0, 0]

/-- The representation of a block: immutable ROM, hardware or firmware configuration as a digest, or a raw bit
stream (Table SD-9). -/
def measurementKind (index : Nat) : Byte :=
  match index with
  | 1 => 0
  | 2 => 2
  | 3 => 3
  | n => 0x80 ||| (Config.measurementType n).zeroExtend 8

/-- A measurement block in the DMTF layout. -/
def measurementBlock (s : State) (index : Nat) : List Byte :=
  let v := measurement s index
  [BitVec.ofNat 8 index, 1] ++ leBytes 2 (v.length + 3) ++ [measurementKind index] ++ leBytes 2 v.length ++ v

/-- Blocks one after another. -/
def measurementBlocks (s : State) (ids : List Nat) : List Byte := ids.flatMap (measurementBlock s)

/-- The signature of the device identity key, and the entropy that a nonce takes: free values. -/
def drawNonce (s : State) : List Byte := leBytes 32 (Config.entropy s.free).toNat
def signature (s : State) (transcript : List Byte) : List Byte :=
  bytesAt (Config.identitySignature transcript (s.free + 1)) 0 96

/-- CHALLENGE (R713, Table SD-8): slot 0; the summary of no block, of blocks 1 and 2, or of all. -/
def spdmChallenge (m : SpdmReq) : State → State :=
  spdmAfter Spdm.algs m fun n s =>
    let summary : Option (List Byte) := match m.param2.toNat with
      | 0x00 => some []
      | 0x01 => some (sha384 (measurementBlocks s [1, 2]))
      | 0xFF => some (sha384 (measurementBlocks s [1, 2, 3, 4, 5, 6]))
      | _ => none
    match summary with
    | none => spdmError m spdmInvalid 0 s
    | some sum =>
      if m.param1 ≠ 0 || m.body.length ≠ 32 then spdmError m spdmInvalid 0 s
      else
        let out : List Byte := [0x12, 0x03, 0, 0x01] ++ sha384 certificates ++ drawNonce s ++ sum ++ [0, 0]
        let sig := signature s (n.negotiation ++ n.identity ++ spdmBytes m 0x83 ++ out)
        spdmReply m (out ++ sig) ((s.draw.draw).modSpdm fun n => { n with identity := [] })

/-- GET_MEASUREMENTS (Tables SD-8, SD-9): the count, one block or all, signed on request. -/
def spdmMeasurements (m : SpdmReq) : State → State :=
  spdmAfter Spdm.algs m fun n s =>
    let index := m.param2.toNat
    let signed := bit m.param1.toNat 0
    let ids : List Nat :=
      if index = 0 then [] else if index = 0xFF then [1, 2, 3, 4, 5, 6] else [index]
    if (6 < index && index ≠ 0xFF) || (signed && (m.body.length ≠ 33 || fieldAt m.body 32 1 % 16 ≠ 0)) then
      spdmError m spdmInvalid 0 s
    else
      let record := measurementBlocks s ids
      let out : List Byte := [0x12, 0x60, if index = 0 then 6 else 0, 0, BitVec.ofNat 8 ids.length] ++
        leBytes 3 record.length ++ record ++ drawNonce s ++ [0, 0]
      let said := n.measured ++ spdmBytes m 0xE0 ++ out
      if signed then
        spdmReply m (out ++ signature s (n.negotiation ++ said))
          ((s.draw.draw).modSpdm fun n => { n with measured := [] })
      else spdmReply m out (s.draw.modSpdm fun n => { n with measured := said })

/-- What an accepted SPDM message does (R181, R714). -/
def onSpdm (m : SpdmReq) (f : State → State) (s : State) : State :=
  onSideband (fun s => if accepts m.via false s then f s else s) s

/-- GET_VERSION (R712). -/
def execGetVersion (request : SpdmReq) (s : State) : Host.Outcome State Fault Refusal :=
  answer s (onSpdm request (spdmVersion request))

/-- GET_CAPABILITIES (R711). -/
def execGetCapabilities (request : SpdmReq) (s : State) : Host.Outcome State Fault Refusal :=
  answer s (onSpdm request (spdmCapabilities request))

/-- NEGOTIATE_ALGORITHMS (R711). -/
def execNegotiateAlgorithms (request : SpdmReq) (s : State) : Host.Outcome State Fault Refusal :=
  answer s (onSpdm request (spdmAlgorithms request))

/-- GET_DIGESTS (R711). -/
def execGetDigests (request : SpdmReq) (s : State) : Host.Outcome State Fault Refusal :=
  answer s (onSpdm request (spdmDigests request))

/-- GET_CERTIFICATE (R711). -/
def execGetCertificate (request : SpdmReq) (s : State) : Host.Outcome State Fault Refusal :=
  answer s (onSpdm request (spdmCertificate request))

/-- CHALLENGE (R713). -/
def execChallenge (request : SpdmReq) (s : State) : Host.Outcome State Fault Refusal :=
  answer s (onSpdm request (spdmChallenge request))

/-- GET_MEASUREMENTS (R711). -/
def execGetMeasurements (request : SpdmReq) (s : State) : Host.Outcome State Fault Refusal :=
  answer s (onSpdm request (spdmMeasurements request))

/-! ### Any message (R180 to R182) -/

/-- The SPDM request in a message; every other request code is an ERROR UnsupportedRequest (R711). -/
def spdmRequest (via : MctpFrom) (bytes : List Byte) (s : State) : State :=
  let byte := fun i => BitVec.ofNat 8 (fieldAt bytes i 1)
  let m : SpdmReq :=
    { via := via, version := byte 1, param1 := byte 3, param2 := byte 4, body := bytes.drop 5 }
  match fieldAt bytes 2 1 with
  | 0x84 => spdmVersion m s
  | 0xE1 => spdmCapabilities m s
  | 0xE3 => spdmAlgorithms m s
  | 0x81 => spdmDigests m s
  | 0x82 => spdmCertificate m s
  | 0x83 => spdmChallenge m s
  | 0xE0 => spdmMeasurements m s
  | n => spdmError m spdmUnsupported n s

/-- The packets make up a message (R182): each holds at most 64 bytes, the first starts it, the last alone ends it, and
their numbers follow each other. What else than a whole message is dropped (PRESUMED, log entry 61). -/
def MctpMsg.whole (m : MctpMsg) : Bool :=
  let n := m.packets.length
  let first := (m.packets.head?.map MctpPacket.seq).getD 0
  n != 0 && m.packets.zipIdx.all fun p =>
    decide (p.1.payload.length ≤ 64) && p.1.som == (p.2 == 0) && p.1.eom == (p.2 + 1 == n) &&
      p.1.seq == first + BitVec.ofNat 2 p.2

/-- A received message by its type (R180, R182): control, SPDM or Mirpiral; every other type, a message with
the integrity-check bit and one longer than 1,024 bytes are dropped. -/
def receive (msg : MctpMsg) (s : State) : State :=
  let via : MctpFrom := { dest := msg.dest, src := msg.src, tag := msg.tag, slave := msg.slave }
  let type := fieldAt msg.bytes 0 1
  if !MctpMsg.whole msg || 1024 < msg.bytes.length || !accepts via (type == 0) s then s
  else if type = 0x00 then controlRequest via msg.bytes s
  else if type = 0x05 then spdmRequest via msg.bytes s
  else if type = 0x7F then mirArrive msg s
  else s

/-- MCTP_MESSAGE (R180 to R182). -/
def execMctpMessage (msg : MctpMsg) (s : State) : Host.Outcome State Fault Refusal :=
  answer s (onSideband (receive msg))

end Sys2Proof.Machine
end

