-- ==== Sys2Proof/Machine/Dispatch.lean ====
section
/-!
DEFINITION. The dispatcher: one arm for each command, each a direct call of its meaning.
-/

namespace Sys2Proof.Machine

open Sys2Proof

/-- The effect of a command on everything but the queue of commands. -/
def exec (i : Instr) (s : State) : Host.Outcome State Fault Refusal :=
  match i with
  | .coldPowerOn => Sys2Proof.Machine.execColdPowerOn s
  | .strapSample straps => Sys2Proof.Machine.execStrapSample straps s
  | .vddAuxLoss => Sys2Proof.Machine.execVddAuxLoss s
  | .vddCoreLoss => Sys2Proof.Machine.execVddCoreLoss s
  | .pgoodAssert => Sys2Proof.Machine.execPgoodAssert s
  | .pgoodDeassert storm => Sys2Proof.Machine.execPgoodDeassert storm s
  | .keeperRelease boot => Sys2Proof.Machine.execKeeperRelease boot s
  | .recoveryComplete => Sys2Proof.Machine.execRecoveryComplete s
  | .pwrwarnAssert => Sys2Proof.Machine.execPwrwarnAssert s
  | .pwrwarnDeassert => Sys2Proof.Machine.execPwrwarnDeassert s
  | .pwrfail storm => Sys2Proof.Machine.execPwrfail storm s
  | .stormRestart boot => Sys2Proof.Machine.execStormRestart boot s
  | .krst => Sys2Proof.Machine.execKrst s
  | .keeperResetCapture req key storm => Sys2Proof.Machine.execKeeperResetCapture req key storm s
  | .keeperResetDiscard req key => Sys2Proof.Machine.execKeeperResetDiscard req key s
  | .portReset port cause => Sys2Proof.Machine.execPortReset port cause s
  | .flr port => Sys2Proof.Machine.execFlr port s
  | .d3hotEntry port => Sys2Proof.Machine.execD3hotEntry port s
  | .lockLoss island => Sys2Proof.Machine.execLockLoss island s
  | .lockReturn island => Sys2Proof.Machine.execLockReturn island s
  | .lockTimeout island => Sys2Proof.Machine.execLockTimeout island s
  | .pinQualify pin level => Sys2Proof.Machine.execPinQualify pin level s
  | .sillFrame lane frame => Sys2Proof.Machine.execSillFrame lane frame s
  | .laneTimeout lane => Sys2Proof.Machine.execLaneTimeout lane s
  | .lineConfigWrite req line record => Sys2Proof.Machine.execLineConfigWrite req line record s
  | .laneControlWrite req lane record => Sys2Proof.Machine.execLaneControlWrite req lane record s
  | .letterboxSingleWrite port requester write => Sys2Proof.Machine.execLetterboxSingleWrite port requester write s
  | .letterboxDoubleWrite port requester write => Sys2Proof.Machine.execLetterboxDoubleWrite port requester write s
  | .intakeForward port gather => Sys2Proof.Machine.execIntakeForward port gather s
  | .stateUpdate gather => Sys2Proof.Machine.execStateUpdate gather s
  | .selection rank => Sys2Proof.Machine.execSelection rank s
  | .offer delivery => Sys2Proof.Machine.execOffer delivery s
  | .retraction delivery => Sys2Proof.Machine.execRetraction delivery s
  | .deliver tn cls => Sys2Proof.Machine.execDeliver tn cls s
  | .outboundIssue port => Sys2Proof.Machine.execOutboundIssue port s
  | .claimRead port tn cls => Sys2Proof.Machine.execClaimRead port tn cls s
  | .bankClaim bank => Sys2Proof.Machine.execBankClaim bank s
  | .claimAnswer delivery => Sys2Proof.Machine.execClaimAnswer delivery s
  | .eoi port tn cls value => Sys2Proof.Machine.execEoi port tn cls value s
  | .bankEoi bank => Sys2Proof.Machine.execBankEoi bank s
  | .thresholdWrite req tn cls value => Sys2Proof.Machine.execThresholdWrite req tn cls value s
  | .louvreWrite req tn cls value => Sys2Proof.Machine.execLouvreWrite req tn cls value s
  | .louvreExpiry tn cls => Sys2Proof.Machine.execLouvreExpiry tn cls s
  | .targetControlWrite req tn value => Sys2Proof.Machine.execTargetControlWrite req tn value s
  | .targetReset port tn value => Sys2Proof.Machine.execTargetReset port tn value s
  | .watchdogExpiry tn cls => Sys2Proof.Machine.execWatchdogExpiry tn cls s
  | .shutterClose req => Sys2Proof.Machine.execShutterClose req s
  | .shutterOpen req => Sys2Proof.Machine.execShutterOpen req s
  | .sourceMask req sn => Sys2Proof.Machine.execSourceMask req sn s
  | .sourceUnmask req sn => Sys2Proof.Machine.execSourceUnmask req sn s
  | .maskConfirmRead port => Sys2Proof.Machine.execMaskConfirmRead port s
  | .syncRead port => Sys2Proof.Machine.execSyncRead port s
  | .rcRead port window offset length => Sys2Proof.Machine.execRcRead port window offset s length
  | .mgmtEventRead port => Sys2Proof.Machine.execMgmtEventRead port s
  | .mgmtEnableWrite port value => Sys2Proof.Machine.execMgmtEnableWrite port value s
  | .mgmtVectorSend port enable funcMask => Sys2Proof.Machine.execMgmtVectorSend port s enable funcMask
  | .deadboltSet req value => Sys2Proof.Machine.execDeadboltSet req value s
  | .ignCountClr req value => Sys2Proof.Machine.execIgnCountClr req value s
  | .registerWrite port window write => Sys2Proof.Machine.execRegisterWrite port window write s
  | .hatchClaim port tag => Sys2Proof.Machine.execHatchClaim port tag s
  | .hatchRefresh port tag => Sys2Proof.Machine.execHatchRefresh port tag s
  | .hatchRelease port tag => Sys2Proof.Machine.execHatchRelease port tag s
  | .hatchRead port => Sys2Proof.Machine.execHatchRead port s
  | .hatchWrite port => Sys2Proof.Machine.execHatchWrite port s
  | .hatchReadClear port => Sys2Proof.Machine.execHatchReadClear port s
  | .hatchComplete => Sys2Proof.Machine.execHatchComplete s
  | .hatchDone port => Sys2Proof.Machine.execHatchDone port s
  | .hatchTimeout => Sys2Proof.Machine.execHatchTimeout s
  | .mctpMessage msg => Sys2Proof.Machine.execMctpMessage msg s
  | .get => Sys2Proof.Machine.execGet s
  | .set => Sys2Proof.Machine.execSet s
  | .getClear => Sys2Proof.Machine.execGetClear s
  | .describe => Sys2Proof.Machine.execDescribe s
  | .release => Sys2Proof.Machine.execRelease s
  | .sidebandHatchWaitExpiry => Sys2Proof.Machine.execSidebandHatchWaitExpiry s
  | .responseDelivered => Sys2Proof.Machine.execResponseDelivered s
  | .setEndpointId via inst eid => Sys2Proof.Machine.execSetEndpointId via inst eid s
  | .getEndpointId via inst => Sys2Proof.Machine.execGetEndpointId via inst s
  | .getEndpointUuid via inst => Sys2Proof.Machine.execGetEndpointUuid via inst s
  | .getMctpVersionSupport via inst ty => Sys2Proof.Machine.execGetMctpVersionSupport via inst ty s
  | .getMessageTypeSupport via inst => Sys2Proof.Machine.execGetMessageTypeSupport via inst s
  | .getVendorDefinedMessageSupport via inst selector => Sys2Proof.Machine.execGetVendorDefinedMessageSupport via inst selector s
  | .entdaa address => Sys2Proof.Machine.execEntdaa address s
  | .setdasa st address => Sys2Proof.Machine.execSetdasa st address s
  | .setnewda address => Sys2Proof.Machine.execSetnewda address s
  | .rstdaa => Sys2Proof.Machine.execRstdaa s
  | .rstact => Sys2Proof.Machine.execRstact s
  | .enec events => Sys2Proof.Machine.execEnec events s
  | .disec events => Sys2Proof.Machine.execDisec events s
  | .setmwl length => Sys2Proof.Machine.execSetmwl length s
  | .setmrl length => Sys2Proof.Machine.execSetmrl length s
  | .getmwl => Sys2Proof.Machine.execGetmwl s
  | .getmrl => Sys2Proof.Machine.execGetmrl s
  | .getpid => Sys2Proof.Machine.execGetpid s
  | .getbcr => Sys2Proof.Machine.execGetbcr s
  | .getdcr => Sys2Proof.Machine.execGetdcr s
  | .getstatus => Sys2Proof.Machine.execGetstatus s
  | .getmxds => Sys2Proof.Machine.execGetmxds s
  | .hotJoin => Sys2Proof.Machine.execHotJoin s
  | .smbclkTimeout => Sys2Proof.Machine.execSmbclkTimeout s
  | .smbusRetry packet => Sys2Proof.Machine.execSmbusRetry s packet
  | .vddioLoss => Sys2Proof.Machine.execVddioLoss s
  | .getVersion request => Sys2Proof.Machine.execGetVersion request s
  | .getCapabilities request => Sys2Proof.Machine.execGetCapabilities request s
  | .negotiateAlgorithms request => Sys2Proof.Machine.execNegotiateAlgorithms request s
  | .getDigests request => Sys2Proof.Machine.execGetDigests request s
  | .getCertificate request => Sys2Proof.Machine.execGetCertificate request s
  | .challenge request => Sys2Proof.Machine.execChallenge request s
  | .getMeasurements request => Sys2Proof.Machine.execGetMeasurements request s
  | .imageStageData req data => Sys2Proof.Machine.execImageStageData req data s
  | .imageVerify req => Sys2Proof.Machine.execImageVerify req s
  | .imageApply req => Sys2Proof.Machine.execImageApply req s
  | .imageApplyEnd => Sys2Proof.Machine.execImageApplyEnd s
  | .imageDiscard req => Sys2Proof.Machine.execImageDiscard req s
  | .imageStageTimeout => Sys2Proof.Machine.execImageStageTimeout s
  | .sourceConfigWrite req sn record => Sys2Proof.Machine.execSourceConfigWrite req sn record s
  | .raise req sn => Sys2Proof.Machine.execRaise req sn s
  | .withdraw req sn => Sys2Proof.Machine.execWithdraw req sn s
  | .targetRoomWrite req tn room => Sys2Proof.Machine.execTargetRoomWrite req tn room s
  | .roomReachWrite req room mask => Sys2Proof.Machine.execRoomReachWrite req room mask s
  | .queueProdWrite port q value => Sys2Proof.Machine.execQueueProdWrite port q value s
  | .pollTick q => Sys2Proof.Machine.execPollTick q s
  | .ringFetchComplete q slot result => Sys2Proof.Machine.execRingFetchComplete q slot result s
  | .engineServe island => Sys2Proof.Machine.execEngineServe island s
  | .completionWrite q => Sys2Proof.Machine.execCompletionWrite q s
  | .queueEnable req q evtIdle => Sys2Proof.Machine.execQueueEnable req q evtIdle s
  | .queueDisable req q evtIdle => Sys2Proof.Machine.execQueueDisable req q evtIdle s
  | .queueConfigWrite req q value => Sys2Proof.Machine.execQueueConfigWrite req q value s
  | .invalidate port q => Sys2Proof.Machine.execInvalidate port q s
  | .resume port q => Sys2Proof.Machine.execResume port q s
  | .retract port q => Sys2Proof.Machine.execRetract port q s
  | .zeroIndex port q => Sys2Proof.Machine.execZeroIndex port q s
  | .entryWindowCommit port q value => Sys2Proof.Machine.execEntryWindowCommit port q value s
  | .entryWindowSnapshot port q => Sys2Proof.Machine.execEntryWindowSnapshot port q s
  | .ipiMulticast q => Sys2Proof.Machine.execIpiMulticast q s
  | .routeBatch q => Sys2Proof.Machine.execRouteBatch q s
  | .swing q => Sys2Proof.Machine.execSwing q s
  | .swingCommit => Sys2Proof.Machine.execSwingCommit s
  | .swingFoldEnd => Sys2Proof.Machine.execSwingFoldEnd s
  | .timerArm q => Sys2Proof.Machine.execTimerArm q s
  | .timerCancel q => Sys2Proof.Machine.execTimerCancel q s
  | .timerExpiry timer => Sys2Proof.Machine.execTimerExpiry timer s
  | .ledgerAppend q => Sys2Proof.Machine.execLedgerAppend q s
  | .fence q => Sys2Proof.Machine.execFence q s
  | .hostStore q => Sys2Proof.Machine.execHostStore q s
  | .checkpoint q => Sys2Proof.Machine.execCheckpoint q s
  | .roomReassign q => Sys2Proof.Machine.execRoomReassign q s
  | .xlateInvalidate q => Sys2Proof.Machine.execXlateInvalidate q s
  | .hostReadComplete q result => Sys2Proof.Machine.execHostReadComplete q result s
  | .hostReadTimeout read => Sys2Proof.Machine.execHostReadTimeout read s
  | .walkReadComplete island walk result => Sys2Proof.Machine.execWalkReadComplete island walk result s
  | .xlateInv port value => Sys2Proof.Machine.execXlateInv port value s
  | .invalidateRange req record => Sys2Proof.Machine.execInvalidateRange req record s
  | .invalidationFence => Sys2Proof.Machine.execInvalidationFence s
  | .flConsume req value => Sys2Proof.Machine.execFlConsume req value s
  | .bar4Write port write => Sys2Proof.Machine.execBar4Write port write s
  | .bar4Read port offset length => Sys2Proof.Machine.execBar4Read port offset length s
  | .ledgerFenceRead port => Sys2Proof.Machine.execLedgerFenceRead port s
  | .piecePersist island => Sys2Proof.Machine.execPiecePersist island s
  | .ledgerCopy island => Sys2Proof.Machine.execLedgerCopy island s
  | .pageMove island logical physical => Sys2Proof.Machine.execPageMove island logical physical s
  | .pageRetire island logical physical => Sys2Proof.Machine.execPageRetire island logical physical s
  | .mirrorWrite channel line check => Sys2Proof.Machine.execMirrorWrite channel line s check
  | .dirtyBudgetWrite req value => Sys2Proof.Machine.execDirtyBudgetWrite req value s
  | .autoCheckpoint => Sys2Proof.Machine.execAutoCheckpoint s
  | .cutToken island => Sys2Proof.Machine.execCutToken island s
  | .rootCommit => Sys2Proof.Machine.execRootCommit s
  | .mirrorDisable req => Sys2Proof.Machine.execMirrorDisable req s
  | .mirrorEnable req => Sys2Proof.Machine.execMirrorEnable req s
  | .ceilingWrite req value => Sys2Proof.Machine.execCeilingWrite req value s
  | .islandDoze island => Sys2Proof.Machine.execIslandDoze island s
  | .islandRetain island => Sys2Proof.Machine.execIslandRetain island s
  | .islandWake island => Sys2Proof.Machine.execIslandWake island s
  | .newNonce req => Sys2Proof.Machine.execNewNonce req s
  | .setState req arg => Sys2Proof.Machine.execSetState req arg s
  | .debug req arg => Sys2Proof.Machine.execDebug req arg s
  | .authNone req => Sys2Proof.Machine.execAuthNone req s
  | .nonceExpiry req => Sys2Proof.Machine.execNonceExpiry req s
  | .tamper temperature => Sys2Proof.Machine.execTamper temperature s
  | .zeroizeDone => Sys2Proof.Machine.execZeroizeDone s
  | .hydapAccess dr => Sys2Proof.Machine.execHydapAccess dr s
  | .peek => Sys2Proof.Machine.execPeek s
  | .halt => Sys2Proof.Machine.execHalt s
  | .dapRelease => Sys2Proof.Machine.execDapRelease s
  | .scanEnter => Sys2Proof.Machine.execScanEnter s
  | .scanExit => Sys2Proof.Machine.execScanExit s
  | .extest => Sys2Proof.Machine.execExtest s
  | .extestPulse => Sys2Proof.Machine.execExtestPulse s
  | .extestTrain => Sys2Proof.Machine.execExtestTrain s
  | .samplePreload => Sys2Proof.Machine.execSamplePreload s
  | .idcode => Sys2Proof.Machine.execIdcode s
  | .bypass => Sys2Proof.Machine.execBypass s
  | .hydap => Sys2Proof.Machine.execHydap s
  | .hyscan => Sys2Proof.Machine.execHyscan s
  | .intxMessage port assert => Sys2Proof.Machine.execIntxMessage port assert s
  | .bootRomVerify isMatch => Sys2Proof.Machine.execBootRomVerify isMatch s
  | .transitionRecord => Sys2Proof.Machine.execTransitionRecord s
  | .busMasterEnableWrite port value => Sys2Proof.Machine.execBusMasterEnableWrite port value s
  | .d3hotExit port => Sys2Proof.Machine.execD3hotExit port s
  | .perstDeassert port => Sys2Proof.Machine.execPerstDeassert port s
  | .linkUp port => Sys2Proof.Machine.execLinkUp port s
  | .creditWaitOver port => Sys2Proof.Machine.execCreditWaitOver port s
  | .tjExcursion outside => Sys2Proof.Machine.execTjExcursion outside s
  | .holdupLow low => Sys2Proof.Machine.execHoldupLow low s

end Sys2Proof.Machine
end

