-- ==== Sys2Proof/WellFormed.lean ====
section
/-!
DEFINITION. Which terms of Instr are commands that the surroundings can give: operands inside the shapes that
the manual states. The meanings are total: none of them relies on this.
-/

namespace Sys2Proof

/-- How many islands each type has (Table PG-1). -/
def islandCount : IslandKind → Nat
  | .gather => 64
  | .storeBank => 32
  | .rank => 16
  | .delivery => 64
  | .queue => 16
  | .translation => 4
  | .mirror => 8
  | .ledger => 4
  | .link => 2
  | .management => 1
  | .keeper => 1

/-- The island exists (Table PG-1). -/
def islandOk (i : Island) : Bool := decide (i.idx < islandCount i.kind)

/-- A posted write has an enable for each of its bytes, and at least one byte. -/
def writeOk (w : HostWrite) : Bool :=
  w.data.length == w.enables.length && !w.data.isEmpty && decide (w.data.length ≤ 4096)

/-- A read's data is at least one byte. -/
def readOk : HostRead → Bool
  | .data bytes => !bytes.isEmpty
  | .unsupportedRequest | .completerAbort | .poisoned => true

/-- A ring slot of a timed-out fetch lies within the largest ring (R403). -/
def timeoutOk : HostReadId → Bool
  | .ringFetch _ slot => decide (slot < 65536)
  | .itemRead _ | .walkRead _ _ => true

/-- A frame's next sync, if it was found, stands after its own (WS.4). -/
def frameOk (f : SillFrame) : Bool := f.nextSync.all fun n => decide (0 < n)

/-- Lines of the durable region: 32 banks of 16,384 (R595). -/
def linesOk (ls : List Nat) : Bool := ls.all fun l => decide (l < 32 * 16384)

/-- A Storm's lines exist. -/
def stormOk (s : StormInput) : Bool := linesOk s.failed

/-- What a Keeper release finds names lines that exist. -/
def bootOk (b : BootInput) : Bool := linesOk (b.errors.map WordError.line)

/-- A command is well-formed. -/
def Instr.wf : Instr → Bool
  | .pgoodDeassert storm => stormOk storm
  | .keeperRelease boot => bootOk boot
  | .pwrfail storm => stormOk storm
  | .stormRestart boot => bootOk boot
  | .keeperResetCapture _ _ storm => stormOk storm
  | .lockLoss island => islandOk island
  | .lockReturn island => islandOk island
  | .lockTimeout island => islandOk island
  | .sillFrame _ frame => frameOk frame
  | .lineConfigWrite _ _ record => record.length == 4
  | .laneControlWrite _ _ record => record.length == 8
  | .letterboxSingleWrite _ _ write => writeOk write
  | .letterboxDoubleWrite _ _ write => writeOk write
  | .rcRead _ _ _ length => decide (1 ≤ length) && decide (length ≤ 64)
  | .registerWrite _ _ write => writeOk write
  | .mctpMessage msg => !msg.bytes.isEmpty
  | .imageStageData _ data => data.length == 64
  | .sourceConfigWrite _ _ record => record.length == 8
  | .ringFetchComplete _ slot result => decide (slot < 65536) && readOk result
  | .hostReadComplete _ result => readOk result
  | .hostReadTimeout read => timeoutOk read
  | .walkReadComplete _ _ result => readOk result
  | .invalidateRange _ record => record.length == 12
  | .bar4Write _ write => writeOk write
  | .bar4Read _ _ length => decide (1 ≤ length) && decide (length ≤ 4096)
  | .mirrorWrite _ line _ => decide (line < 32 * 16384)
  | .cutToken island => islandOk island
  | .islandDoze island => islandOk island
  | .islandRetain island => islandOk island
  | .islandWake island => islandOk island
  | .coldPowerOn | .strapSample _ | .vddAuxLoss | .vddCoreLoss | .pgoodAssert
  | .recoveryComplete | .pwrwarnAssert | .pwrwarnDeassert | .krst | .keeperResetDiscard _ _
  | .portReset _ _ | .flr _ | .d3hotEntry _ | .pinQualify _ _ | .laneTimeout _
  | .intakeForward _ _ | .stateUpdate _ | .selection _ | .offer _ | .retraction _
  | .deliver _ _ | .outboundIssue _ | .claimRead _ _ _ | .bankClaim _ | .claimAnswer _
  | .eoi _ _ _ _ | .bankEoi _ | .thresholdWrite _ _ _ _ | .louvreWrite _ _ _ _
  | .louvreExpiry _ _ | .targetControlWrite _ _ _ | .targetReset _ _ _ | .watchdogExpiry _ _
  | .shutterClose _ | .shutterOpen _ | .sourceMask _ _ | .sourceUnmask _ _ | .maskConfirmRead _
  | .syncRead _ | .mgmtEventRead _ | .mgmtEnableWrite _ _ | .mgmtVectorSend _ _ _
  | .deadboltSet _ _ | .ignCountClr _ _ | .hatchClaim _ _ | .hatchRefresh _ _
  | .hatchRelease _ _ | .hatchRead _ | .hatchWrite _ | .hatchReadClear _ | .hatchComplete
  | .hatchDone _ | .hatchTimeout | .get | .set | .getClear | .describe | .release
  | .sidebandHatchWaitExpiry | .responseDelivered | .setEndpointId _ _ _ | .getEndpointId _ _
  | .getEndpointUuid _ _ | .getMctpVersionSupport _ _ _ | .getMessageTypeSupport _ _
  | .getVendorDefinedMessageSupport _ _ _ | .entdaa _ | .setdasa _ _ | .setnewda _ | .rstdaa
  | .rstact | .enec _ | .disec _ | .setmwl _ | .setmrl _ | .getmwl | .getmrl | .getpid
  | .getbcr | .getdcr | .getstatus | .getmxds | .hotJoin | .smbclkTimeout | .smbusRetry _
  | .vddioLoss | .getVersion _ | .getCapabilities _ | .negotiateAlgorithms _ | .getDigests _
  | .getCertificate _ | .challenge _ | .getMeasurements _ | .imageVerify _ | .imageApply _
  | .imageApplyEnd | .imageDiscard _ | .imageStageTimeout | .raise _ _ | .withdraw _ _
  | .targetRoomWrite _ _ _ | .roomReachWrite _ _ _ | .queueProdWrite _ _ _ | .pollTick _
  | .engineServe _ | .completionWrite _ | .queueEnable _ _ _ | .queueDisable _ _ _
  | .queueConfigWrite _ _ _ | .invalidate _ _ | .resume _ _ | .retract _ _ | .zeroIndex _ _
  | .entryWindowCommit _ _ _ | .entryWindowSnapshot _ _ | .ipiMulticast _ | .routeBatch _
  | .swing _ | .swingCommit | .swingFoldEnd | .timerArm _ | .timerCancel _ | .timerExpiry _
  | .ledgerAppend _ | .fence _ | .hostStore _ | .checkpoint _ | .roomReassign _
  | .xlateInvalidate _ | .xlateInv _ _ | .invalidationFence | .flConsume _ _
  | .ledgerFenceRead _ | .piecePersist _ | .ledgerCopy _ | .pageMove _ _ _ | .pageRetire _ _ _
  | .dirtyBudgetWrite _ _ | .autoCheckpoint | .rootCommit | .mirrorDisable _ | .mirrorEnable _
  | .ceilingWrite _ _ | .newNonce _ | .setState _ _ | .debug _ _ | .authNone _ | .nonceExpiry _
  | .tamper _ | .zeroizeDone | .hydapAccess _ | .peek | .halt | .dapRelease | .scanEnter
  | .scanExit | .extest | .extestPulse | .extestTrain | .samplePreload | .idcode | .bypass
  | .hydap | .hyscan | .intxMessage _ _ | .bootRomVerify _ | .transitionRecord
  | .busMasterEnableWrite _ _ | .d3hotExit _ | .perstDeassert _ | .linkUp _ | .creditWaitOver _
  | .tjExcursion _ | .holdupLow _ => true

end Sys2Proof
end

