-- ==== Sys2Proof/Safety.lean ====
section
/-!
DEFINITION. What counts as a safe run and when a command finds its islands ready, in the terms the statements
use: a step that goes on, a queue of well-formed commands, memories in canonical form, islands that can complete
a handshake, a register access that reaches its register, and the rules of the whole machine.
-/

namespace Sys2Proof.Machine

open Sys2Proof

/-- A step goes on: neither a fault nor a refusal. -/
def goesOn (s : State) : Prop := ∃ t, step s = .next t

/-- Every command that waits is well-formed. -/
def queueWf (s : State) : Bool := s.pending.all Instr.wf

/-- The three byte memories are in canonical form. -/
def memoriesWf (s : State) : Bool :=
  Memory.wf s.ledger.mem && Memory.wf s.dur.ring && Memory.wf s.image.buffer

/-- Every byte of the three memories reads in `t` as it does in `s`. -/
def memoriesSame (s t : State) : Prop :=
  ∀ a, Memory.read t.ledger.mem a = Memory.read s.ledger.mem a ∧
    Memory.read t.dur.ring a = Memory.read s.dur.ring a ∧
    Memory.read t.image.buffer a = Memory.read s.image.buffer a

/-- The islands can complete a handshake at once: the core runs, their clocks hold lock, none of them is halted or
sleeps, and no cut token travels (R44, R81, R615, R670, R743). -/
def islandsReady (s : State) (ids : List Nat) : Bool :=
  s.running && s.durab.ckpt.isNone && ids.all fun i => s.clocked i && (s.island i).level == .awake

/-- The islands of `ids`, and with them nothing else, are busy now (R660). -/
def busyAll (s : State) (ids : List Nat) : State := ids.foldl State.busy s

/-- A register access on a port reaches its register: the link is up and its island has its clock, the controller is
ready, no earlier posted write of the port waits for its island, and the islands that own the register can answer
(CN.3.1, R44, R93, R100, R665, R666). -/
def accessOpen (s : State) (p : Port) (ids : List Nat) : Bool :=
  s.powered && (s.port p).linkUp && !s.keeper.bootFail && s.keeper.rdy && s.durab.ckpt.isNone &&
    (s.held.all fun x => x.1 != p.req || !x.2.isPosted) && mget 0 s.power.lockLost (idLink p) == 0 &&
    ids.all fun i => s.clocked i && (s.island i).level == .awake

/-- A read of a register in BAR0 is answered at once: the access is open, and no Letterbox write of the port to one of
the pages still waits for its bank (R93, R94). -/
def readOpen (s : State) (p : Port) (ids pages : List Nat) : Bool :=
  accessOpen s p ids && !letterboxPending s p pages

/-- A register write on a port reaches its register: the access is open, the port's staging buffer has room, so that no
posted write waits (R286), and no BAR4 write stands before it in the port's posted path (LG.11). -/
def postedOpen (s : State) (p : Port) (ids : List Nat) : Bool :=
  accessOpen s p ids && !stagingFull s p && s.ledger.stream.all fun x => x.port != p || x.append.isSome

/-- A requester's dictionary write is taken at once: the Management island serves, the requester reaches it, the
controller is ready, and the islands of the object can answer (DS.3, R44, R169, SD.3.1). -/
def dictOpen (s : State) (r : Req) (ids : List Nat) : Bool :=
  mgmtServes s && reqReaches s r && s.keeper.rdy && s.durab.ckpt.isNone &&
    (s.island idManagement).level == .awake && ids.all fun i => s.clocked i && (s.island i).level == .awake

/-- A requester's write of a register or of its object is taken at once: a link's reaches the islands `reg` that own
the register, the sideband's the islands `obj` of the object (R166). -/
def writeOpen (s : State) (r : Req) (reg obj : List Nat) : Bool :=
  match r with
  | .linkA => postedOpen s .a reg
  | .linkB => postedOpen s .b reg
  | .sideband => dictOpen s .sideband obj

/-- A state as a command finds it: nothing put out yet. -/
def cleared (s : State) : State := { s with out := [] }

/-- The state in which a command has its effect once the islands that it needs are busy. -/
def begun (s : State) (ids : List Nat) : State := busyAll (cleared s) ids

/-- No bank stands at its quota of dirty lines (R603). -/
def roomToDirty (s : State) : Prop := ∀ l, throttled s l = false

/-- Nothing waits that a command could let go on: no access and no fault record is held, no piece stands in a port's
stream and no read of BAR4 waits (R44, R82, R568, R603). -/
def nothingWaits (s : State) : Prop :=
  s.held = [] ∧ s.xlate.heldFaults = [] ∧ s.ledger.stream = [] ∧ s.ledger.reads = []

/-- A bank has room in the Notify channel of every Rank island (R44, Table IH-2). -/
def notifyRoom (s : State) (bank : Nat) : Prop := ∀ r < 16, notifyUsed s bank r ≤ 29

/-- The oldest request of a Gather island is granted and applied by the next STATE_UPDATE: no earlier request of the
island waits at a bank, its Update port is empty and grants it next, and no request for the same record goes before it
(R57, R59). -/
def appliedNext (s : State) (g : Nat) (x : Sent Event) : Prop :=
  portOf s g = some (updatePort g x.body.sn) ∧ mget [] s.fabric.updateQ (updatePort g x.body.sn) = [] ∧
    nextGranted s (updatePort g x.body.sn) = some g ∧ claimHead s (bankOf x.body.sn) ≠ some x.body.sn ∧
    (updatePort g x.body.sn % 2 = 1 → updateHead s (updatePort g x.body.sn - 1) ≠ some x.body.sn)

/-- The state in which a bank applies the oldest request of a Gather island: the Update port has granted it, what its
sender held for the island has followed, and the request has left the port's FIFO. -/
def granted (s : State) (g : Nat) (x : Sent Event) : State :=
  let key := updatePort g x.body.sn
  (grantOne key (begun s [idGather g, idBank (bankOf x.body.sn)])).modFabric fun f =>
    { f with updateQ := mput [] key [] f.updateQ }

/-- What the host sees of a command's effect `t` on `s`: the queue of commands is the step's alone, and an output for
a link that is down is discarded (CN.9). -/
def answered (s t : State) : State := { t with pending := s.pending, out := t.out.filter (Output.reaches s) }

/-- The state in which a write that is taken at once has its effect: its islands are busy now. -/
def written (s : State) (r : Req) (reg obj : List Nat) : State :=
  busyAll (cleared s) (if r = .sideband then obj else reg)

/-- A link reaches the page or block of an object of a Room; the sideband always does (R160, R348, R400). -/
def linkMay (s : State) (r : Req) (room : Nat) : Bool :=
  match r with
  | .linkA => s.linkReaches .a room
  | .linkB => s.linkReaches .b room
  | .sideband => true

/-- The bytes of a value as the object's write gets them: a link's from the `width` bits of the register, the
sideband's from the object's length. -/
def valueBytes (r : Req) (o : Obj) (width v : Nat) : List Byte :=
  if r = .sideband then bytesAt (leBytes o.desc.len v) 0 o.desc.len
  else leBytes (max 4 o.desc.len) (v % 2 ^ width)

/-- The Keeper's store is out of Provisioning for good: its security state is another one, and no transition into
Provisioning is being recorded (R690). -/
def NvStore.left (n : NvStore) : Prop :=
  n.sec ≠ .provisioning ∧ ∀ r target cold, n.recording = some (r, target, cold) → target ≠ .provisioning

/-- The engine can issue the next step of an item of a kind (R427, R428, R431): its islands are ready, no bank stands at
its quota, its queue is the one that the engine serves, and the step is that item's. -/
def serves (s : State) (q kind : Nat) (it : Item) : Prop :=
  islandsReady s (stepIslands s q it) = true ∧ roomToDirty s ∧ servedQueue s (q / 16) = some q ∧
    nextStep s q = some it ∧ it.kind = kind

/-- An item as its step finds it: at the first step its quantities are clamped (R461). -/
def Item.begun (it : Item) : Item := if it.step = 0 then it.started else it

/-- The state in which an item's step has its effect. -/
def itemBegun (s : State) (q : Nat) (it : Item) : State :=
  if it.step = 0 then (begun s (stepIslands s q it)).modItem q it.slot fun _ => it.started
  else begun s (stepIslands s q it)

/-- The step that an item is served with is a step of its kind (Table WI-1): not the end of a read, nor a step that
waited for its port; and its entry passes every check at its first step, at which no power failure has ended it (R459,
Table WI-14). -/
def stepsOn (s : State) (q kind : Nat) (it : Item) : Prop :=
  serves s q kind it ∧ it.wait ≠ .port ∧ (∀ bytes, it.wait ≠ .arrived bytes) ∧
    (it.step = 0 → entryCheck s q it = none ∧ (it.recovered = true → lostProgress it.started = none))

/-- The Management island serves the sideband: it is released and clocked, VDDIO is in range, and the state is not
P3 (R197, R714). -/
def sbServes (s : State) : Bool := mgmtServes s && reqReaches s .sideband

/-- The state in which what arrives over the sideband has its effect: the Management island is awake and busy. -/
def sbBegun (s : State) : State := ((cleared s).wakeUp idManagement).busy idManagement

/-- A response to an MCTP request: back to its sender, with the request's tag (R191). -/
def replyTo (m : MctpFrom) (bytes : List Byte) : Response :=
  { dest := m.src, src := m.dest, tag := m.tag, slave := m.slave, bytes := bytes, mirpiral := false, keep := false }

/-- A Storm sequence has ended (R612, R613, R630, R632, R643): P4 and RDY 0, nothing of the core's volatile state
left, the links down; the mirror MRAM holds what it held, or with MirrorEnable 1 a KIND 1 root over the next epoch as
far as power lasted. -/
def StormEnded (i : StormInput) (s t : State) : Prop :=
  t.keeper.pstate = .p4 ∧ t.keeper.rdy = false ∧ t.keeper.vddCore = (i.ending == .complete) ∧
    t.keeper.stormEndAt = (if i.ending = .complete then some t.now else none) ∧
    t.dur = .initial ∧ t.fabric = .initial ∧ t.hatch = .initial ∧ t.portA.linkUp = false ∧ t.portB.linkUp = false ∧
    t.nv.sec = s.nv.sec ∧ t.nv.ownerKey = s.nv.ownerKey ∧ t.ledger.mem = s.ledger.mem ∧ t.pending = s.pending ∧
    (s.dur.g.mirrorEnable = false ∨ s.keeper.scan = true → t.mram = s.mram) ∧
    (s.dur.g.mirrorEnable = true → s.keeper.scan = false →
      ∃ (m : Mram) (head : RootHead) (map : SlotMap) (lost retired : List Nat),
      m.a0 = s.mram.a0 ∧ m.a1 = s.mram.a1 ∧ m.b0 = s.mram.b0 ∧ m.b1 = s.mram.b1 ∧ m.base = s.mram.base ∧
      head.kind = .storm ∧ head.epoch = s.dur.g.epoch + 1 ∧ head.prevEpoch = s.dur.g.lastRootEpoch ∧
      head.captureUs = i.captureUs % 2 ^ 32 ∧ map.context = !s.durab.current.context ∧
      t.mram = m.writeBoth (Place.of head map lost retired) i.ending)

/-- The Keeper has released the core into P5 (R635, R644, R776, R782): the cause of the reset is recorded, RDY is 0,
and the durable state is a root's or the first boot's. -/
def Released (b : BootInput) (s t : State) : Prop :=
  t.keeper.pstate = .p5 ∧ t.keeper.rdy = false ∧ t.keeper.vddCore = true ∧ t.keeper.restoring = true ∧
    t.keeper.pendingReset = none ∧ t.keeper.stormEndAt = none ∧
    t.keeper.resetCause.cause = s.keeper.pendingReset.getD s.keeper.nextCause ∧
    t.keeper.holdupLow = decide (b.vholdMv < 5000) ∧
    t.portA.ready = !s.portA.perst ∧ t.portB.ready = !s.portB.perst ∧ t.pending = s.pending ∧
    match (chooseRoot b t.mram).root with
    | none => t.dur = .initial ∧ t.keeper.restoreKind = .mirrorStart
    | some p => t.dur.g.epoch = p.head.epoch ∧ t.keeper.restoreKind = .recovery ∧
        ∀ q, q < 256 → (t.qvol q).state = .disabled

/-- A Keeper reset of MODE DISCARD has stopped the core (R765, R766, R768, R769, Table CN-5): P4, RDY 0, its cause for
the next release, DB_ROOM0 and DB_SILLCRC cleared, the links down, the durable state gone; the mirror MRAM, the security
state, the owner's key and every byte of the Ledger are as they were. -/
def Discarded (cause : Nat) (s t : State) : Prop :=
  t.keeper.pstate = .p4 ∧ t.keeper.rdy = false ∧ t.keeper.nextCause = cause ∧
    t.keeper.deadbolts = s.keeper.deadbolts &&& 0b10110 ∧ t.portA.linkUp = false ∧ t.portB.linkUp = false ∧
    t.dur = .initial ∧ t.mram = s.mram ∧ t.nv.sec = s.nv.sec ∧ t.nv.ownerKey = s.nv.ownerKey ∧
    t.ledger.mem = s.ledger.mem ∧ t.pending = s.pending

/-- A port has been reset (R148, R770, R834, Table BU-2): the conduct copies of its requester, its registers and its
authorization objects are at their reset values, but for the log of the abort that takes the Hatch from it; the other
port's link, the Keeper, its store, the mirror MRAM and every byte of the Ledger are as they were. -/
def PortWasReset (p : Port) (s t : State) : Prop :=
  (s.hatch.owner ≠ some p.req → t.conduct.get p.req = .initial) ∧
    (s.hatch.owner = some p.req → t.conduct.get p.req = { Conduct.initial with
      status := 4
      abortLog := { valid := true, former := ownerCode (some p.req), opcode := s.hatch.opcode,
                    applied := hatchApplied s.hatch, cause := 1 } }) ∧
  (t.port p).busMaster = false ∧ (t.port p).d3hot = false ∧ (t.port p).msixMasked = true ∧
    (t.port p).msixAddr = 0 ∧ (t.port p).msixData = 0 ∧ (t.port p).pba = false ∧ (t.port p).mgmtEnable = 0 ∧
    (t.port p).maskValid = false ∧ (t.port p.other).linkUp = (s.port p.other).linkUp ∧
    (t.port p.other).busMaster = (s.port p.other).busMaster ∧ t.auth.get p.req = .initial ∧
    (s.hatch.owner = some p.req → t.hatch.owner = none) ∧ (s.hatch.owner ≠ some p.req → t.hatch = s.hatch) ∧
    t.keeper = s.keeper ∧ t.nv = s.nv ∧ t.mram = s.mram ∧ t.ledger.mem = s.ledger.mem ∧ t.pending = s.pending

end Sys2Proof.Machine

namespace Sys2Proof

/-- The quiet commands with which an access that waits for an island, a clock or a bank's quota may go on (R44, R82,
R93, R603), or a port's stream of Ledger pieces (R743). -/
def Instr.resumes : Instr → Bool
  | .stateUpdate _ | .outboundIssue _ | .mirrorWrite _ _ _ | .rootCommit | .dapRelease => true
  | _ => false

/-- The commands that reach neither a dictionary write, a Ledger stream, a Storm sequence nor a loss of power, nor stop a
core that has lost a clock. -/
def Instr.quiet : Instr → Bool
  | .strapSample _ | .pgoodAssert | .recoveryComplete | .pwrwarnAssert | .pwrwarnDeassert | .portReset _ _ | .flr _
  | .d3hotEntry _ | .lockLoss _ | .pinQualify _ _ | .sillFrame _ _
  | .laneTimeout _ | .letterboxSingleWrite _ _ _ | .letterboxDoubleWrite _ _ _ | .intakeForward _ _
  | .stateUpdate _ | .selection _ | .offer _ | .retraction _ | .deliver _ _ | .outboundIssue _ | .claimRead _ _ _
  | .bankClaim _ | .claimAnswer _ | .eoi _ _ _ _ | .bankEoi _ | .louvreExpiry _ _ | .watchdogExpiry _ _
  | .mgmtVectorSend _ _ _ | .hatchTimeout | .mctpMessage _ | .describe | .release | .sidebandHatchWaitExpiry
  | .responseDelivered | .setEndpointId _ _ _ | .getEndpointId _ _ | .getEndpointUuid _ _
  | .getMctpVersionSupport _ _ _ | .getMessageTypeSupport _ _ | .getVendorDefinedMessageSupport _ _ _ | .entdaa _
  | .setdasa _ _ | .setnewda _ | .rstdaa | .rstact | .enec _ | .disec _ | .setmwl _ | .setmrl _ | .getmwl | .getmrl
  | .getpid | .getbcr | .getdcr | .getstatus | .getmxds | .hotJoin | .smbclkTimeout | .smbusRetry _ | .vddioLoss
  | .getVersion _ | .getCapabilities _ | .negotiateAlgorithms _ | .getDigests _ | .getCertificate _ | .challenge _
  | .getMeasurements _ | .imageStageTimeout | .pollTick _ | .ringFetchComplete _ _ _
  | .completionWrite _ | .swingCommit | .swingFoldEnd | .timerExpiry _ | .hostReadComplete _ _ | .hostReadTimeout _
  | .walkReadComplete _ _ _ | .invalidationFence | .ledgerCopy _ | .pageMove _ _ _ | .pageRetire _ _ _
  | .mirrorWrite _ _ _ | .autoCheckpoint | .cutToken _ | .rootCommit | .islandDoze _ | .islandRetain _
  | .islandWake _ | .nonceExpiry _ | .peek | .halt | .dapRelease | .scanEnter | .extest | .extestPulse
  | .extestTrain | .samplePreload | .idcode | .bypass | .hydap | .hyscan | .intxMessage _ _ | .bootRomVerify _
  | .busMasterEnableWrite _ _ | .d3hotExit _ | .perstDeassert _ | .linkUp _ | .creditWaitOver _ | .tjExcursion _
  | .holdupLow _ => true
  | _ => false

end Sys2Proof
end

