-- ==== Sys2Proof/Certificates/Slice0/Obligations.lean ====
section
/-!
DEFINITION. The statements for the provers, each one a claim about the controller that rules of the manual make
or that follows from several; where one rests on a choice of the model its text names the log entry.
-/

open Sys2Proof Sys2Proof.Machine

/-! ### The step, the queue of commands and reset -/

/-- The step takes the command at the front of the queue and runs it with the queue's rest. With no command waiting
the step takes one nanosecond of time and puts nothing out, where nothing else waits to go on (the model's choice, log
entry 2). -/
def Obligations.StepRunsTheFrontCommand : Prop :=
  (∀ (c : Instr) (rest : List Instr) (s : State),
     step { s with pending := c :: rest } = exec c { s with pending := rest }) ∧
  (∀ s : State, s.pending = [] → nothingWaits s → s.image.state ≠ .applying →
     ∃ t, step s = .next t ∧ t.now = s.now + 1 ∧ t.pending = [] ∧ t.out = [] ∧
     t.dur = s.dur ∧ t.nv = s.nv ∧ t.keeper = s.keeper ∧ t.ledger = s.ledger ∧ t.mram = s.mram ∧ t.fabric = s.fabric)

/-- Every command completes in every state: it answers a next state, never a fault or a refusal, and leaves the queue
of commands to the step (the model's choice, log entry 1). -/
def Obligations.EveryCommandCompletes : Prop :=
  ∀ (c : Instr) (s : State), ∃ t, exec c s = .next t ∧ t.pending = s.pending

/-- The reset state holds the values that the manual gives: not ready, no Deadbolt set, Provisioning, the first-boot
values of the durable settings and of an unlisted source, target and queue, no owner of the Hatch, 1,000 ms of
HATCH_TIMEOUT, TamperAction 1, SealedSidebandRooms 0x0001, the Shutter closed. The reset state meets the invariants
that every step keeps: its byte memories are in canonical form, and its queue of commands is empty. -/
def Obligations.ResetStateIsAsGiven : Prop :=
  (let s := State.reset
   s.keeper.rdy = false ∧ s.keeper.deadbolts = 0 ∧ s.nv.sec = .provisioning ∧ s.nv.tamperAction = 1 ∧
     s.nv.tamperEnable = 0 ∧ s.nv.sealedRooms = 1 ∧ s.dur.g.mirrorEnable = true ∧ s.dur.g.dirtyBudget = 6 ∧
     s.dur.g.autoCheckpoint = 1000 ∧ s.hatch.owner = none ∧ s.hatch.timeout = 1000 ∧ s.fabric.shutter = true ∧
     (∀ sn, (s.src sn).state = .idle ∧ (s.src sn).priority = 128 ∧ (s.src sn).mask = false) ∧
     (∀ tn c, (s.tgt tn).threshold c = 0 ∧ (s.tgt tn).louvre c = 0 ∧ (s.tgt tn).enable = false) ∧
     (∀ q, (s.qvol q).state = .disabled ∧ (s.queue q).prod = 0 ∧ (s.queue q).cons = 0 ∧ (s.queue q).interval = 125) ∧
     (∀ m, s.reach m = BitVec.ofNat 16 (2 ^ m))) ∧
  (memoriesWf State.reset = true ∧ State.reset.pending = [] ∧ queueWf State.reset = true)

/-- Every step keeps the Ledger and the staging buffer of configuration images in canonical form: addresses strictly
rise, and no listed byte is the one that an unlisted address reads as. -/
def Obligations.StoresStayCanonical : Prop :=
  ∀ s t : State, step s = .next t → Memory.wf s.ledger.mem = true → Memory.wf s.image.buffer = true →
    Memory.wf t.ledger.mem = true ∧ Memory.wf t.image.buffer = true

/-- Once the controller has left Provisioning, with no record of a transition into it under way, no step returns it
there or begins such a record (R690). -/
def Obligations.ProvisioningIsLeftForGood : Prop :=
  ∀ s t : State, step s = .next t → s.nv.left → t.nv.left

/-- The commands that reach neither a dictionary write, a Ledger stream, a Storm sequence nor a loss of power, nor stop a
core that has lost a clock, change no byte of the Ledger, nothing of the Keeper's nonvolatile store and no byte of a
staged image; those with which what waits may go on do so where nothing waits. -/
def Obligations.QuietCommandsKeepTheStores : Prop :=
  ∀ (c : Instr) (s t : State), c.quiet = true → (c.resumes = true → nothingWaits s) → exec c s = .next t →
    t.nv = s.nv ∧ t.ledger.mem = s.ledger.mem ∧ t.image.buffer = s.image.buffer

/-! ### Supplies, platform inputs, ports and clocks (EL, BU, IH) -/

/-- The inputs of the Keeper that change one field each: PGOOD qualified, PWRWARN# deasserted, the straps, the Tj
sensor, the hold-up voltage. The events of a port that set one field of it: PERST# released, the link up, Bus Master
Enable and the power management state written; an INTx message is an Unsupported Request and changes nothing. VDDIO
leaving its range while the core has no power takes the sideband's addresses with it and nothing else (R27, R176, R354,
R678, R778, R836). -/
def Obligations.InputsSetTheirFields : Prop :=
  ((∀ s : State, s.keeper.vddAux = true → s.keeper.pgood = false →
     exec .pgoodAssert s = .next { s with out := [], keeper := { s.keeper with pgood := true, pgoodAt := s.now } }) ∧
   (∀ s : State, exec .pwrwarnDeassert s = .next { s with
     out := [], keeper := { s.keeper with pwrwarn := false }, durab := { s.durab with warn := false } }) ∧
   (∀ (b : BitVec 5) (s : State), s.keeper.vddAux = true → s.keeper.strapsSampled = false →
     s.keeper.auxAt + 1000000 ≤ s.now →
     exec (.strapSample b) s = .next { s with out := [], keeper := { s.keeper with
       strapsSampled := true
       straps := { sbMode := b.getLsbD 0, sbAddr := bits b.toNat 2 1, refsel := b.getLsbD 3,
                   testEn := b.getLsbD 4 } } }) ∧
   (∀ (outside : Bool) (s : State), s.keeper.vddAux = true →
     exec (.tjExcursion outside) s = .next { s with out := [], keeper := { s.keeper with
       tjOutside := outside
       tjExcursions := if outside && !s.keeper.tjOutside then satAdd 32 s.keeper.tjExcursions 1
         else s.keeper.tjExcursions } }) ∧
   (∀ (low : Bool) (s : State), s.keeper.vddAux = true → s.inRun = true →
     exec (.holdupLow low) s = .next { s with out := [], keeper := { s.keeper with holdupLow := low } }) ∧
   (∀ s : State, s.powered = false → s.keeper.vddio = true →
     exec .vddioLoss s = .next { s with
       out := []
       keeper := { s.keeper with vddio := false }
       sideband := { s.sideband with eid := 0, dynAddr := 0, hotJoined := false } })) ∧
  (∀ (p : Port) (s : State),
     (exec (.perstDeassert p) s = .next (answered s ((cleared s).modPort p fun x =>
       { x with perst := false, ready := s.powered }))) ∧
     (s.powered = true → (s.port p).ready = true → s.extestHeld = false →
       exec (.linkUp p) s = .next (answered s ((cleared s).modPort p fun x => { x with linkUp := true }))) ∧
     (configAnswers s p = true →
       (∀ v, exec (.busMasterEnableWrite p v) s =
         .next (answered s ((cleared s).modPort p fun x => { x with busMaster := v }))) ∧
       exec (.d3hotEntry p) s = .next (answered s ((cleared s).modPort p fun x => { x with d3hot := true })) ∧
       exec (.d3hotExit p) s = .next (answered s ((cleared s).modPort p fun x => { x with d3hot := false }))) ∧
     (s.powered = true → (s.port p).linkUp = true → ∀ b,
       exec (.intxMessage p b) s = .next { s with out := [.unsupportedRequest p] }))

/-- A loss of a supply and a cold power-on stop the core without a cut: the mirror MRAM keeps its roots, the durable
state is at its first-boot values until the next release, P4 is in effect, RDY is 0; and a Ledger with nothing in its
islands keeps every byte (R589, R682, R763, R794, R696). -/
def Obligations.SupplyLossKeepsRootsAndLedger : Prop :=
  (∀ s : State, ∃ t, exec .coldPowerOn s = .next t ∧ t.keeper = { Keeper.initial with auxAt := s.now } ∧
    t.nv.sec = (if s.nv.pendingSealed then SecState.sealed else s.nv.sec) ∧ t.nv.pendingSealed = false ∧
    t.nv.ownerKey = s.nv.ownerKey ∧ t.mram = s.mram ∧ t.dur = .initial ∧ t.pending = s.pending ∧
    (s.ledger.inbox = [] → t.ledger.mem = s.ledger.mem)) ∧
  (∀ s : State, ∃ t, exec .vddAuxLoss s = .next t ∧ t.keeper = { Keeper.initial with vddAux := false } ∧
    t.nv.sec = s.nv.sec ∧ t.nv.ownerKey = s.nv.ownerKey ∧ t.mram = s.mram ∧ t.dur = .initial ∧
    t.pending = s.pending ∧ (s.ledger.inbox = [] → t.ledger.mem = s.ledger.mem)) ∧
  (∀ s : State, s.keeper.vddCore = true → s.powered = true → ∃ t, exec .vddCoreLoss s = .next t ∧
    t.keeper.pstate = .p4 ∧ t.keeper.rdy = false ∧ t.keeper.vddCore = false ∧
    t.keeper.unqualifiedLoss = (if s.keeper.pwrfail then s.keeper.unqualifiedLoss
      else satAdd 32 s.keeper.unqualifiedLoss 1) ∧
    t.nv.sec = s.nv.sec ∧ t.mram = s.mram ∧ t.dur = .initial ∧
    t.pending = s.pending ∧ (s.ledger.inbox = [] → t.ledger.mem = s.ledger.mem))

/-- A Keeper reset of MODE DISCARD, by KRST#, from a state with power: P4, RDY 0, DB_ROOM0 and DB_SILLCRC cleared and
the other Deadbolts kept, the links down, every byte of the Ledger kept, no root written. KeeperReset MODE DISCARD,
written by a requester that may write it, does what KRST# does, with its own cause (R765, R766, R768, R769, Table
CN-5). -/
def Obligations.DiscardStopsWithoutARoot : Prop :=
  (∀ s : State, s.keeper.ramStopped = false → s.keeper.vddAux = true → s.keeper.pstate ≠ .p4 →
     ∃ t, exec .krst s = .next t ∧ Discarded 3 s t) ∧
  (∀ (r : Req) (key : BitVec 16) (s : State), s.keeper.ramStopped = false → s.keeper.vddAux = true →
     s.keeper.pstate ≠ .p4 → mgmtServes s = true → reqReaches s r = true →
     judgeWrite s r false .keeperReset 0 (1 :: leBytes 2 key.toNat ++ [0]) = none →
     ∃ t, exec (.keeperResetDiscard r key) s = .next t ∧ Discarded 5 s t)

/-- A Storm sequence from P0, P1 or P2, by PWRFAIL#, by PGOOD or by KeeperReset MODE CAPTURE, ends in P4 with RDY 0
and the links down; the core may restart only where power lasted. With MirrorEnable 0 the mirror MRAM is unchanged;
with MirrorEnable 1 both copies are written, as far as power lasts, with one KIND 1 root over the new epoch. The
Deadbolts and the security state stay, but a Keeper reset clears DB_ROOM0 and DB_SILLCRC (R612, R613, R630, R632,
R643, R767, R781). -/
def Obligations.StormEndsInOff : Prop :=
  ∀ (storm : StormInput) (s : State), s.inRun = true → s.keeper.ramStopped = false → s.keeper.lockStopped = false →
    (s.keeper.vddAux = true → ∃ t, exec (.pwrfail storm) s = .next t ∧ t.keeper.pwrfail = true ∧
      StormEnded storm s t ∧ t.keeper.nextCause = 2 ∧ t.keeper.deadbolts = s.keeper.deadbolts) ∧
    (s.keeper.pwrfail = false → ∃ t, exec (.pgoodDeassert storm) s = .next t ∧ t.keeper.pgood = false ∧
      StormEnded storm s t ∧ t.keeper.nextCause = 2 ∧ t.keeper.deadbolts = s.keeper.deadbolts) ∧
    (∀ (r : Req) (key : BitVec 16), mgmtServes s = true → reqReaches s r = true →
      judgeWrite s r false .keeperReset 0 (0 :: leBytes 2 key.toNat ++ [0]) = none →
      ∃ t, exec (.keeperResetCapture r key storm) s = .next t ∧ StormEnded storm s t ∧
        t.keeper.nextCause = (if storm.ending = .complete then 4 else 2) ∧
        t.keeper.deadbolts = s.keeper.deadbolts &&& 0b10110)

/-- The Keeper release, and the restart after a Storm sequence, enter P5 with RDY 0 and record the reset's cause;
where no root can be used the durable state is at its first-boot values, and where one can its EPOCH is the epoch and
every queue is disabled (R635, R643, R644, R649, R776, R782). -/
def Obligations.ReleaseEntersRecovery : Prop :=
  ∀ (b : BootInput) (s : State), mayRelease b s = true →
    (∃ t, exec (.keeperRelease b) s = .next t ∧ Released b s t) ∧
    (s.keeper.stormEndAt.isSome = true → ∃ t, exec (.stormRestart b) s = .next t ∧ Released b s t ∧
      ∀ e, s.keeper.stormEndAt = some e → e + 1000000 ≤ t.now)

/-- RECOVERY_COMPLETE ends P5 in the state PowerCeiling holds; after a recovery with MirrorEnable 1 the epoch advances
and is the last root's, and after a first boot the KIND 3 root of the epoch stands in all four places, names slot 0 of
every line, and slot 0 of every line holds the durable state (R610, R613, R621, R650, R651, R681, Table BU-5).
BOOT_ROM_VERIFY: a match lets the Management island serve, and RDY rises with it once the core runs and nothing is
being restored; a mismatch is a boot failure for good (R705, R708, R779). -/
def Obligations.StartIsCompleted : Prop :=
  (∀ s : State, s.keeper.pstate = .p5 → s.keeper.restoring = true → s.keeper.lockStopped = false →
     ∃ t, exec .recoveryComplete s = .next t ∧ t.keeper.pstate = ceilingState s ∧ t.keeper.restoring = false ∧
       t.keeper.recovered = (s.keeper.restoreKind == .recovery) ∧ t.nv = s.nv ∧ t.ledger.mem = s.ledger.mem ∧
       (s.keeper.restoreKind = .recovery → s.dur.g.mirrorEnable = true →
         t.dur.g.epoch = s.dur.g.epoch + 1 ∧ t.dur.g.lastRootEpoch = s.dur.g.epoch + 1) ∧
       (s.keeper.restoreKind = .mirrorStart → t.dur.g.lastRootEpoch = s.dur.g.epoch ∧
         t.mram.base = some (s.dur.g.epoch % 2 ^ 32, markCut s (fun _ => true) s.dur) ∧
         ∃ p : Place, p.head.kind = .mirrorStart ∧ p.head.epoch = s.dur.g.epoch ∧ p.head.prevEpoch = 0 ∧
           p.map = { lines := [], context := false } ∧
           t.mram.a0 = some p ∧ t.mram.a1 = some p ∧ t.mram.b0 = some p ∧ t.mram.b1 = some p) ∧
       (t.keeper.rdy = true ↔ s.keeper.rdy = true ∨
         (s.keeper.serving = true ∧ s.keeper.ramStopped = false ∧ s.keeper.scan = false))) ∧
  (∀ s : State, s.powered = true → s.keeper.romChecked = false → s.keeper.ramStopped = false →
     s.keeper.vddCore = true →
     (exec (.bootRomVerify false) s = .next (answered s { cleared s with
       keeper := { s.keeper with romChecked := true, bootFail := true } })) ∧
     (∃ t, exec (.bootRomVerify true) s = .next t ∧ t.keeper.serving = true ∧ t.keeper.romChecked = true ∧
       t.keeper.bootFail = s.keeper.bootFail ∧ t.nv = s.nv ∧ t.ledger = s.ledger ∧ t.mram = s.mram ∧
       t.fabric = s.fabric ∧
       (t.keeper.rdy = true ↔ s.keeper.rdy = true ∨
         (s.inRun = true ∧ s.keeper.restoring = false ∧ s.keeper.lockStopped = false ∧ s.keeper.scan = false))))

/-- A port reset leaves its port with Bus Master Enable 0, out of D3hot and with its vector masked and cleared; the
requester's copies of the conduct registers are as at reset, but for the abort that takes the Hatch from it; the
authorization objects are cleared; the security state, the mirror MRAM, the Deadbolts and every byte of the Ledger stay,
and the other port's link with them. A hot reset, PERST# and a link-down take the link down, a function-level reset
leaves it up (R148, R770, R771, R834, R835, Table BU-2). -/
def Obligations.PortResetClearsThePort : Prop :=
  ∀ (p : Port) (s : State), s.powered = true →
    (∀ cause, ∃ t, exec (.portReset p cause) s = .next t ∧ PortWasReset p s t ∧ (t.port p).linkUp = false ∧
      (cause = .perstAssert → (t.port p).perst = true ∧ (t.port p).ready = false)) ∧
    ((s.port p).linkUp = true → ∃ t, exec (.flr p) s = .next t ∧ PortWasReset p s t ∧ (t.port p).linkUp = true)

/-- CREDIT_WAIT_OVER: the wait of the port's posted write passes 100 µs and is counted once (R762). A clock generator
that loses lock is counted by the Keeper, raises source 0x101054 once and shows in both ports' MGMT_EVENT; a retained
island's is stopped and loses none. Its return within 10 µs lets the island run again, and what waited for it acts; 10 µs
without it stop the core with RDY 0 and nothing left in a Ledger island (R44, R81, R82, R83). -/
def Obligations.WaitsAndClockLossAreSeen : Prop :=
  (∀ (p : Port) (s : State), (s.port p).out ≠ [] → (s.port p).canIssue = true → (s.port p).creditWait ≤ 100000 →
     ∃ t, exec (.creditWaitOver p) s = .next t ∧ (t.port p).creditOver = satAdd 64 (s.port p).creditOver 1 ∧
       (t.port p).creditWait = 100001 ∧ t.now = s.now + (100001 - (s.port p).creditWait) ∧
       t.fabric = s.fabric ∧ t.nv = s.nv ∧ t.ledger = s.ledger ∧ t.dur = s.dur ∧ t.keeper = s.keeper) ∧
  (∀ (i : Island) (n : Nat) (s : State), islandId i = some n → s.powered = true →
     (n ≠ 211 → mget 0 s.power.lockLost n = 0 → (s.island n).level ≠ .retained →
       exec (.lockLoss i) s = .next (answered s ((({ cleared s with
         power := { s.power with lockLost := mput 0 n (s.now + 1) s.power.lockLost }
         keeper := { s.keeper with lockLosses := satAdd 64 s.keeper.lockLosses 1 } }).raise 0x101054).mgmt 9))) ∧
     ((s.island n).level = .retained → (s.island n).waking = false →
       exec (.lockLoss i) s = .next (answered s (cleared s))) ∧
     (s.xlate.heldFaults = [] → s.ledger.stream = [] → s.ledger.reads = [] →
       s.now ≤ mget 0 s.power.lockLost n + 9999 →
       let w := { cleared s with power := { s.power with lockLost := mput 0 n 0 s.power.lockLost } }
       (s.held = [] → exec (.lockReturn i) s = .next (answered s w)) ∧
       (∀ r a, s.held = [(r, a)] → exec (.lockReturn i) s = .next (answered s (a.redo r { w with held := [] })))) ∧
     (mget 0 s.power.lockLost n ≠ 0 → s.keeper.lockStopped = false → nothingWaits s →
       ∃ t, exec (.lockTimeout i) s = .next t ∧ t.keeper.lockStopped = true ∧
       t.keeper.rdy = false ∧ t.ledger.inbox = [] ∧ t.nv = s.nv ∧ t.mram = s.mram ∧ t.power = s.power ∧
       mget 0 s.power.lockLost n + 9999 ≤ t.now))

/-! ### Wired sources and Sill lanes (WS) -/

/-- A pin that qualifies a new level, FILTER x 10 ns after its filter began to count, asks as its MODE says: a level mode
always, with ASSERT and LEVEL of the new level, an edge mode on its edge only, MODE 0 never; its filter then counts anew
(R210, R211, R218, Table WS-1). A write of a pin's, a line's or a lane's configuration that nothing stops takes effect
with its fields, and a FILTER below 2 or a TIMEOUT outside 3 to 4096 sets CLAMPED (R102, R216, R221, R250, Table WS-8). -/
def Obligations.PinsAskAsConfigured : Prop :=
  (∀ (pin : Fin 512) (level : Bool) (s : State),
     islandsReady s [idGather (gatherOf (0x100000 + pin))] → s.wiredLive → s.pinValue pin ≠ level →
     let sn := 0x100000 + pin.val
     let w := ((begun s [idGather (gatherOf (0x100000 + pin))]).elapseTo
       (s.pinSince pin + 10 * (s.pinCfg pin).filter)).restartFilter pin
     let x := { w with wired := { w.wired with pins := mput false pin level w.wired.pins } }
     exec (.pinQualify pin level) s = .next (answered s
       (match (s.pinCfg pin).mode with
       | 1 => wiredRequest sn level level x
       | 2 => wiredRequest sn (!level) (!level) x
       | 3 => if level then wiredRequest sn true false x else x
       | 4 => if level then x else wiredRequest sn true false x
       | 5 => wiredRequest sn true false x
       | _ => x))) ∧
  ((∀ (r : Req) (line : Fin 4096) (bs : List Byte) (s : State), line.val < 512 →
     dictOpen s r (objIslands (.pinConfig line) 0) → roomToDirty s →
     judgeWrite s r false (.pinConfig line) 0 (bytesAt bs 0 4) = none →
     exec (.lineConfigWrite r line bs) s = .next (answered s ((setPinCfg line (fieldAt (bytesAt bs 0 4) 0 1)
       (fieldAt (bytesAt bs 0 4) 1 1) (begun s (objIslands (.pinConfig line) 0))).clampedBy r
         (fieldAt (bytesAt bs 0 4) 1 1 < 2)))) ∧
   (∀ (r : Req) (line : Fin 4096) (bs : List Byte) (s : State), 512 ≤ line.val →
     dictOpen s r [idGather ((line.val - 512) / 64)] → roomToDirty s →
     judgeWrite s r false (.lineConfig ((line.val - 512) / 64) ((line.val - 512) % 64)) 0 (bytesAt bs 0 4) = none →
     exec (.lineConfigWrite r line bs) s = .next (answered s (setLineCfg ((line.val - 512) / 64)
       ((line.val - 512) % 64) (fieldAt (bytesAt bs 0 4) 0 1) (begun s [idGather ((line.val - 512) / 64)])))) ∧
   (∀ (r : Req) (n : Fin 56) (bs : List Byte) (s : State), dictOpen s r [idGather n] → roomToDirty s →
     judgeWrite s r false (.laneControl n) 0 (bytesAt bs 0 8) = none →
     exec (.laneControlWrite r n bs) s = .next (answered s ((setLaneCtl n (laneCfgOf (bytesAt bs 0 8))
       (begun s [idGather n])).clampedBy r
         (clamp 3 4096 (fieldAt (bytesAt bs 0 8) 2 2) != fieldAt (bytesAt bs 0 8) 2 2)))))

/-- A whole frame with a good CRC in a LOCKED lane: the next SEQ is applied, a repeated one is counted as a duplicate
and changes no line, a later one is applied and the frames between are counted as missed (R235, R238, R240). The frame
watchdog of a LOCKED lane: TIMEOUT frame periods after the last applied frame the lane is STALE, and its Gather island
raises source 0x101000 plus its number, or holds that raise while its Submit channel has no room; with STALE_POLICY 0 its
lines keep their values (R44, R243, R245, R248). -/
def Obligations.LanesTakeFramesAndTimeOut : Prop :=
  (∀ (n : Fin 56) (f : SillFrame) (seq : Nat) (s : State),
     islandsReady s [idGather n] → s.wiredLive → (s.lane n).state = .locked → (s.lane n).pendingCtl = none →
     isSync (if (s.laneCfg n).invert then ~~~f.sync else f.sync) →
     f.nextSync = some 96 →
     (frameCells (s.laneCfg n).invert f).all Option.isSome → crcPasses (frameCells (s.laneCfg n).invert f) →
     seqOf (frameCells (s.laneCfg n).invert f) = some seq →
     ∃ t, exec (.sillFrame n f) s = .next t ∧ (t.lane n).state = .locked ∧ t.now = s.now ∧
       t.nv = s.nv ∧ t.keeper = s.keeper ∧ t.ledger = s.ledger ∧ t.dur = s.dur ∧
       if (seq + 256 - (s.lane n).lastSeq) % 256 = 0 then
         (t.lane n).held = (s.lane n).held ∧ (t.lane n).duplicates = satAdd 64 (s.lane n).duplicates 1 ∧
           (t.lane n).lastSeq = (s.lane n).lastSeq ∧ t.fabric = s.fabric
       else
         (t.lane n).held = frameLines (s.lane n).held (frameCells (s.laneCfg n).invert f) ∧
           (t.lane n).lastSeq = seq ∧ (t.lane n).framesApplied = satAdd 64 (s.lane n).framesApplied 1 ∧
           (t.lane n).lastApplied = s.now ∧ (t.lane n).fromOff = false ∧
           (t.lane n).framesMissed = (if (seq + 256 - (s.lane n).lastSeq) % 256 = 1 then (s.lane n).framesMissed
             else satAdd 64 (s.lane n).framesMissed (((seq + 256 - (s.lane n).lastSeq) % 256 + 255) % 256))) ∧
  (∀ (n : Fin 56) (s : State), islandsReady s [idGather n] → (s.lane n).state = .locked →
     let g := gatherOf (0x101000 + n)
     let raised : Sent Event := ⟨n, 0, .raise (0x101000 + n)⟩
     ∃ t, exec (.laneTimeout n) s = .next t ∧ (t.lane n).state = .stale ∧ (t.lane n).fromStale = true ∧
       (t.lane n).timeouts = satAdd 64 (s.lane n).timeouts 1 ∧
       (s.lane n).lastApplied + 480 * (s.laneCfg n).timeout ≤ t.now ∧
       ((∃ es, t.gathered g = es ++ [raised]) ∨ (∃ es, mget [] t.fabric.submitHeld (64 * n + g) = es ++ [raised])) ∧
       ((s.lane n).pendingCtl = none → (s.laneCfg n).stalePolicy = 0 → (t.lane n).held = (s.lane n).held) ∧
       t.nv = s.nv ∧ t.keeper = s.keeper ∧ t.ledger = s.ledger ∧ t.mram = s.mram)

/-! ### Message intake, sources and ranking (LB, PK) -/

/-- A Letterbox write of its page's size, aligned and with every byte enabled, whose SN is a Letterbox source and
whose Room is enabled is staged behind the port's earlier ones, with its note if it lies in the note page (R262, R265,
R283). A Letterbox write that fails a check is rejected with the first reason of Table LB-4 and is staged nowhere:
MALFORMED, then an SN beyond the Letterbox sources, then a Room that is not enabled (R262 to R270); while its Link
island can take none it waits there (R44, R82). INTAKE_FORWARD moves the oldest staged entry bound for a Gather island to
the tail of that island's FIFO, when fewer than 16 Letterbox entries of the port stand in it (R46, R284). -/
def Obligations.LetterboxMessagesAreTaken : Prop :=
  (∀ (p : Port) (rid : BitVec 16) (w : HostWrite) (note : Bool) (s : State),
     letterboxPage w.offset = some note → linkHolds s p = false → (s.port p).linkUp → s.keeper.rdy →
     (s.port p).staging.length < 256 → HostWrite.isWhole w (if note then 32 else 4) →
     fieldAt w.data 0 3 < 0x100000 → s.dur.g.roomEnable.getLsbD (bits w.offset 11 8) →
     let t := answered s ((cleared s).modPort p fun x => { x with staging := x.staging ++
       [{ gather := gatherOf (fieldAt w.data 0 3)
          event := .letterbox p rid w.offset (fieldAt w.data 0 3) (bits w.offset 11 8)
            (if note then some (bytesAt w.data 16 16) else none) }] })
     exec (.letterboxSingleWrite p rid w) s = .next t ∧ exec (.letterboxDoubleWrite p rid w) s = .next t) ∧
  (∀ (p : Port) (rid : BitVec 16) (w : HostWrite) (note : Bool) (s : State),
     letterboxPage w.offset = some note → s.powered → (s.port p).linkUp → s.keeper.rdy →
     (s.port p).staging.length < 256 → HostWrite.isEmpty w = false →
     let room := bits w.offset 11 8
     let sn := fieldAt w.data 0 3
     let c := if note then Instr.letterboxDoubleWrite p rid w else Instr.letterboxSingleWrite p rid w
     (linkHolds s p = true → exec c s = .next (answered s ((cleared s).hold p.req (.letterbox rid w)))) ∧
     (linkHolds s p = false → HostWrite.isWhole w (if note then 32 else 4) = false →
       exec c s = .next (answered s (letterboxReject p rid w.offset 1 room 0 (cleared s)))) ∧
     (linkHolds s p = false → HostWrite.isWhole w (if note then 32 else 4) → 0x100000 ≤ sn →
       exec c s = .next (answered s (letterboxReject p rid w.offset 2 room sn (cleared s)))) ∧
     (linkHolds s p = false → HostWrite.isWhole w (if note then 32 else 4) → sn < 0x100000 →
       s.dur.g.roomEnable.getLsbD room = false →
       exec c s = .next (answered s (letterboxReject p rid w.offset 3 room sn (cleared s))))) ∧
  (∀ (p : Port) (g : Fin 64) (e : Staged) (rest : List Staged) (s : State),
     islandsReady s [idLink p, idGather g] → intakeUsed s p g < 16 →
     takeFirst (fun e => e.gather == g.val) (s.port p).staging = some (e, rest) →
     exec (.intakeForward p g) s = .next (answered s
       (((begun s [idLink p, idGather g]).modPort p fun x => { x with staging := rest }).arrive g
         ⟨idLink p, 0, e.event⟩)))

/-- STATE_UPDATE at a bank with room to dirty a line and to notify: the oldest request of the Gather island, which its
Update port grants, is applied. An event makes an Idle source Pending with AGE 0 and notifies its route, leaves a Pending
one as it is and re-arms an Active one; a Letterbox message of another Room is rejected with reason 4; a wired line's
request first sets LEVEL (R57, R212, R266, R316, R840, Table PK-3). -/
def Obligations.StateUpdateFollowsTheSourceTable : Prop :=
  ∀ (g : Fin 64) (x : Sent Event) (rest : List (Sent Event)) (s : State),
    s.gathered g = x :: rest → appliedNext s g x → islandsReady s [idGather g, idBank (bankOf x.body.sn)] →
    roomToDirty s → notifyRoom s (bankOf x.body.sn) → nothingWaits s →
    let w := granted s g x
    let r := s.src x.body.sn
    let p : Source := { r with state := .pending, ageBase := s.ageZero r.target r.cls }
    (∀ sn, x.body = .raise sn → r.state = .idle → exec (.stateUpdate g) s = .next (answered s
      ((w.putSrc sn p).notifyRoute sn r.target r.cls (some (candOf p))))) ∧
    (∀ sn, x.body = .raise sn → r.state = .pending → exec (.stateUpdate g) s = .next (answered s w)) ∧
    (∀ sn, x.body = .raise sn → r.state = .active → exec (.stateUpdate g) s =
      .next (answered s (if r.rearm then w else w.putSrc sn { r with rearm := true }))) ∧
    (∀ p rid off sn room note, x.body = .letterbox p rid off sn room note → r.room ≠ room →
      exec (.stateUpdate g) s = .next (answered s (letterboxReject p rid off 4 room sn w))) ∧
    (∀ p rid off sn room, x.body = .letterbox p rid off sn room none → r.room = room →
      exec (.stateUpdate g) s = .next (answered s (applyEvent sn
        (w.modPort p fun x => { x with accepted := satAdd 64 x.accepted 1 })))) ∧
    (∀ sn level, x.body = .wired sn false level → exec (.stateUpdate g) s = .next (answered s
      (if r.level = level then w else w.putSrc sn { r with level := level })))

/-- One selection step of a Rank island, by what it has learned of its sources. It learns the change that a Notify
transfer brings; then an EMPTY slot offers the first eligible source, but Normal offers nothing while Fast holds one; an
OFFERED slot is replaced when its source is no longer eligible or another comes before it, and retracted when none is
eligible; a HOLDING slot waits. The end of a held source empties its slot, passes on and is followed by a selection; a
claim answer is passed on (R322, R334, R335, R336, R357). A selection owed to a write comes before the channel's
transfers. The source that a Rank island selects is eligible, and it comes before every other eligible source that the
island knows in the order of Table PK-4 (R312, R317). -/
def Obligations.SelectionOffersTheFirst : Prop :=
  (∀ (k : Fin 16) (n : Sent Notify) (rest : List (Sent Notify)) (s : State),
     islandsReady s [idRank k] → mget [] s.fabric.due k = [] → mget [] s.fabric.notifyQ k = n :: rest →
     selectUsed s n.body.tn ≤ 6 →
     let w := (begun s [idRank k]).modFabric fun x => { x with notifyQ := mput [] k rest x.notifyQ }
     (∀ tn c sn cand, n.body = .change tn c sn cand →
       let v := learn tn c sn cand w
       (∀ b, s.rankSlot tn c = .empty → firstEligible v tn c = some b → exec (.selection k) s = .next (answered s
         (if c = .normal ∧ fastHolding s tn then v else sendOffer tn c b v))) ∧
       (s.rankSlot tn c = .empty → firstEligible v tn c = none → exec (.selection k) s = .next (answered s v)) ∧
       (∀ x, s.rankSlot tn c = .holding x → exec (.selection k) s = .next (answered s v)) ∧
       (∀ x b, s.rankSlot tn c = .offered x → firstEligible v tn c = some b →
         (∀ y, offeredStill v tn c x = some y → exec (.selection k) s = .next (answered s
           (if b.1 ≠ x ∧ comesBefore v tn c b y = true then sendOffer tn c b v else v))) ∧
         (offeredStill v tn c x = none → exec (.selection k) s = .next (answered s (sendOffer tn c b v)))) ∧
       (∀ x, s.rankSlot tn c = .offered x → firstEligible v tn c = none → exec (.selection k) s = .next (answered s
         (sendSelect tn (.retract tn c) (v.setRank tn c .empty))))) ∧
     (∀ tn c sn, n.body = .done tn c sn → s.rankSlot tn c = .holding sn → exec (.selection k) s = .next (answered s
       (selectAfter tn c (sendSelect tn (.done tn c sn) (w.setRank tn c .empty))))) ∧
     (∀ tn c sn ok lost at', n.body = .answer tn c sn ok lost at' → exec (.selection k) s = .next (answered s
       (sendSelect tn (.answer tn c sn ok lost at')
         (if ok then learn tn c sn none (w.setRank tn c (.holding sn)) else w))))) ∧
  (∀ (k : Fin 16) (tn : Nat) (c : Cls) (rest : List (Nat × Cls)) (s : State),
     islandsReady s [idRank k] → mget [] s.fabric.due k = (tn, c) :: rest → selectUsed s tn ≤ 6 →
     exec (.selection k) s = .next (answered s (selectStep tn c ((begun s [idRank k]).modFabric fun x =>
       { x with due := mput [] k rest x.due })))) ∧
  (∀ (s : State) (tn : Nat) (c : Cls) (b : Nat × Cand), firstEligible s tn c = some b →
     eligible s tn c b.1 b.2 = true ∧ b ∈ s.viewOf tn c ∧
     ∀ p ∈ s.viewOf tn c, eligible s tn c p.1 p.2 = true → p.1 ≠ b.1 → comesBefore s tn c b p = true)

/-- RAISE is an event that goes to the source's Gather island, and WITHDRAW acts by Table PK-3; SourceConfig changes its
route and restarts its AGE when TARGET or CLASS changes, and notifies a Pending source's old and new route; TargetRoom
clears the target's Pane latches and has its classes selected anew, and RoomReach those of every target, a Room always
reaching itself (R49, R314, R316, R327, R329, R330, R336, R338, R339, R341, R524). -/
def Obligations.RoutingIsWritten : Prop :=
  ∀ (r : Req) (sn : BitVec 24) (s : State), dictOpen s r [idBank (bankOf sn.toNat)] → roomToDirty s →
    snExists sn.toNat = true →
    let w := begun s [idBank (bankOf sn.toNat)]
    let n := sn.toNat
    let x := s.src n
    (judgeWrite s r false .sourceControl n [1] = none → sentBy idManagement (s.gathered (gatherOf n)) < 4 →
      exec (.raise r sn) s = .next (answered s (w.arrive (gatherOf n) ⟨idManagement, 0, .raise n⟩))) ∧
    (judgeWrite s r false .sourceControl n [2] = none →
      (x.state = .idle ∨ (x.state = .pending ∧ (levelAsserted s n x = true ∨ x.notes ≠ [])) →
        exec (.withdraw r sn) s = .next (answered s w)) ∧
      (x.state = .pending → levelAsserted s n x = false → x.notes = [] → exec (.withdraw r sn) s = .next (answered s
        ((w.putSrc n { x with state := .idle }).notifyRoute n x.target x.cls none))) ∧
      (x.state = .active → exec (.withdraw r sn) s = .next (answered s (w.putSrc n { x with rearm := false })))) ∧
    (∀ rec, judgeWrite s r false .sourceConfig n (bytesAt rec 0 8) = none → isIpi n = false →
      let bs := bytesAt rec 0 8
      let target := targetField (fieldAt bs 0 2)
      let cls := Cls.at (fieldAt bs 3 1)
      let y := { x with
        target := target, cls := cls, priority := fieldAt bs 2 1, room := fieldAt bs 4 1
        ageBase := if target = x.target ∧ cls = x.cls then x.ageBase else s.ageZero target cls }
      (y = x → exec (.sourceConfigWrite r sn rec) s = .next (answered s w)) ∧
      (y ≠ x → x.state ≠ .pending → exec (.sourceConfigWrite r sn rec) s = .next (answered s (w.putSrc n y))) ∧
      (y ≠ x → x.state = .pending → exec (.sourceConfigWrite r sn rec) s = .next (answered s
        (if target = x.target ∧ cls = x.cls then (w.putSrc n y).notifyRoute n target cls (some (candOf y))
         else ((w.putSrc n y).notifyRoute n x.target x.cls none).notifyRoute n target cls (some (candOf y)))))) ∧
    (∀ (tn : BitVec 24) (room : Byte), tn.toNat < 4096 → dictOpen s r [idDelivery (tn.toNat / 64)] →
      judgeWrite s r false .targetRoom tn.toNat [room] = none → (s.tgt tn.toNat).room ≠ room.toNat →
      let v := (begun s [idDelivery (tn.toNat / 64)]).putTgt tn.toNat { s.tgt tn.toNat with room := room.toNat }
      exec (.targetRoomWrite r tn room) s = .next (answered s (renotify (· == tn.toNat)
        ((v.modSlot tn.toNat .normal fun d => { d with latch := none }).modSlot tn.toNat .fast fun d =>
          { d with latch := none })))) ∧
    (∀ (m : Fin 16) (mask : BitVec 16), judgeWrite s r false (.roomReach m) 0 (leBytes 2 mask.toNat) = none →
      mask ||| BitVec.ofNat 16 (2 ^ m.val) ≠ s.reach m → exec (.roomReachWrite r m mask) s = .next (answered s
        (renotify (fun _ => true) (((cleared s).modG fun g => { g with
          reach := setAt g.reach m (mask ||| BitVec.ofNat 16 (2 ^ m.val)) }).touch (objectLine (300 + m))))))

/-! ### Delivery, claim and completion (DL) -/

/-- A Delivery island takes a selection, a replacement or a retraction for its slot; while a claim read awaits its
answer the slot holds it back (R349, R351, R356). An offer that may be delivered becomes one descriptor for the
target's port: with the Pane's latch filled, the Pane write with the next SEQ and then the wake write; without a Pane
the wake write alone; with neither nothing is passed on (R71, R346, R347, R350, R352, R524, Table DL-11).
OUTBOUND_ISSUE puts the oldest request of a port that may issue on its link; a delivery's Pane write goes before its
wake write (R71, R354, R448). -/
def Obligations.OffersBecomeDescriptors : Prop :=
  (∀ (d : Fin 64) (m : Sent Select) (rest : List (Sent Select)) (s : State),
     islandsReady s [idDelivery d] → mget [] s.fabric.selectQ d = m :: rest →
     let w := (begun s [idDelivery d]).modFabric fun x => { x with selectQ := mput [] d rest x.selectQ }
     (∀ tn c o, m.body = .select tn c o → exec (.offer d) s = .next (answered s (w.modSlot tn c fun x =>
       if (s.dslot tn c).claiming.isSome then { x with heldSel := some m.body }
       else { x with offer := some o, stage := .waiting, replaced := (s.dslot tn c).paneIssued, faulted := false }))) ∧
     (∀ tn c, m.body = .retract tn c → exec (.retraction d) s = .next (answered s (w.modSlot tn c fun x =>
       if (s.dslot tn c).claiming.isSome then { x with heldSel := some m.body }
       else { x with
         offer := none, stage := .waiting, replaced := false, paneIssued := false, faulted := false })))) ∧
  (∀ (tn : Fin 4096) (c : Cls) (o : OfferData) (s : State),
     islandsReady s [idDelivery (tn.val / 64)] → (s.dslot tn c).offer = some o → (s.dslot tn c).stage = .waiting →
     (s.dslot tn c).claiming = none → deliverable s tn c → offerMasked s tn c = false →
     let w := begun s [idDelivery (tn.val / 64)]
     let d := s.dslot tn c
     let wake := wakeOf (s.tgt tn) c
     (paneWanted s tn c = false → exec (.deliver tn c) s = .next (answered s
       (let x := w.modSlot tn c fun d => { d with
         stage := .issued false
         descr := if wake.isNone then none else some ((s.tgt tn).port, s.fabric.nextDescr)
         wakeBefore := d.lastWake
         lastWake := if wake.isSome then some s.now else d.lastWake }
       match wake with
       | none => x
       | some v => (x.modFabric fun f => { f with nextDescr := s.fabric.nextDescr + 1 }).passToLink (s.tgt tn).port
           (.delivery s.fabric.nextDescr tn c o.sn none (some v))))) ∧
     (∀ l, paneWanted s tn c → d.latch = some l → l.page = alignDown ((s.tgt tn).pane c) 6 / 4096 →
       ∃ t, exec (.deliver tn c) s = .next t ∧ (t.dslot tn c).seq = d.seq + 1 ∧
         (t.dslot tn c).stage = .issued true ∧ (t.dslot tn c).paneIssued = true ∧
         (t.port (s.tgt tn).port).out = (s.port (s.tgt tn).port).out ++ [.delivery s.fabric.nextDescr tn c o.sn
           (some (l.frame * 4096 + alignDown ((s.tgt tn).pane c) 6 % 4096,
             paneBytes o c (d.seq + 1) d.replaced)) wake] ∧
         t.dur = s.dur ∧ t.nv = s.nv ∧ t.ledger = s.ledger ∧ t.out = [])) ∧
  (∀ (p : Port) (r : LinkReq) (rest : List LinkReq) (s : State),
     islandsReady s [idLink p] → (s.port p).canIssue → (s.port p).out = r :: rest → nothingWaits s →
     ∃ t, exec (.outboundIssue p) s = .next t ∧ (t.port p).out = rest ∧ t.ledger.mem = s.ledger.mem ∧ t.nv = s.nv ∧
       t.dur = s.dur ∧
       (∀ k tn c sn a bs w v, r = .delivery k tn c sn (some (a, bs)) (some (w, v)) →
         t.out = [.memWrite p a bs, .memWrite p w (leBytes 4 v.toNat)]) ∧
       (∀ k tn c sn a bs, r = .delivery k tn c sn (some (a, bs)) none → t.out = [.memWrite p a bs]) ∧
       (∀ k tn c sn w v, r = .delivery k tn c sn none (some (w, v)) → t.out = [.memWrite p w (leBytes 4 v.toNat)]) ∧
       (∀ q sl st tg k i a bs, r = .completion q sl st tg k i a bs → t.out = [.memWrite p a bs]) ∧
       (∀ q sl tg k i a bs, r = .hostStore q sl tg k i a bs → t.out = [.memWrite p a bs]) ∧
       (∀ q sl i a len, r = .itemRead q sl i a len → t.out = [.memRead p a len]) ∧
       (∀ q sl a, r = .ringFetch q sl a → t.out = [.memRead p a 64]) ∧
       (∀ i l a bs, r = .ledgerCopy i l a bs → t.out = [.memWrite p a bs]))

/-- A read of CLAIM: with no offer, with the Shutter closed or with the target disabled it returns 0 at once;
otherwise the claim of the offer goes to its source's bank and the read waits; a second read waits behind it (R348,
R355, R356, R361). BANK_CLAIM: the bank accepts a claim only of a Pending source routed to this target and class,
makes it Active and counts the claim; whatever it decides, its answer is the last on its way to the Rank island (R307,
R308, R315, R357). CLAIM_ANSWER: a refusal makes the waiting read return 0; an acceptance of an offer whose writes are
already out returns its word with VALID 1, the slot holds the source, and its watchdog runs from the bank's decision
where WDOG_EN asks (R357, R358, R359, R388, Table DL-3). -/
def Obligations.ClaimsAreDecidedAtTheBank : Prop :=
  (∀ (p : Port) (tn : Fin 4096) (c : Cls) (s : State),
     accessOpen s p [idDelivery (tn.val / 64)] → s.linkReaches p (s.tgt tn).room →
     ((s.dslot tn c).claiming = none →
       ((s.dslot tn c).offer = none ∨ s.fabric.shutter = true ∨ (s.tgt tn).enable = false) →
       exec (.claimRead p tn c) s = .next { s with out := [.readWord p 0] }) ∧
     (∀ o, (s.dslot tn c).claiming = none → (s.dslot tn c).offer = some o → s.fabric.shutter = false →
       (s.tgt tn).enable = true →
       exec (.claimRead p tn c) s = .next (answered s (sendClaim tn (bankOf o.sn) (.claim tn c o.sn o.note.isSome)
         ((cleared s).modSlot tn c fun d => { d with claiming := some (Reader.whole p) })))) ∧
     ((s.dslot tn c).claiming.isSome → exec (.claimRead p tn c) s = .next (answered s
       ((cleared s).modSlot tn c fun d => { d with claimQ := d.claimQ ++ [Reader.whole p] })))) ∧
  (∀ (b : Fin 32) (x : Sent ClaimReq) (tn sn : Nat) (c : Cls) (note : Bool) (rest : List (Sent ClaimReq)) (s : State),
     mget [] s.fabric.claimQ b = x :: rest → x.body = .claim tn c sn note → islandsReady s [idBank b] →
     roomToDirty s →
     let w := (begun s [idBank b]).modFabric fun f => { f with claimQ := mput [] b rest f.claimQ }
     (claimAccepted s tn c sn = false → exec (.bankClaim b) s = .next (answered s
       (w.notifyRank sn tn (.answer tn c sn false false s.now)))) ∧
     (claimAccepted s tn c sn = true → exec (.bankClaim b) s = .next (answered s
       ((acceptClaim tn c sn note w).notifyRank sn tn (.answer tn c sn true (s.src sn).noteLost s.now))))) ∧
  (∀ (d : Fin 64) (x : Sent Select) (tn sn at' : Nat) (c : Cls) (ok lost : Bool) (p : Port) (o : OfferData)
     (rest : List (Sent Select)) (s : State),
     islandsReady s [idRank (d.val / 4), idDelivery d] → mget [] s.fabric.selectQ d = x :: rest →
     x.body = .answer tn c sn ok lost at' →
     (s.dslot tn c).offer = some o → (s.dslot tn c).claiming = some (Reader.whole p) → (s.dslot tn c).claimQ = [] →
     (s.port p).linkUp = true → s.clocked (idLink p) = true →
     (ok = false → (s.dslot tn c).heldSel = none → ∃ t, exec (.claimAnswer d) s = .next t ∧
       t.out = [.readWord p 0] ∧ (t.dslot tn c).claiming = none ∧ (t.dslot tn c).offer = some o ∧
       t.dur = s.dur ∧ t.ledger = s.ledger ∧ t.nv = s.nv) ∧
     (∀ pane, ok = true → (s.dslot tn c).stage = .issued pane → (s.dslot tn c).expired = false →
       (∀ port id, (s.dslot tn c).descr = some (port, id) → inOut s port id = false) →
       ∃ t, exec (.claimAnswer d) s = .next t ∧
         t.out = [.readWord p (claimWord o (s.dslot tn c).seq pane lost)] ∧
         (t.dslot tn c).holding = some o.sn ∧ (t.dslot tn c).offer = none ∧ (t.dslot tn c).claiming = none ∧
         (t.dslot tn c).wdog = (if (s.tgt tn).wdogEn c then some at' else none) ∧
         t.dur = s.dur ∧ t.ledger = s.ledger ∧ t.nv = s.nv))

/-- BANK_EOI: the EOI of a source that the target and class hold completes it, and the Rank island is told; of any other
it is an EOI error with reason 3 and changes no source (R335, R363, R838). A write of EOI: the SN that the slot holds
goes to its bank; another one is an EOI error with the reason of Table DL-5, counted, recorded in every copy and, with
EoiErrorRaise, raised as source 0x101050 (R362, R363, R364). -/
def Obligations.EoisAreJudgedAndComplete : Prop :=
  (∀ (b : Fin 32) (x : Sent ClaimReq) (tn sn : Nat) (c : Cls) (rest : List (Sent ClaimReq)) (s : State),
     mget [] s.fabric.claimQ b = x :: rest → x.body = .eoi tn c sn → islandsReady s [idBank b] → roomToDirty s →
     let w := (begun s [idBank b]).modFabric fun f => { f with claimQ := mput [] b rest f.claimQ }
     (heldBy s tn c sn = true → sn ≠ warnSn s tn → notifyRoom s b →
       exec (.bankEoi b) s = .next (answered s ((eoiTransition sn w).notifyRank sn tn (.done tn c sn)))) ∧
     (heldBy s tn c sn = false → exec (.bankEoi b) s = .next (answered s (eoiError (idBank b) tn c sn 3 w)))) ∧
  (∀ (p : Port) (tn : Fin 4096) (c : Cls) (v : Word) (s : State),
     postedOpen s p [idDelivery (tn.val / 64)] → s.linkReaches p (s.tgt tn).room →
     let w := begun s [idDelivery (tn.val / 64)]
     let sn := v.toNat % 2 ^ 24
     let error := fun reason => eoiError (idDelivery (tn.val / 64)) tn c sn reason w
     ((s.dslot tn c).holding = some sn →
       exec (.eoi p tn c v) s = .next (answered s (sendClaim tn (bankOf sn) (.eoi tn c sn) w))) ∧
     ((s.dslot tn c).holding ≠ some sn → exec (.eoi p tn c v) s = .next (answered s
       (if snExists sn = false then error 1
       else if (s.dslot tn c.other).holding = some sn then error 2 else error 3))))

/-- LOUVRE_EXPIRY ends the hold after its interval and delivers the offer as DELIVER does; WATCHDOG_EXPIRY completes
the held source at its bank as an EOI does, tells the Rank island, empties the slot, disables the target and records the
expiry in every copy (R378, R389, R390). -/
def Obligations.ClassTimersExpire : Prop :=
  ∀ (tn : Fin 4096) (c : Cls) (s : State),
    let w := fun ids => begun s (idDelivery (tn.val / 64) :: ids)
    (∀ t0, islandsReady s [idDelivery (tn.val / 64)] → (s.dslot tn c).lastWake = some t0 →
      exec (.louvreExpiry tn c) s = .next (answered s
        (deliverStep tn c (((w []).elapseTo (t0 + 10 * (s.tgt tn).louvre c)).modSlot tn c fun d =>
          { d with lastWake := none })))) ∧
    (∀ t0 sn, (s.dslot tn c).wdog = some t0 → heldSource s tn c = some sn → heldBy s tn c sn = true →
      islandsReady s [idDelivery (tn.val / 64), idBank (bankOf sn)] → roomToDirty s → ∃ t,
      exec (.watchdogExpiry tn c) s = .next t ∧ t0 + wdogTime s c ≤ t.now ∧
      t.fabric.wdogExpiries = satAdd 64 s.fabric.wdogExpiries 1 ∧
      (∀ r, (t.conduct.get r).wdogLast = { valid := true, tn := tn, cls := c, sn := sn, reason := 0 }) ∧
      (let x := (((eoiTransition sn ((w [idBank (bankOf sn)]).elapseTo (t0 + wdogTime s c))).notifyRank sn tn
         (.done tn c sn)).modSlot tn c DSlot.afterExpiry).setEnable tn false
       t.fabric.dslots = x.fabric.dslots ∧ t.fabric.notifyQ = x.fabric.notifyQ ∧ t.dur.sources = x.dur.sources ∧
        (sn ≠ warnSn s tn → t.dur.targets = x.dur.targets)) ∧
      t.nv = s.nv ∧ t.keeper = s.keeper ∧ t.ledger = s.ledger)

/-- A write of THRESHOLD, LOUVRE or TARGET_CONTROL by a requester that may make it sets the target's field, a
threshold clamped to 256 with CLAMPED (R102, R311, R346, R380, R387). TARGET_RESET with 0x7E5E resets the target: both
slots are empty, the Delivery slots hold nothing, the target is disabled; any other value is counted with reason NAME
(R382, R383, Tables DL-10, DL-17). -/
def Obligations.TargetsAreWrittenAndReset : Prop :=
  (∀ (r : Req) (tn : Fin 4096) (c : Cls) (v : Word) (s : State),
     writeOpen s r [idDelivery (tn.val / 64)] [idDelivery (tn.val / 64)] → linkMay s r (s.tgt tn).room →
     roomToDirty s →
     let w := begun s [idDelivery (tn.val / 64)]
     (let bs := valueBytes r (.threshold c) 9 v.toNat
      judgeWrite s r false (.threshold c) tn bs = none →
       exec (.thresholdWrite r tn c v) s = .next (answered s
         ((setThreshold tn c (clamp 0 256 (leNat bs)) w).clampedBy r (256 < leNat bs)))) ∧
     (judgeWrite s r false (.louvre c) tn (valueBytes r (.louvre c) 16 v.toNat) = none →
       exec (.louvreWrite r tn c v) s = .next (answered s (setLouvre tn c (v.toNat % 2 ^ 16) w))) ∧
     (judgeWrite s r false .targetControl tn (valueBytes r .targetControl 5 v.toNat) = none →
       exec (.targetControlWrite r tn v) s = .next (answered s (setTargetControl tn (v.toNat % 32) w)))) ∧
  (∀ (p : Port) (tn : Fin 4096) (v : Word) (s : State),
     postedOpen s p [idDelivery (tn.val / 64)] → s.linkReaches p (s.tgt tn).room →
     (v.toNat % 2 ^ 16 ≠ 0x7E5E → exec (.targetReset p tn v) s = .next (answered s
       ((begun s [idDelivery (tn.val / 64)]).ignoredWrite p.req 1 (wicketOffset tn .normal 0x208) rName))) ∧
     (v.toNat % 2 ^ 16 = 0x7E5E → (∀ c, (s.dslot tn c).claiming = none) → roomToDirty s →
       ∃ t, exec (.targetReset p tn v) s = .next t ∧
         t.fabric.rank = mput .empty (tkey tn .fast) .empty (mput .empty (tkey tn .normal) .empty s.fabric.rank) ∧
         t.fabric.dslots = mput .initial (tkey tn .fast) (s.dslot tn .fast).afterReset
           (mput .initial (tkey tn .normal) (s.dslot tn .normal).afterReset s.fabric.dslots) ∧
         ((s.dur.targets.map Prod.fst).Pairwise (· < ·) → (t.tgt tn).enable = false) ∧
         t.nv = s.nv ∧ t.keeper = s.keeper ∧ t.ledger = s.ledger ∧ t.mram = s.mram))

/-- SHUTTER, SOURCE_MASK and its unmask: the Shutter closes or opens; a link's mask of a source it may touch sets the
source's MASK at its bank and opens the port's mask window, the sideband's sets the MASK alone (R366, R368, R372, R374,
R376). -/
def Obligations.ShutterAndMask : Prop :=
  (∀ (r : Req) (s : State), writeOpen s r [idManagement] [] →
    judgeWrite s r false .shutter 0 (valueBytes r .shutter 1 1) = none →
    exec (.shutterClose r) s = .next (answered s (setShutter true (written s r [idManagement] []))) ∧
    exec (.shutterOpen r) s = .next (answered s (setShutter false (written s r [idManagement] [])))) ∧
  (∀ (p : Port) (sn : BitVec 24) (s : State), postedOpen s p [idManagement, idBank (bankOf sn.toNat)] →
    snExists sn.toNat → s.mayTouch p.req (s.src sn.toNat).room → roomToDirty s →
    (∀ m, exec (if m then .sourceMask p.req sn else .sourceUnmask p.req sn) s = .next (answered s
      ((setMask sn.toNat m (begun s [idManagement, idBank (bankOf sn.toNat)])).modPort p fun x =>
        { x with maskSn := sn.toNat, maskValid := true, maskAt := s.now })))) ∧
  (∀ (sn : BitVec 24) (m : Bool) (s : State), dictOpen s .sideband (objIslands .sourceMask sn.toNat) →
    judgeWrite s .sideband false .sourceMask sn.toNat [BitVec.ofNat 8 (b2n m)] = none → roomToDirty s →
    exec (if m then .sourceMask .sideband sn else .sourceUnmask .sideband sn) s = .next (answered s
      (setMask sn.toNat m (begun s (objIslands .sourceMask sn.toNat)))))

/-! ### Register conduct and the Hatch (CN) -/

/-- Reads that change nothing but what their rule says: SYNC returns 0 once no Letterbox write of the port waits,
MASK_CONFIRM returns once the 250 ns of the mask window have passed, MGMT_EVENT returns and clears the port's events with
their signal (R94, R147, R374). MGMT_ENABLE takes the value written and signals where it enables a pending event while no
other enabled one is pending; the vector is sent once MSI-X is enabled and unmasked and the port may issue, and not while
MSI-X is disabled or its function masked (R146). -/
def Obligations.ManagementEventsAreReadAndSignalled : Prop :=
  (∀ (p : Port) (s : State), readOpen s p [idManagement] [2, 3, 8, 9] →
     (exec (.syncRead p) s = .next { s with out := [.readWord p 0] }) ∧
     (∃ t, exec (.maskConfirmRead p) s = .next t ∧ t.out = [.readWord p (BitVec.ofNat 32 (maskConfirm (s.port p)))] ∧
       ((s.port p).maskValid = true → (s.port p).maskAt + 250 ≤ t.now) ∧ t.dur = s.dur ∧ t.nv = s.nv ∧
       t.ledger = s.ledger ∧ t.fabric = s.fabric) ∧
     (exec (.mgmtEventRead p) s = .next (answered s
       (((cleared s).modPort p fun x => { x with mgmtEvent := 0, pba := false }).emit
         (.readWord p (BitVec.ofNat 32 (s.port p).mgmtEvent.toNat)))))) ∧
  (∀ (p : Port) (s : State),
     (∀ v : Word, postedOpen s p [idManagement] → exec (.mgmtEnableWrite p v) s = .next (answered s
       ((begun s [idManagement]).modPort p fun x => { x with
         mgmtEnable := BitVec.ofNat 12 v.toNat
         pba := (s.port p).pba ||
           ((s.port p).mgmtEvent &&& BitVec.ofNat 12 v.toNat &&& ~~~(s.port p).mgmtEnable != 0 &&
             !((s.port p).mgmtEvent &&& BitVec.ofNat 12 v.toNat &&& (s.port p).mgmtEnable != 0)) }))) ∧
     (configAnswers s p → (s.port p).pba → (s.port p).msixMasked = false → (s.port p).canIssue →
       exec (.mgmtVectorSend p true false) s = .next (answered s (((cleared s).modPort p fun x => { x with
         msixEnable := true, msixFuncMask := false, pba := false }).emit
           (.msix p (s.port p).msixAddr (s.port p).msixData)))) ∧
     (∀ enable mask, configAnswers s p → enable = false ∨ mask = true →
       exec (.mgmtVectorSend p enable mask) s = .next (answered s ((cleared s).modPort p fun x => { x with
         msixEnable := enable, msixFuncMask := mask }))))

/-- A read of a whole register that is an object's value returns it and clears the reader's copy of its read-clear
fields, and a read of some of its bytes returns those bytes with the same effect; a longer read is the reads of its
32-bit parts in ascending order; a read of a reserved location, or of a page the link may not access, returns 0; a read
beyond the window is an Unsupported Request (R90, R91, R101, R111, R139, R348, R400). -/
def Obligations.RegisterReads : Prop :=
  ∀ (p : Port) (w : Window) (off : Nat) (s : State), off % 4 = 0 →
    (∀ len, s.powered → (s.port p).linkUp → windowSize w < off + len →
      exec (.rcRead p w off len) s = .next { s with out := [.unsupportedRequest p] }) ∧
    (off + 8 ≤ windowSize w → exec (.rcRead p w off 8) s = .next (answered s
      (regRead (Reader.whole p) w (off + 4) (regRead (Reader.whole p) w off (cleared s))))) ∧
    (readOpen s p (regOwner p w off).2 (if w = .bar0 then [8, 9, off / 4096] else []) → off < windowSize w →
      (regNow s w off = none → exec (.rcRead p w off 4) s = .next { s with out := [.readWord p 0] }) ∧
      (∀ o e width, regNow s w off = some (.object o e width) → regAllowed s p w off = false →
        exec (.rcRead p w off 4) s = .next { s with out := [.readWord p 0] }) ∧
      (∀ o e width, regNow s w off = some (.object o e width) → regAllowed s p w off = true →
        let x := if w = .bar0 then hatchPageTouch p off (cleared s) else cleared s
        let v : Word := BitVec.ofNat 32 (leNat (objValue s p.req o e))
        exec (.rcRead p w off 4) s = .next (answered s ((clearStatus p.req o e x).emit (.readWord p v))) ∧
        (∀ k n, 0 < n → n < 4 → k + n ≤ 4 → exec (.rcRead p w (off + k) n) s = .next (answered s
          ((clearStatus p.req o e x).emit (.readBytes p (bytesAt (leBytes 4 v.toNat) k n) false))))))

/-- DEADBOLT_SET only sets Deadbolts, whoever may write it (R116). IGN_COUNT_CLR clears the writer's own IGN_COUNT and
no other; a link's clear of another requester's counter is counted with reason NOT_OWNER (R109, Table CN-25). -/
def Obligations.DeadboltsAndCountersAreTheirs : Prop :=
  (∀ (r : Req) (v : Word) (s : State), writeOpen s r [idManagement] [] →
     judgeWrite s r false .deadboltSet 0 (valueBytes r .deadboltSet 5 v.toNat) = none →
     let w := written s r [idManagement] []
     exec (.deadboltSet r v) s = .next (answered s { w with
       keeper := { w.keeper with deadbolts := w.keeper.deadbolts ||| BitVec.ofNat 5 v.toNat } })) ∧
  ((∀ (r : Req) (v : Word) (s : State), writeOpen s r [idManagement] [] → v.toNat % 8 = 2 ^ reqCode r →
     exec (.ignCountClr r v) s = .next (answered s
       ((written s r [idManagement] []).modConduct r fun c => { c with ignCount := 0 }))) ∧
   (∀ (p : Port) (v : Word) (s : State), postedOpen s p [idManagement] → v.toNat % 8 ≠ 0 →
     v.toNat % 8 ≠ 2 ^ reqCode p.req → exec (.ignCountClr p.req v) s = .next (answered s
       ((begun s [idManagement]).ignoredWrite p.req 0 0x201C rNotOwner))))

/-- A posted write takes effect as its whole 32-bit parts in ascending address order; a part that lacks a byte, or every
byte, is counted with reason PARTIAL and writes nothing (R90, R92). While the port's staging buffer is full a posted
write waits: it changes nothing (R286). An ignored write of a requester adds 1 to its IGN_COUNT, is its IGN_LAST and sets
IGNORED in its CONDUCT_STATUS, and no other requester's copy changes (R108, R110). The order in which a write is judged:
another requester's counter, a right on the object or its Room, a name that names nothing, a right on the value, a
Deadbolt, the object's own state; the first that applies is the reason, and a write with a reason changes no object
(R105, R108, R837). -/
def Obligations.WritesAreSplitJudgedAndCounted : Prop :=
  (∀ (p : Port) (w : Window) (s : State),
     (∀ h : HostWrite, (w = .bar0 → letterboxPage h.offset = none) → HostWrite.isWhole h 4 → h.offset < windowSize w →
       exec (.registerWrite p w h) s = .next (answered s (regWrite p w h.offset (fieldAt h.data 0 4) (cleared s)))) ∧
     (∀ h : HostWrite, (w = .bar0 → letterboxPage h.offset = none) → h.data.length = 8 →
       h.enables = List.replicate 8 true → h.offset % 4 = 0 → h.offset + 8 ≤ windowSize w →
       exec (.registerWrite p w h) s = .next (answered s (regWrite p w (h.offset + 4) (fieldAt h.data 4 4)
         (regWrite p w h.offset (fieldAt h.data 0 4) (cleared s))))) ∧
     (∀ (v : Word) (es : List Bool), postedOpen s p [idManagement] → es.length = 4 → es.all id = false →
       exec (.registerWrite p .bar0 { offset := 0x2024, data := leBytes 4 v.toNat, enables := es }) s =
         .next (answered s ((begun s [idManagement]).ignoredWrite p.req 0 0x2024 rPartial))) ∧
     (∀ v : Word, postedOpen s p [idManagement] →
       exec (.registerWrite p .bar0 { offset := 0x18, data := leBytes 4 v.toNat, enables := List.replicate 4 true }) s =
         .next (answered s { begun s [idManagement] with scratch := v })) ∧
     (∀ h : HostWrite, (w = .bar0 → letterboxPage h.offset = none) → s.keeper.rdy → stagingFull s p →
       exec (.registerWrite p w h) s = .next (answered s (cleared s)))) ∧
  (∀ (r : Req) (space addr reason : Nat) (s : State),
     let t := s.ignoredWrite r space addr reason
     (t.conduct.get r).ignCount = satAdd 32 (s.conduct.get r).ignCount 1 ∧
       (t.conduct.get r).ignLast = { addr := addr, space := space, reason := reason, valid := true } ∧
       (t.conduct.get r).status = (s.conduct.get r).status ||| 2 ∧
       (∀ q, q ≠ r → t.conduct.get q = s.conduct.get q) ∧ t.dur = s.dur ∧ t.keeper = s.keeper ∧ t.nv = s.nv ∧
       t.ledger = s.ledger ∧ t.fabric = s.fabric ∧ t.hatch = s.hatch) ∧
  (∀ (s : State) (r : Req) (o : Obj) (e : Nat) (bs : List Byte) (space addr : Nat) (f : State → State),
     (judgeWrite s r false o e bs =
       if clearsOther r o bs then some 4 else if writeDenied s r o e bs then some 2
       else if namesNothing o e bs then some 1 else if valueDenied s r o e bs then some 2
       else if boltGuards s o e bs then some 3 else if stateDenied s false o bs then some 2 else none) ∧
     (∀ reason, judgeWrite s r false o e bs = some reason →
       (writeObject r space addr false f o e bs s).1 = s.ignoredWrite r space addr reason))

/-- HATCH_OWNER: a free Hatch goes to the first claim with a tag, the owner's write with its tag restarts the timer,
its release frees the Hatch and while BUSY is remembered; a claim of an owned Hatch changes nothing, a claim with tag
0 and a release by another are counted; any access of the owner restarts its timer (R123 to R128, R139). That a release
returns CODE, LENGTH, OPCODE and TAG to their reset values with what R127 lists is the model's choice (log entry 74). -/
def Obligations.HatchOwnership : Prop :=
  ∀ (p : Port) (tag : BitVec 16) (s : State), postedOpen s p [idManagement] →
    let touched := { s.hatch with timerFrom := s.now }
    let w := if s.hatch.owner = some p.req then { begun s [idManagement] with hatch := touched }
      else begun s [idManagement]
    let mine := s.hatch.owner = some p.req ∧ s.hatch.tag = tag
    (s.hatch.owner = none → tag ≠ 0 → exec (.hatchClaim p tag) s = .next (answered s { w with
      hatch := { touched with owner := some p.req, tag := tag } })) ∧
    (s.hatch.owner.isSome → ¬ mine → tag ≠ 0 → exec (.hatchClaim p tag) s = .next (answered s w)) ∧
    (tag = 0 → exec (.hatchClaim p tag) s = .next (answered s (w.ignoredWrite p.req 0 0x1040 rName))) ∧
    (mine → tag ≠ 0 → exec (.hatchRefresh p tag) s = .next (answered s { w with hatch := touched })) ∧
    (mine → s.hatch.busy = false → exec (.hatchRelease p tag) s = .next (answered s { w with
      hatch := { Hatch.initial with timeout := s.hatch.timeout } })) ∧
    (mine → s.hatch.busy = true → exec (.hatchRelease p tag) s = .next (answered s { w with
      hatch := { touched with releasing := true } })) ∧
    (¬ mine → exec (.hatchRelease p tag) s = .next (answered s (w.ignoredWrite p.req 0 0x1040 rNotOwner)))

/-- The owner's READ and READ_CLEAR of an object it may read put the object's value in the command's result with code
0, and READ_CLEAR clears its copy; its WRITE that nothing stops has its effect and answers code 0, or 1 where it was
clamped (R114, R131, R133, R135 to R137). HATCH_COMPLETE publishes the result in one update, HATCH_DONE clears VALID,
and HATCH_TIMEOUT, once the owner's timer has run, takes the Hatch away and logs it in every requester's copy (R133,
R138, R139 to R142). -/
def Obligations.HatchCommandsAndResults : Prop :=
  (∀ (p : Port) (o : Obj) (s : State), postedOpen s p [idManagement] → s.hatch.owner = some p.req →
     s.hatch.busy = false → s.hatch.valid = false → objAt (hatchIndex s.hatch) (hatchSub s.hatch) = some o →
     (objIslands o s.hatch.element.toNat).all (fun i => s.clocked i && (s.island i).level == .awake) →
     roomToDirty s →
     let e := s.hatch.element.toNat
     let x := fun op => { begun s [idManagement] with hatch := { s.hatch with
       timerFrom := s.now, busy := true, opcode := op, result := none, applied := false } }
     let drawn := fun (t : State) => if o = .dieTemperature then t.draw else t
     let done := fun (t : State) (res : HatchResult) =>
       if t.hatch.owner = none then t else { t with hatch := { t.hatch with result := some res } }
     let value := fun op => ({ code := 0, data := objValue (x op) p.req o e, length := o.desc.len, applied := true,
                               notBefore := 0, readBack := none } : HatchResult)
     (mayRead s p.req o e → exec (.hatchRead p) s = .next (answered s (done (drawn (x 1)) (value 1)))) ∧
     (mayRead s p.req o e → exec (.hatchReadClear p) s =
       .next (answered s (done (clearStatus p.req o e (drawn (x 3))) (value 3)))) ∧
     (let bs := bytesAt (hatchBytes s.hatch) 0 o.desc.len
      judgeWrite s p.req false o e bs = none → exec (.hatchWrite p) s = .next (answered s
       (let t := (applyAny p.req o e bs (busyAll (x 2) (objIslands o e))).clampedBy p.req (o.clamps bs)
        done t { code := if o.clamps bs then 1 else 0, data := [], length := o.desc.len, applied := true,
                 notBefore := if o = .sourceMask then s.now + 250 else 0, readBack := none })))) ∧
  ((∀ (res : HatchResult) (s : State), mgmtServes s → s.hatch.busy → s.hatch.result = some res →
     s.hatch.releasing = false → ∃ t, exec .hatchComplete s = .next t ∧ t.hatch.busy = false ∧
       t.hatch.valid = true ∧ t.hatch.code = res.code ∧ t.hatch.length = res.length ∧ res.notBefore ≤ t.now ∧
       t.hatch.owner = s.hatch.owner ∧
       t.hatch.data = (if s.hatch.opcode ≠ 2 ∧ (res.code = 0 ∨ res.code = 2) then hatchWords res.data
         else s.hatch.data) ∧ t.dur = s.dur ∧ t.nv = s.nv ∧ t.ledger = s.ledger ∧ t.fabric = s.fabric) ∧
   (∀ (p : Port) (s : State), postedOpen s p [idManagement] → s.hatch.owner = some p.req →
     exec (.hatchDone p) s = .next (answered s { begun s [idManagement] with
       hatch := { s.hatch with timerFrom := s.now, valid := false } })) ∧
   (∀ (r : Req) (s : State), mgmtServes s → s.hatch.owner = some r → s.hatch.busy = false →
     ∃ t, exec .hatchTimeout s = .next t ∧ t.hatch = { Hatch.initial with timeout := s.hatch.timeout } ∧
       s.hatch.timerFrom + 10000 * s.hatch.timeout ≤ t.now ∧
       (∀ q, (t.conduct.get q).abortLog = { valid := true, former := ownerCode (some r), opcode := s.hatch.opcode,
                                            applied := s.hatch.applied, cause := 2 }) ∧
       t.portA.mgmtEvent.getLsbD 1 = true ∧ t.portB.mgmtEvent.getLsbD 1 = true ∧ t.dur = s.dur ∧ t.nv = s.nv ∧
       t.ledger = s.ledger))

/-! ### Work queues (WQ) -/

/-- QUEUE_PROD takes a value that the ring accepts and counts any other with reason NAME; QUEUE_CONFIG of an idle
DISABLED queue takes its fields, its size clamped to 4 to 16 (R102, R401, R403, R411, R443). QUEUE_CONTROL: ENABLE 1
runs a DISABLED queue, its sample at TAKE, lets a DRAINING one run on and leaves a STOPPED one stopped; ENABLE 0 drops
what was fetched and drains, and a queue without taken items is DISABLED at once (R441, R442, R445, R449). The end of a
drain is announced once IDLE reads 1 (R441, as the model reads it: log entry 82). -/
def Obligations.QueuesAreConfiguredAndEnabled : Prop :=
  ((∀ (p : Port) (q : Fin 256) (v : Word) (s : State), postedOpen s p [idQueue (q.val / 16)] →
     s.linkReaches p (s.queue q).room →
     let w := begun s [idQueue (q.val / 16)]
     let n := v.toNat % 2 ^ 16
     (prodAccepts (s.queue q) n = true → exec (.queueProdWrite p q v) s = .next (answered s
       (if (s.queue q).prod = n then w else w.modQueue q fun d => { d with prod := n }))) ∧
     (prodAccepts (s.queue q) n = false → exec (.queueProdWrite p q v) s = .next (answered s
       (w.ignoredWrite p.req 0 (queueOffset q 0x0C) rName)))) ∧
   (∀ (r : Req) (q : Fin 256) (v : Word) (s : State),
     writeOpen s r [idQueue (q.val / 16)] [idQueue (q.val / 16)] → linkMay s r (s.queue q).room →
     judgeWrite s r false (.queueConfig q) 0 (valueBytes r (.queueConfig q) 24 v.toNat) = none →
     exec (.queueConfigWrite r q v) s = .next (answered s
       ((setQueueConfig q v.toNat (begun s [idQueue (q.val / 16)])).clampedBy r
         (clamp 4 16 (bits v.toNat 4 0) != bits v.toNat 4 0))))) ∧
  (∀ (r : Req) (q : Fin 256) (idle : Bool) (s : State),
     writeOpen s r [idQueue (q.val / 16)] [idQueue (q.val / 16)] → linkMay s r (s.queue q).room →
     let w := begun s [idQueue (q.val / 16)]
     let x := if (s.queue q).evtIdleEn = idle then w else w.modQueue q fun d => { d with evtIdleEn := idle }
     (judgeWrite s r false (.queueControl q) 0 (valueBytes r (.queueControl q) 2 (1 + at1 idle 1)) = none →
       ((s.qvol q).state = .disabled → exec (.queueEnable r q idle) s = .next (answered s (x.modQVol q fun v => { v with
         state := .running, recovered := false, sampled := (x.queue q).take, lastTick := s.now,
         specBlocked := [] }))) ∧
       ((s.qvol q).state = .draining → exec (.queueEnable r q idle) s = .next (answered s (x.modQVol q fun v =>
         { v with state := .running, recovered := false }))) ∧
       ((s.qvol q).state = .stopped → exec (.queueEnable r q idle) s = .next (answered s (x.modQVol q fun v =>
         { v with recovered := false })))) ∧
     (judgeWrite s r false (.queueControl q) 0 (valueBytes r (.queueControl q) 2 (at1 idle 1)) = none →
       ((s.qvol q).state ≠ .disabled → (x.queue q).items ≠ [] → exec (.queueDisable r q idle) s = .next (answered s
         ((dropFetched q x).modQVol q fun v => { v with state := .draining }))) ∧
       ((s.qvol q).state ≠ .disabled → (x.queue q).items = [] → exec (.queueDisable r q idle) s = .next (answered s
         (drainEnd q ((dropFetched q x).modQVol q fun v => { v with state := .draining }))))))

/-- QUEUE_ACTION: INVALIDATE drops what was fetched and marks TAKE, RESUME runs a STOPPED queue with taking held back by
the completions that are held, and meets again a fault held at TAKE; RETRACT and ZERO_INDEX change the indices of a
DISABLED queue and are counted with reason ACCESS otherwise (R422, R445, R446, R545, R547, R843). The entry window of an
on-chip ring: a write of its last word stores the staged entry at ENTRY_SLOT, which advances; a read of its first word
returns the first word of the entry there (R403, R407, R408). -/
def Obligations.QueueActionsAndEntryWindow : Prop :=
  (∀ (p : Port) (q : Fin 256) (s : State), postedOpen s p [idQueue (q.val / 16)] →
     s.linkReaches p (s.queue q).room →
     let w := begun s [idQueue (q.val / 16)]
     let refused := answered s (w.ignoredWrite p.req 0 (queueOffset q 0x2C) rAccess)
     exec (.invalidate p q) s = .next (answered s ((dropFetched q w).modQVol q fun v =>
       { v with invalIndex := (s.queue q).take, invalValid := true })) ∧
     ((s.qvol q).state ≠ .stopped → exec (.resume p q) s = .next (answered s w)) ∧
     (roomToDirty s → (s.qvol q).state = .stopped → exec (.resume p q) s = .next (answered s (checkHeadFault q
       ((w.modQueue q fun d => { d with items := d.items.map fun it => { it with
         held := it.held || ((s.queue q).items.any Item.held && (itemEnding w q it).isSome) } }).modQVol q fun v =>
           { v with state := .running })))) ∧
     ((s.qvol q).state = .disabled → exec (.retract p q) s = .next (answered s
       ((dropFetched q w).modQueue q fun d => { d with prod := d.take }))) ∧
     ((s.qvol q).state ≠ .disabled → exec (.retract p q) s = .next refused) ∧
     ((s.qvol q).state = .disabled → queueIdle s q = true → exec (.zeroIndex p q) s = .next (answered s
       (w.modQueue q fun d => { d with prod := 0, cons := 0, take := 0 }))) ∧
     ((s.qvol q).state ≠ .disabled ∨ queueIdle s q = false → exec (.zeroIndex p q) s = .next refused)) ∧
  (∀ (p : Port) (q : Fin 256) (s : State), s.linkReaches p (s.queue q).room → (s.queue q).onchip = true →
     (∀ v : Word, postedOpen s p [idQueue (q.val / 16)] → roomToDirty s →
       let x := (begun s [idQueue (q.val / 16)]).modQVol q fun y =>
         { y with staging := y.staging.set p (setAt (y.staging.get p) 15 v) }
       let slot := (x.qvol q).entrySlot.get p
       exec (.entryWindowCommit p q v) s = .next (answered s ((writeRing ((s.queue q).ringOffset slot)
         (((x.qvol q).staging.get p).flatMap fun y => leBytes 4 y.toNat) x).modQVol q fun y =>
           { y with entrySlot := y.entrySlot.set p ((s.queue q).succ slot) }))) ∧
     (readOpen s p [idQueue (q.val / 16)] [queueOffset q 0x40 / 4096] →
      let entry := Memory.readN s.dur.ring ((s.queue q).ringOffset ((s.qvol q).entrySlot.get p)) 64
      let x := (cleared s).modQVol q fun y => { y with
        latch := y.latch.set p ((List.range 16).map fun k => BitVec.ofNat 32 (fieldAt entry (4 * k) 4)) }
      exec (.entryWindowSnapshot p q) s = .next (answered s
        (x.emit (.readWord p (BitVec.ofNat 32 (latchWord x p q 0)))))))

/-- POLL_TICK of a RUNNING queue comes at its interval after the last one and samples PROD; the end of a fetched entry's
read leaves its fetch: an entry of data joins the window, one that was dropped does not, and a host error is a fault of
the fetch (R415, R418, R422, R533). -/
def Obligations.PollAndFetch : Prop :=
  (∀ (q : Fin 256) (s : State), islandsReady s [idQueue (q.val / 16)] → (s.qvol q).state = .running →
    ∃ t, exec (.pollTick q) s = .next t ∧ (t.qvol q).sampled = (s.queue q).prod ∧ (t.qvol q).lastTick = t.now ∧
      (s.qvol q).lastTick + 8 * (s.queue q).interval ≤ t.now ∧ t.nv = s.nv ∧ t.ledger = s.ledger ∧
      t.keeper = s.keeper) ∧
  (∀ (q : Fin 256) (slot : Nat) (f : Fetch) (rest : List Fetch) (s : State),
    islandsReady s [idQueue (q.val / 16)] →
    ringReadWaits s q slot < ((s.qvol q).fetches.filter fun f => f.slot == slot && f.sent).length →
    takeFirst (fun f => f.slot == slot && f.sent) (s.qvol q).fetches = some (f, rest) →
    let x := (begun s [idQueue (q.val / 16)]).modQVol q fun v => { v with fetches := rest }
    (∀ res, f.dropped = true → exec (.ringFetchComplete q slot res) s = .next (answered s (idleCheck q x))) ∧
    (∀ bytes, f.dropped = false → exec (.ringFetchComplete q slot (.data bytes)) s = .next (answered s
      (x.modQVol q fun v => { v with window := v.window ++
        [{ slot := slot, owned := f.owned, bytes := bytesAt bytes 0 64, fault := none }] }))) ∧
    (∀ res, f.dropped = false → (∀ bytes, res ≠ .data bytes) →
      exec (.ringFetchComplete q slot res) s = .next (answered s (fetchFault q slot f.owned fHostError 0xFF x))))

/-- ENGINE_SERVE serves the queue that its engine serves: it takes the entry at TAKE where no item has a step to issue,
or issues the next step of an item; an unknown KIND ends with BAD_KIND at step 0, an entry that fails a check with that
check's code, and an item that a power failure left before its first step as Table WI-14 gives (R428, R440, R454, R459,
Table WI-2). COMPLETION_WRITE of the first taken item, once it has ended: the on-chip ring holds its completion image,
and CONS advances; in host memory the image is passed to the queue's port (R434, R436, Table WQ-1). -/
def Obligations.EngineServesAndCompletes : Prop :=
  (∀ (i : Fin 16) (q : Nat) (f : Fetched) (s : State), islandsReady s [idQueue i] → servedQueue s i = some q →
     nextStep s q = none →
     (s.qvol q).window.find? (fun f => f.slot == (s.queue q).take && f.owned) = some f →
     exec (.engineServe i) s = .next (answered s (checkHeadFault q (fetchMore q
       (((begun s [idQueue i]).modQueue q fun d => { d with
         items := d.items ++ [Item.taken f.slot f.bytes s.ledger.nextPiece]
         take := (s.queue q).succ (s.queue q).take }).modQVol q fun v =>
           { v with window := v.window.filter fun g => g.slot != f.slot }))))) ∧
  (∀ (i : Fin 16) (q : Nat) (it : Item) (s : State), serves s q it.kind it → q / 16 = i →
     let w := begun s (stepIslands s q it)
     exec (.engineServe i) s = .next (answered s (serveItem q it w)) ∧
     (it.wait = .nothing →
       (it.kind = 0 ∨ 11 < it.kind → serveItem q it w = w.modItem q it.slot fun it => { it with
         ending := some { code := 3, result := leBytes 8 0, step := 0 }, issued := true }) ∧
       (∀ code, it.kind ≠ 0 → it.kind ≤ 11 → it.step = 0 → entryCheck w q it = some code →
         serveItem q it w = endItem q it.slot code (refusedResult it) w) ∧
       (∀ code result, it.kind ≠ 0 → it.kind ≤ 11 → it.step = 0 → entryCheck w q it = none → it.recovered = true →
         lostProgress it.started = some (code, result) → serveItem q it w =
           endItem q it.slot code result (w.modItem q it.slot fun _ => it.started)))) ∧
  (∀ (q : Fin 256) (it : Item) (rest : List Item) (e : Ending) (s : State),
     islandsReady s [idQueue (q.val / 16)] → roomToDirty s → (s.queue q).items = it :: rest →
     (s.qvol q).state ≠ .disabled → (it.held = true → (s.qvol q).state ≠ .stopped) → it.wait ≠ .write →
     itemEnding s q it = some e →
     let w := begun s [idQueue (q.val / 16)]
     ((s.queue q).onchip = true → ∃ t, exec (.completionWrite q) s = .next t ∧
       t = answered s (finishCompletion q it e (writeRing ((s.queue q).ringOffset it.slot) (completionBytes it e) w)) ∧
       t.dur.ring = Memory.writeN s.dur.ring ((s.queue q).ringOffset it.slot) (completionBytes it e) ∧
       (t.queue q).cons = (s.queue q).succ (s.queue q).cons ∧ t.nv = s.nv ∧ t.ledger = s.ledger ∧
       t.keeper = s.keeper) ∧
     (∀ x a, (s.queue q).onchip = false → (s.port (s.queue q).port).canIssue = true →
       translate { room := (s.queue q).room, iova := (s.queue q).entryIova it.slot, write := true,
                   use := .completion q it.slot } 64 w = (x, .hit a) →
       exec (.completionWrite q) s = .next (answered s (finishCompletion q it e (x.passToLink (s.queue q).port
         (.completion q it.slot e.step it.tag it.kind ((s.queue q).entryIova it.slot) a (completionBytes it e)))))) ∧
     ((s.queue q).onchip = false → (s.port (s.queue q).port).canIssue = false → (s.qvol q).state ≠ .draining →
       exec (.completionWrite q) s = .next (answered s w)))

/-! ### Work items (WI) -/

/-- The steps of an IPI_MULTICAST, ROUTE_BATCH and SWING: a list or range is raised group by group, a bitmap and records
are read first, a batch or Swing of no records ends at once, and a Swing waits while another holds the staging area
(R462, R464, R470, R475, R476). Data that an item waited for are taken with its next step: a bitmap's group is raised,
and records are applied or staged in order; an ordered record that is not refused is applied and counted, one that is
refused is counted, and one out of order ends the batch (R466, R467, R472). -/
def Obligations.RouteItemsStep : Prop :=
  (∀ (q : Fin 256) (it : Item) (s : State), let w := itemBegun s q it
    (stepsOn s q 1 it → exec (.ipiMulticast q) s = .next (answered s
      (if it.step = 0 ∧ it.byte 17 = 2 then
        requestRead q it.slot (w.modItem q it.slot fun it => { it with step := 1 })
      else ipiGroup q it.begun w))) ∧
    (stepsOn s q 2 it → exec (.routeBatch q) s = .next (answered s
      (let it' := it.begun
       if it'.count = 0 then endItem q it.slot (okCode it'.clamped) (leBytes 8 0) w
       else requestRead q it.slot (w.modItem q it.slot fun it => { it with step := 1 })))) ∧
    (stepsOn s q 3 it → (stagedSwing s).any (fun p => p.1 == q.val) = false →
      (it.step = 0 → it.begun.count = 0 → exec (.swing q) s = .next (answered s
        (endItem q it.slot (okCode it.begun.clamped) (leBytes 8 s.dur.g.epoch) w))) ∧
      (it.step = 0 → it.begun.count ≠ 0 → s.dur.swing.owner.isSome → ∃ t, exec (.swing q) s = .next t ∧
        t.dur.swing.waiting = s.dur.swing.waiting ++ [(q.val, it.slot)] ∧
        t.dur.swing.owner = s.dur.swing.owner ∧ t.dur.sources = s.dur.sources ∧ t.ledger = s.ledger) ∧
      (((it.step = 0 ∧ it.begun.count ≠ 0 ∧ s.dur.swing.owner = none) ∨ (it.step = 1 ∧ it.count ≠ 0)) →
        exec (.swing q) s = .next (answered s (requestRead q it.slot
          ((w.modDur fun d => { d with swing := { d.swing with owner := some (q.val, it.slot) } }).modItem q it.slot
            fun it => { it with step := 2 })))) ∧
      (it.step = 2 → it.pos < it.count → exec (.swing q) s = .next (answered s (requestRead q it.slot w))))) ∧
  ((∀ (q : Fin 256) (it : Item) (bytes : List Byte) (s : State), it.wait = .arrived bytes →
    let x := (begun s (stepIslands s q it)).modItem q it.slot fun it => { it with wait := .nothing }
    (serves s q 1 it → exec (.ipiMulticast q) s = .next (answered s (itemData q it bytes x))) ∧
    (serves s q 2 it → exec (.routeBatch q) s = .next (answered s (itemData q it bytes x))) ∧
    (serves s q 3 it → (stagedSwing s).any (fun p => p.1 == q.val) = false →
      exec (.swing q) s = .next (answered s (itemData q it bytes x)))) ∧
   (∀ (q slot : Nat) (it : Item) (b : List Byte) (s : State),
    (s.queue q).items.find? (fun it => it.slot == slot) = some it →
    let n := (decodeRecord b).1
    let refusal := recordRefusal s (s.queue q).room n (decodeRecord b).2
    ((∃ l, it.lastSn = some l ∧ n.sn ≤ l) →
      batchRecord q slot (s, true) b = (endItem q slot 0x14 (countsResult it) s, false)) ∧
    ((∀ l, it.lastSn = some l → l < n.sn) →
      (refusal = none → batchRecord q slot (s, true) b = ((applyRoute n s).modItem q slot fun it => { it with
        pos := it.pos + 1, lastSn := some n.sn, applied := it.applied + 1 }, true)) ∧
      (refusal ≠ none → batchRecord q slot (s, true) b = (s.modItem q slot fun it => { it with
        pos := it.pos + 1, lastSn := some n.sn, refused := it.refused + 1 }, true)))))

/-- The commit of a Swing, once the engine serves it, advances the epoch by one, applies its staged routes in order and
completes with the new epoch, while the staging area stays with it; the end of its fold releases the staging area, to
the Swing that waits first for it (R475, R478, R483). -/
def Obligations.SwingCommitsAtOneEpoch : Prop :=
  (∀ (q : Nat) (it : Item) (s : State), stagedSwing s = some (q, it) → servedQueue s (q / 16) = some q →
    islandsReady s (idQueue (q / 16) :: (List.range 32).map idBank) → roomToDirty s →
    let w := begun s (idQueue (q / 16) :: (List.range 32).map idBank)
    ∃ t, exec .swingCommit s = .next t ∧ t = answered s (swingCommit q it w) ∧
      t.dur.g.epoch = s.dur.g.epoch + 1 ∧ t.dur.swing.staged = [] ∧ t.dur.swing.folding = true ∧
      t.dur.swing.owner = s.dur.swing.owner ∧ t.dur.sources = (s.dur.swing.staged.foldl (fun s n => applyRoute n s)
        (w.modG fun g => { g with epoch := g.epoch + 1 })).dur.sources ∧
      t.nv = s.nv ∧ t.ledger = s.ledger ∧ t.keeper = s.keeper) ∧
  (∀ s : State, s.running → s.dur.swing.folding = true →
    exec .swingFoldEnd s = .next (answered s (releaseStaging (cleared s))) ∧
    ∃ t, exec .swingFoldEnd s = .next t ∧ t.dur.swing.owner = s.dur.swing.waiting.head? ∧
      t.dur.swing.waiting = s.dur.swing.waiting.tail ∧ t.dur.swing.folding = false ∧ t.dur.swing.staged = [] ∧
      t.dur.sources = s.dur.sources ∧ t.nv = s.nv ∧ t.ledger = s.ledger)

/-- TIMER_ARM sets its timer, TIMER_CANCEL clears it, and both complete with whether it was armed; an armed timer
raises its source at its time, and a periodic one is due again one period later (R488 to R490). -/
def Obligations.TimersRun : Prop :=
  (∀ (q : Fin 256) (it : Item) (s : State), let it' := it.begun
    let result := leBytes 4 (b2n (timerArmed s (it.byte 16))) ++ leBytes 4 0
    (stepsOn s q 4 it → exec (.timerArm q) s = .next (answered s (endItem q it.slot (okCode it'.clamped) result
      (setTimer (it.byte 16)
        { due := s.now + 1000 * max 1 (fieldAt it.entry 20 4)
          period := if it.byte 17 = 1 then some (1000 * max 10 (fieldAt it.entry 24 4)) else none }
        (itemBegun s q it))))) ∧
    (stepsOn s q 5 it → exec (.timerCancel q) s = .next (answered s (endItem q it.slot (okCode it'.clamped) result
      (setTimer (it.byte 16) .off (itemBegun s q it)))))) ∧
  (∀ (k : Fin 256) (s : State), islandsReady s [idQueue (k.val / 16)] →
    timerArmed s k = true → s.durab.timersHeld = false →
    let v := mget Timer.off s.dur.timers k
    exec (.timerExpiry k) s = .next (answered s ((setTimer k
      (match v.period with
      | some p => { v with due := v.due + p }
      | none => Timer.off) ((begun s [idQueue (k.val / 16)]).elapseTo v.due)).raise (0x101200 + k))))

/-- The steps of a LEDGER_APPEND, FENCE, HOST_STORE and CHECKPOINT: an append of no bytes ends at once, an immediate one
takes its data from the entry, any other reads them, and one with its data puts its pieces in the stream, or is denied by
a closed Ledger; a FENCE of QUEUE scope ends once its earlier items have completed, and one of LEDGER scope alone waits
for its pieces; a store of no bytes ends, one behind other items waits for them, and the first of its queue is passed to
its port; a checkpoint waits for its root (R492, R493, R496, R497, R500, R501, R576). -/
def Obligations.MemoryItemsStep : Prop :=
  (∀ (q : Fin 256) (it : Item) (s : State), let it' := it.begun
    let w := itemBegun s q it
    let pieces := piecesOf s.ledger.nextPiece (s.queue q).port (appendOffset it) it.data
      (List.replicate (appendLength it) true) (some (q.val, it.slot))
    (stepsOn s q 6 it → appendLength it = 0 → exec (.ledgerAppend q) s = .next (answered s
      (endItem q it.slot (okCode it'.clamped) (leBytes 4 (appendOffset it) ++ leBytes 4 0) w))) ∧
    (stepsOn s q 6 it → appendLength it ≠ 0 → it.step = 0 → exec (.ledgerAppend q) s = .next (answered s
      (if bit it.flags 2 then w.modItem q it.slot fun x => { x with
        step := 1, pos := appendLength it, count := appendLength it, data := bytesAt x.entry 32 (appendLength it) }
      else requestRead q it.slot (w.modItem q it.slot fun x => { x with step := 1, count := appendLength it })))) ∧
    (stepsOn s q 6 it → appendLength it ≠ 0 → it.step ≠ 0 →
      let x := w.modItem q it.slot fun x => { x with
        step := 3, issued := true, wait := .pieces, denied := s.ledger.closed }
      exec (.ledgerAppend q) s = .next (answered s
        (if s.ledger.closed then x.modLedger fun l => { l with
          denied := l.denied.set (s.queue q).port (satAdd 64 (l.denied.get (s.queue q).port) pieces.length) }
        else enterStream pieces x))) ∧
    (stepsOn s q 7 it → exec (.fence q) s = .next (answered s
      (if bit (it.byte 16) 0 then
        if stepGoesOn s q { it' with wait := .earlier } then
          endItem q it.slot (if it.denied then 0x11 else 1) (leBytes 8 0) w
        else waitEarlier q it.slot w
      else if bit (it.byte 16) 1 then w.modItem q it.slot fun x =>
        { x with step := 1, issued := true, wait := .pieces }
      else endItem q it.slot (okCode it'.clamped) (leBytes 8 0)
        (w.modItem q it.slot fun x => { x with step := 1 }))))) ∧
  (∀ (q : Fin 256) (it : Item) (s : State), let it' := it.begun
    let w := itemBegun s q it
    (stepsOn s q 8 it → storeLength it = 0 → exec (.hostStore q) s = .next (answered s
      (endItem q it.slot (okCode it'.clamped) (leBytes 8 0) w))) ∧
    (stepsOn s q 8 it → storeLength it ≠ 0 → isHead s q it = false → exec (.hostStore q) s = .next (answered s
      (waitEarlier q it.slot w))) ∧
    (stepsOn s q 8 it → storeLength it ≠ 0 → isHead s q it = true →
      let y := w.modItem q it.slot fun x => { x with step := 2 }
      ((s.port (s.queue q).port).canIssue = false → exec (.hostStore q) s = .next (answered s
        ((y.holdEngine q it.slot).modItem q it.slot fun x => { x with wait := .port }))) ∧
      (∀ x a, (s.port (s.queue q).port).canIssue = true →
        translate { room := (s.queue q).room, iova := fieldAt it.entry 16 6, write := true,
                    use := .hostStore q it.slot } (storeLength it) y = (x, .hit a) →
        exec (.hostStore q) s = .next (answered s (passStore q { it' with step := 2 } a x)))) ∧
    (stepsOn s q 9 it → exec (.checkpoint q) s = .next (answered s
      (let x := w.modItem q it.slot fun x => { x with step := 2, issued := true, wait := .root }
       requestRoot { x with durab := { x.durab with ckptItems := x.durab.ckptItems ++ [(q.val, it.slot)] } }))))

/-- The steps of a ROOM_REASSIGN and XLATE_INVALIDATE: nothing to move, or a range of no pages, ends at once; 512
numbers, or the rest, are moved in ascending order, and the last step ends the item with REJECTED_SOME where a number was
refused; an invalidation waits for its fence (R504 to R509). -/
def Obligations.RoomItemsStep : Prop :=
  ∀ (q : Fin 256) (it : Item) (s : State), let it' := it.begun
    let w := itemBegun s q it
    let upto := min (reassignCount it) (it.pos + 512)
    let moved := (((List.range (upto - it.pos)).map (· + (fieldAt it.entry 20 4 + it.pos))).foldl
      (reassignOne q it.slot (it.byte 16) (it.byte 17) (it.byte 18)) w).modItem q it.slot
        fun x => { x with step := 1, pos := upto }
    (stepsOn s q 10 it → (reassignCount it = 0 ∨ it.byte 17 = it.byte 18) → exec (.roomReassign q) s =
      .next (answered s (endItem q it.slot (okCode it'.clamped) (leBytes 8 0) w))) ∧
    (stepsOn s q 10 it → reassignCount it ≠ 0 → it.byte 17 ≠ it.byte 18 →
      (it.pos + 512 < reassignCount it → exec (.roomReassign q) s = .next (answered s moved)) ∧
      (∀ x, reassignCount it ≤ it.pos + 512 → (moved.queue q).items.find? (fun x => x.slot == it.slot) = some x →
        exec (.roomReassign q) s = .next (answered s (endItem q x.slot
          (if x.refused ≠ 0 then 0x13 else okCode x.clamped) (countsResult x) moved)))) ∧
    (stepsOn s q 11 it → exec (.xlateInvalidate q) s = .next (answered s
      (if it.byte 17 = 1 ∧ fieldAt it.entry 24 4 = 0 then endItem q it.slot (okCode it'.clamped) (leBytes 8 0) w
      else invalidate (it.byte 16)
        (if it.byte 17 = 1 then some (fieldAt it.entry 18 6 / 4096, fieldAt it.entry 24 4) else none)
        (some (q.val, it.slot)) (w.modItem q it.slot fun x => { x with
          step := 2, issued := true, wait := .fence (s.xlate.issued + 1).toNat }))))

/-! ### Translation and faults (TF) -/

/-- A fault's record, where no earlier one waits and its bank has room for it, stands at HEAD with the next SEQUENCE and
the current epoch and is counted for its Room; in a full Fault Ledger it is counted as an overflow and no record changes;
either way both ports' MGMT_EVENT show FAULT (R535, R551, R552, R553). FL_CONSUME releases the oldest records of the
Fault Ledger, as many as it names and there are; a number above 4096 is clamped (R102, R554). -/
def Obligations.FaultsAreRecordedAndConsumed : Prop :=
  (∀ (r : FaultRec) (s : State), roomToDirty s → s.xlate.heldFaults = [] →
     let t := reportFault r s
     let f := s.dur.faults
     t.xlate.faultCount = mmod 0 s.xlate.faultCount r.room (satAdd 64 · 1) ∧
     t.portA.mgmtEvent.getLsbD 3 = true ∧ t.portB.mgmtEvent.getLsbD 3 = true ∧
     t.ledger = s.ledger ∧ t.nv = s.nv ∧ t.keeper = s.keeper ∧ t.dur.sources = s.dur.sources ∧
     (f.count < 4096 → t.dur.faults.count = f.count + 1 ∧ t.dur.faults.head = (f.head + 1) % 4096 ∧
       t.dur.faults.sequence = (f.sequence + 1) % 2 ^ 32 ∧ t.dur.faults.overflow = f.overflow ∧
       t.dur.faults.recs = mput .zero f.head
         { r with epoch := s.dur.g.epoch, sequence := (f.sequence + 1) % 2 ^ 32 } f.recs) ∧
     (4096 ≤ f.count → t.dur.faults.recs = f.recs ∧ t.dur.faults.count = f.count ∧
       t.dur.faults.overflow = satAdd 64 f.overflow 1)) ∧
  (∀ (r : FaultRec) (s : State), s.xlate.heldFaults ≠ [] → heldBanks s (recordFault r s) = [] →
     reportFault r s = throttleEngage [] { s with xlate := { s.xlate with heldFaults := s.xlate.heldFaults ++ [r] } }) ∧
  (∀ (r : Req) (v : Word) (s : State), writeOpen s r [idManagement] [] → roomToDirty s →
     let bs := valueBytes r .faultConsume 13 v.toNat
     judgeWrite s r false .faultConsume 0 bs = none →
     ∃ t, exec (.flConsume r v) s = .next t ∧
       t.dur.faults.count = s.dur.faults.count - min (clamp 0 4096 (leNat bs)) s.dur.faults.count ∧
       (0 < leNat bs → 0 < s.dur.faults.count → t.dur.faults.tail =
         (s.dur.faults.tail + min (clamp 0 4096 (leNat bs)) s.dur.faults.count) % 4096) ∧
       t.dur.faults.head = s.dur.faults.head ∧ t.dur.faults.overflow = s.dur.faults.overflow ∧
       t.dur.sources = s.dur.sources ∧ t.nv = s.nv ∧ t.ledger = s.ledger ∧ t.keeper = s.keeper)

/-- What a host read of an item gives: its data go to the item, whose step goes on with them, an error is a fault of path
4 with HOST_ERROR; a read that times out, not before its port's Completion Timeout has passed since its issue, ends as
one with an error (R522, R533, R534; the bounds of the Completion Timeout Values are PCI Express's: log entry 70). A
walk's table read: an entry that is not present ends the walk with NOT_PRESENT at its level, a present directory sends
the read of the next table through the Room's walk port, an error or a timeout ends it with WALK_ERROR; a walk that ended
lets its request go on and the waiting requests be granted (R62, R515, R516, R521, R522). -/
def Obligations.HostAndWalkReadsEnd : Prop :=
  ((∀ (q : Fin 256) (it : Item) (s : State), islandsReady s [idQueue (q.val / 16)] → readingItem s q = some it →
     let w := begun s [idQueue (q.val / 16)]
     (∀ bytes, exec (.hostReadComplete q (.data bytes)) s = .next (answered s (readGoesOn q
       (w.modItem q it.slot fun it => { it with wait := .arrived bytes })))) ∧
     (∀ res, (∀ bytes, res ≠ .data bytes) → exec (.hostReadComplete q res) s = .next (answered s (readGoesOn q
       (itemFault q it.slot 4 (nextRead it).1 fHostError 0xFF w))))) ∧
   (∀ (q : Nat) (it : Item) (bytes : List Byte) (s : State), serves s q it.kind it → it.wait = .arrived bytes →
     readGoesOn q s = itemData q it bytes ((busyAll s (stepIslands s q it)).modItem q it.slot
       fun it => { it with wait := .nothing })) ∧
   (∀ (q : Fin 256) (it : Item) (p : Port) (issued : Nat) (s : State),
     readIssued s (.itemRead q) = some (p, issued) →
     let x := (cleared s).elapseTo (issued + (completionTimeout (s.port p).cto).1)
     islandsReady x [idQueue (q.val / 16)] → (x.queue q).items.find? (fun it => it.wait == .readLost) = none →
     readingItem x q = some it → exec (.hostReadTimeout (.itemRead q)) s = .next (answered s
       (itemFault q it.slot 4 (nextRead it).1 fHostError 0xFF (busyAll x [idQueue (q.val / 16)])))) ∧
   (∀ (q : Fin 256) (slot : Nat) (f : Fetch) (rest : List Fetch) (p : Port) (issued : Nat) (s : State),
     readIssued s (.ringFetch q slot) = some (p, issued) →
     let x := (cleared s).elapseTo (issued + (completionTimeout (s.port p).cto).1)
     islandsReady x [idQueue (q.val / 16)] →
     ringReadWaits x q slot < ((x.qvol q).fetches.filter fun f => f.slot == slot && f.sent).length →
     takeFirst (fun f => f.slot == slot && f.sent) (x.qvol q).fetches = some (f, rest) → f.dropped = false →
     exec (.hostReadTimeout (.ringFetch q slot)) s = .next (answered s (fetchFault q slot f.owned fHostError 0xFF
       ((busyAll x [idQueue (q.val / 16)]).modQVol q fun v => { v with fetches := rest }))))) ∧
  (let ended := fun (s : State) (i : Fin 4) (w : Walk) (y : State) (out : Xlated) =>
       answered s (let z := resumeUse w.req w.stale out (endWalk i w.id y)
                   grantWaiting i (waitingRequests z i) z)
   (∀ (i : Fin 4) (id : Nat) (w : Walk) (s : State), islandsReady s [idXlate i] →
     (s.xisland i).walks.find? (fun w => w.id == id) = some w →
     (s.xisland i).walks.any (fun w => w.id == id && w.dead) = false →
     let x := begun s [idXlate i]
     (∀ bytes, bit (fieldAt bytes 0 8) 0 = false →
       exec (.walkReadComplete i id (.data bytes)) s = .next (ended s i w x (.fault fNotPresent w.level))) ∧
     (∀ res, (∀ bytes, res ≠ .data bytes) →
       exec (.walkReadComplete i id res) s = .next (ended s i w x (.fault fWalkError 0xFF))) ∧
     (∀ bytes, bit (fieldAt bytes 0 8) 0 = true → (w.level = 2 ∨ w.level = 3) →
       (s.port (s.xroom w.req.room).walkPort).canIssue = true →
       ∃ t, exec (.walkReadComplete i id (.data bytes)) s = .next t ∧
         t.out = [.memRead (s.xroom w.req.room).walkPort
           (entryAddr (w.level - 1) (pteAddr (fieldAt bytes 0 8)) w.req.iova) 8] ∧
         t.dur = s.dur ∧ t.nv = s.nv ∧ t.ledger = s.ledger ∧ t.fabric = s.fabric)) ∧
   (∀ (i : Fin 4) (id : Nat) (w : Walk) (p : Port) (issued : Nat) (s : State),
     readIssued s (.walkRead i id) = some (p, issued) →
     let x := (cleared s).elapseTo (issued + (completionTimeout (s.port p).cto).1)
     islandsReady x [idXlate i] → (x.xisland i).walks.find? (fun w => w.id == id) = some w →
     exec (.hostReadTimeout (.walkRead i id)) s =
       .next (ended s i w (busyAll x [idXlate i]) (.fault fWalkError 0xFF))))

/-- XLATE_INV and InvalidateRange invalidate a Room, or a range of its pages, with a new fence; a Room that the link
may not touch is counted; a range of no pages does nothing (R526, R527, Table TF-10). INVALIDATION_FENCE: the oldest
fence whose walks have ended completes and raises source 0x101071, or ends the item that asked for it; a fence whose
walks go on stays (R528, R529, R532). -/
def Obligations.InvalidationsAreFenced : Prop :=
  ((∀ (p : Port) (v : Word) (s : State), postedOpen s p [idManagement] →
     let w := begun s [idManagement]
     exec (.xlateInv p v) s = .next (answered s
       (if s.linkReaches p (v.toNat % 16) then invalidate (v.toNat % 16) none none w
       else w.ignoredWrite p.req 0 0x6000 rAccess))) ∧
   (∀ (r : Req) (rec : List Byte) (s : State), dictOpen s r [] →
     judgeWrite s r false .invalidateRange 0 (bytesAt rec 0 12) = none →
     let bs := bytesAt rec 0 12
     exec (.invalidateRange r rec) s = .next (answered s
       (if fieldAt bs 8 4 = 0 then cleared s
       else invalidate (fieldAt bs 0 1) (some (fieldAt bs 1 6 / 4096, fieldAt bs 8 4)) none (cleared s)))) ∧
   (∀ (room : Nat) (range : Option (Nat × Nat)) (item : Option (Nat × Nat)) (s : State),
     let t := invalidate room range item s
     t.xlate.issued = s.xlate.issued + 1 ∧ t.dur = s.dur ∧ t.nv = s.nv ∧ t.ledger = s.ledger ∧
       ∃ f : Fence, t.xlate.fences = s.xlate.fences ++ [f] ∧ f.number = (s.xlate.issued + 1).toNat ∧ f.room = room ∧
         f.item = item)) ∧
  (∀ (f : Fence) (rest : List Fence) (s : State), s.xlate.fences = f :: rest →
     islandsReady s [idXlate (f.room % 4)] →
     let w := begun s [idXlate (f.room % 4)]
     let x := { w with xlate := { w.xlate with fences := rest, done := s.xlate.done + 1 } }
     (fenceReady s f = true → f.item = none →
       exec .invalidationFence s = .next (answered s (x.raiseFrom (idXlate (f.room % 4)) 0x101071))) ∧
     (∀ q slot it, fenceReady s f = true → f.item = some (q, slot) →
       (s.queue q).items.find? (fun it => it.slot == slot && it.kind == 11) = some it →
       exec .invalidationFence s = .next (answered s
         (endItem q it.slot (okCode it.clamped) (leBytes 8 0) x))) ∧
     (fenceReady s f = false → exec .invalidationFence s = .next (answered s (cleared s))))

/-! ### The Ledger (LG) -/

/-- A BAR4 write with RDY 1 to segments the port reaches joins its stream as one piece for each line with an enabled
byte; with RDY 0 it is counted as not ready, and one to a closed or unreached Ledger as denied; no byte changes by
these; while the port's staging buffer is full it waits, and one with no enabled byte changes nothing (R286, R559, R562,
R567, R724). A BAR4 read returns the Ledger's bytes, poisoned where a line is uncorrectable, once every earlier piece of
its port has taken effect, here where none waits; with RDY 0, a closed Ledger, a halted island or a segment out of reach
it returns zeros, and beyond the window it is an Unsupported Request (R559, R564, R566, R588, R724). -/
def Obligations.LedgerIsReadAndWritten : Prop :=
  (∀ (p : Port) (h : HostWrite) (s : State), s.powered → (s.port p).linkUp →
     (h.enables.any id = false → exec (.bar4Write p h) s = .next (cleared s)) ∧
     (h.enables.any id → h.offset + h.data.length ≤ 2 ^ 26 →
       (s.keeper.rdy = true → stagingFull s p = true → exec (.bar4Write p h) s = .next (cleared s)) ∧
       (s.keeper.rdy = true → stagingFull s p = false → s.ledger.closed = false →
         reachesSegments s p h.offset h.data.length = true → exec (.bar4Write p h) s = .next (answered s (enterStream
           (piecesOf s.ledger.nextPiece p h.offset h.data h.enables none) (cleared s)))) ∧
       (s.keeper.rdy = false → exec (.bar4Write p h) s = .next { s with
         out := [], ledger := { s.ledger with
           notReady := s.ledger.notReady.set p (satAdd 64 (s.ledger.notReady.get p) 1) } }) ∧
       (s.keeper.rdy = true → stagingFull s p = false →
         s.ledger.closed = true ∨ reachesSegments s p h.offset h.data.length = false →
         exec (.bar4Write p h) s = .next { s with
           out := [], ledger := { s.ledger with
             denied := s.ledger.denied.set p (satAdd 64 (s.ledger.denied.get p) 1)
             dropped := s.ledger.dropped.all (· ||| BitVec.ofNat 2 (2 ^ p.num)) } }))) ∧
  (∀ (p : Port) (off len : Nat) (s : State), s.powered → (s.port p).linkUp →
     (2 ^ 26 < off + len → exec (.bar4Read p off len) s = .next { s with out := [.unsupportedRequest p] }) ∧
     (off + len ≤ 2 ^ 26 →
       (s.keeper.rdy = false ∨ s.ledger.closed = true ∨ reachesSegments s p off len = false →
         exec (.bar4Read p off len) s = .next { s with out := [.readBytes p (List.replicate len 0) false] }) ∧
       (s.keeper.rdy = true → s.ledger.closed = false → reachesSegments s p off len = true →
         exec (.bar4Read p off len) s = .next (answered s (ledgerFlow ((cleared s).modLedger fun l =>
           { l with reads := l.reads ++ [(p, off, len, l.nextPiece)] }))) ∧
         (s.ledger.stream = [] → s.ledger.reads = [] →
           (s.running → s.clocked (idLink p) = true → s.clocked (idLedger (off / 4096 % 4)) = true →
             ∃ t, exec (.bar4Read p off len) s = .next t ∧ t.ledger.mem = s.ledger.mem ∧ t.ledger.reads = [] ∧
               t.nv = s.nv ∧ t.dur = s.dur ∧ t.out = [.readBytes p (Memory.readN s.ledger.mem off len)
                 ((linesOf off len).any fun l => decide (l ∈ s.ledger.bad))]) ∧
           (idLedger (off / 4096 % 4) ∈ s.dap.halted →
             ∃ t, exec (.bar4Read p off len) s = .next t ∧ t.ledger = s.ledger ∧
               t.out = [.readBytes p (List.replicate len 0) false])))))

/-- LEDGER_FENCE: the read waits with the pieces of its port before it, and once every one of them is persistent, here
where none is left, returns DONE with the requester's DROPPED bits and clears them; a piece that persists leaves its
island, is counted for its port, and no byte changes by it (R571, R574, Table LG-4). -/
def Obligations.PersistenceAndFence : Prop :=
  (∀ (p : Port) (s : State), readOpen s p [idLedger 0, idLedger 1, idLedger 2, idLedger 3] [7] →
    let x := ledgerFlow ((cleared s).modLedger fun l => { l with
      fenceCount := l.fenceCount.set p (satAdd 64 (l.fenceCount.get p) 1) })
    exec (.ledgerFenceRead p) s = .next (answered s (fenceReadsDone (x.modLedger fun l => { l with
      fenceReads := l.fenceReads ++ [(Reader.whole p, l.nextPiece)] }))) ∧
    (s.ledger.stream = [] → s.ledger.inbox = [] → s.ledger.fenceReads = [] → s.ledger.reads = [] →
      ∃ t, exec (.ledgerFenceRead p) s = .next t ∧
        t.out = [.readWord p (BitVec.ofNat 32 (1 + 2 * (s.ledger.dropped.get p.req).toNat))] ∧
        t.ledger.dropped = s.ledger.dropped.set p.req 0 ∧ t.ledger.fenceReads = [] ∧
        t.ledger.mem = s.ledger.mem ∧ t.nv = s.nv ∧ t.dur = s.dur)) ∧
  (∀ (i : Fin 4) (x : Piece) (rest : List Piece) (s : State), islandsReady s [idLedger i] →
    takeFirst (fun x => ledgerIsland x.line == i.val) s.ledger.inbox = some (x, rest) →
    (exec (.piecePersist i) s = .next (answered s (fenceReadsDone (ledgerFlow (persisted x
      ((begun s [idLedger i]).modLedger fun l => { l with inbox := rest })))))) ∧
    (s.ledger.stream = [] → ∃ t, exec (.piecePersist i) s = .next t ∧ t.ledger.mem = s.ledger.mem ∧
      t.ledger.inbox = rest ∧
      t.ledger.persisted.get x.port = satAdd 64 (s.ledger.persisted.get x.port) 1 ∧ t.dur = s.dur ∧ t.nv = s.nv))

/-- LEDGER_COPY passes the lowest backlogged line of its island, with its bytes, to the port of the host mirror once
its address is known. PAGE_MOVE puts a logical page, whose physical page has taken 2^20 line writes more than its
island's average, on a free physical page that has taken fewer, and no other; PAGE_RETIRE puts one on a spare; no byte of
the Ledger changes by any of them, and WEAR_LOW is set where the island runs short by it (R579, R580, R590, R592,
R593). -/
def Obligations.LedgerCopyAndWear : Prop :=
  (∀ (i : Fin 4) (line a : Nat) (x : State) (s : State), islandsReady s [idLedger i] →
    s.dur.g.hostMirror.enable = true → (s.port s.dur.g.hostMirror.port).canIssue = true →
    s.ledger.backlog.find? (fun l => ledgerIsland l == i.val && isCopied s l && decide (l ∉ s.ledger.bad)) =
      some line → line ∉ s.ledger.copying →
    translate { room := s.dur.g.hostMirror.room, iova := copyIova s.dur.g.hostMirror line, write := true,
                use := .ledgerCopy i line } 64 (begun s [idLedger i]) = (x, .hit a) →
    exec (.ledgerCopy i) s = .next (answered s ((x.modLedger fun l => { l with
      backlog := l.backlog.filter (· != line), copying := l.copying.filter (· != line) }).passToLink
        x.dur.g.hostMirror.port (.ledgerCopy i line a (Memory.readN x.ledger.mem (64 * line) 64))))) ∧
  (∀ (i : Fin 4) (k : Fin 4096) (n : Fin 4352) (s : State), islandsReady s [idLedger i] →
    (pageFree s.ledger i n = true → wornAgainst s.ledger i k n = true →
      ∃ t, exec (.pageMove i k n) s = .next t ∧ t.ledger.mem = s.ledger.mem ∧ t.ledger.spares = s.ledger.spares ∧
        t.ledger.pageMap = mput k.val (4096 * i + k) n s.ledger.pageMap ∧ t.dur = s.dur ∧ t.nv = s.nv ∧
        (wearLow t.ledger i = true → wearLow s.ledger i = false →
          ∀ r, (t.ledger.status.get r).getLsbD 1 = true)) ∧
    (wornAgainst s.ledger i k n = false → exec (.pageMove i k n) s = .next (answered s (begun s [idLedger i]))) ∧
    (pageFree s.ledger i n = true → 0 < sparePages s.ledger i →
      ∃ t, exec (.pageRetire i k n) s = .next t ∧ t.ledger.mem = s.ledger.mem ∧
        t.ledger.spares = mput 256 i.val (sparePages s.ledger i - 1) s.ledger.spares ∧
        t.ledger.pageMap = mput k.val (4096 * i + k) n s.ledger.pageMap ∧
        4352 * i.val + physicalPage s.ledger i k ∈ t.ledger.retired ∧ t.dur = s.dur ∧ t.nv = s.nv ∧
        (wearLow t.ledger i = true → wearLow s.ledger i = false →
          ∀ r, (t.ledger.status.get r).getLsbD 1 = true)))

/-! ### Durability (DU) -/

/-- MIRROR_WRITE of a dirty line puts its value in the slot that the last root's map does not name, makes it clean, and
counts its retries; a slot that failed its third retry takes a spare of its channel and is the channel's fault, and with
no spare left the line stays dirty; a clean line and one of another channel's banks are not written (R55, R599 to R601,
R638, R654). A checkpoint: AUTO_CHECKPOINT starts one and advances the epoch, or while one is in progress asks for the
next, CUT_TOKEN takes an island's cut once, and ROOT_COMMIT, with every cut taken, writes a KIND 2 root of its epoch to
both copies (R612 to R619). -/
def Obligations.LinesAndCheckpointsAreWritten : Prop :=
  (∀ (c : Fin 8) (la : Nat) (k : WriteCheck) (s : State), islandsReady s [idMirror c] → s.dur.g.mirrorEnable = true →
     la < 2 ^ 19 → nothingWaits s →
     let w := begun s [idMirror c]
     let l := lineOf la
     (l.bank / 4 ≠ c.val ∨ l ∉ s.durab.dirty → exec (.mirrorWrite c la k) s = .next (answered s w)) ∧
     (l.bank / 4 = c.val → l ∈ s.durab.dirty →
       (k.failed = false ∨ mget 32 s.mram.spares c ≠ 0 → ∃ t, exec (.mirrorWrite c la k) s = .next t ∧
         t.durab.dirty = s.durab.dirty.filter (· ≠ l) ∧ t.durab.written = insertNew s.durab.written l ∧
         mget none t.mram.slots (slotKey l.la (!s.durab.current.bit l.la)) =
           some { la := l.la, epoch := s.dur.g.epoch % 2 ^ 32, value := s.dur.only l } ∧
         t.durab.retries = mmod 0 s.durab.retries c.val (satAdd 64 · k.retries) ∧
         t.mram.spares = (if k.failed then mput 32 c.val (mget 32 s.mram.spares c - 1) s.mram.spares
           else s.mram.spares) ∧
         (k.failed || k.uncorrectable → ∀ r, (t.durab.status.get r).getLsbD 0 = true) ∧
         (k.failed || k.uncorrectable → t.portA.mgmtEvent.getLsbD 6 ∧ t.portB.mgmtEvent.getLsbD 6) ∧
         t.dur = s.dur ∧ t.nv = s.nv ∧ t.ledger = s.ledger) ∧
       (k.failed = true → mget 32 s.mram.spares c = 0 → ∃ t, exec (.mirrorWrite c la k) s = .next t ∧
         t.durab.dirty = s.durab.dirty ∧ t.mram = s.mram ∧ t.dur = s.dur ∧ t.nv = s.nv ∧ t.ledger = s.ledger))) ∧
  ((∀ s : State, s.running → s.dur.g.mirrorEnable = true → s.dur.g.autoCheckpoint ≠ 0 →
     (s.durab.ckpt = none → ∃ t, exec .autoCheckpoint s = .next t ∧ t.dur.g.epoch = s.dur.g.epoch + 1 ∧
       s.durab.lastRootAt + 1000000 * s.dur.g.autoCheckpoint ≤ t.now ∧ t.mram = s.mram ∧ t.nv = s.nv ∧
       ∃ c, t.durab.ckpt = some c ∧ c.epoch = s.dur.g.epoch + 1 ∧ c.cut = [211]) ∧
     (s.durab.ckpt.isSome → ∃ t, exec .autoCheckpoint s = .next t ∧ t.durab.ckptWanted = true ∧
       t.durab.ckpt = s.durab.ckpt ∧ t.dur = s.dur ∧ t.mram = s.mram ∧ t.nv = s.nv)) ∧
   (∀ (i : Island) (n : Nat) (c : Ckpt) (s : State), islandId i = some n → s.durab.ckpt = some c → s.running →
     s.clocked n → n ∉ c.cut → ∃ t, exec (.cutToken i) s = .next t ∧ t.dur = s.dur ∧ t.mram = s.mram ∧ t.nv = s.nv ∧
       t.ledger = s.ledger ∧
       (∃ c', t.durab.ckpt = some c' ∧ c'.cut = c.cut ++ [n] ∧ c'.epoch = c.epoch) ∧
       (∀ l ∈ s.durab.dirty, 64 ≤ n → n < 96 → l.bank = n - 64 → l ∈ t.durab.owed ∧ l ∉ t.durab.dirty)) ∧
   (∀ (c : Ckpt) (s : State), s.durab.ckpt = some c → s.running →
     ((List.range 8).all fun k => s.clocked (idMirror k) && (s.island (idMirror k)).level == .awake) →
     (∀ n, n < 212 → n ∈ c.cut) → s.durab.ckptWanted = false → s.keeper.scanWanted = false → nothingWaits s →
     ∃ (t : State) (m : Mram) (head : RootHead) (map : SlotMap), exec .rootCommit s = .next t ∧
       head.kind = .checkpoint ∧ head.epoch = c.epoch ∧ head.prevEpoch = s.dur.g.lastRootEpoch ∧
       map.context = !s.durab.current.context ∧ t.mram = m.writeBoth (Place.of head map [] []) .complete ∧
       m.a0 = s.mram.a0 ∧ m.a1 = s.mram.a1 ∧ m.b0 = s.mram.b0 ∧ m.b1 = s.mram.b1 ∧ m.base = s.mram.base ∧
       t.durab.ckpt = none ∧ t.durab.owed = [] ∧ t.durab.current = map ∧ t.dur.g.lastRootEpoch = c.epoch ∧
       t.nv = s.nv ∧ t.ledger = s.ledger))

/-- MirrorEnable 1 to 0 erases the roots and writes none; 0 to 1 advances the epoch and commits its KIND 3 root in all
four places; DirtyBudget is clamped to 1 to 8 (R602, R610, R620, R621). -/
def Obligations.MirrorSwitches : Prop :=
  (∀ (r : Req) (s : State), dictOpen s r [] → roomToDirty s → s.dur.g.mirrorEnable = true →
    judgeWrite s r false .mirrorEnable 0 [0] = none →
    ∃ t, exec (.mirrorDisable r) s = .next t ∧ t.dur.g.mirrorEnable = false ∧ t.mram = s.mram.erase ∧
      t.durab.ckpt = none ∧ t.durab.rootValid = false ∧ t.dur.g.epoch = s.dur.g.epoch ∧ t.nv = s.nv ∧
      (s.keeper.scanWanted = false → t.ledger = s.ledger ∧ t.keeper = s.keeper)) ∧
  (∀ (r : Req) (s : State), dictOpen s r [] → s.dur.g.mirrorEnable = false →
    judgeWrite s r false .mirrorEnable 0 [1] = none →
    ∃ (t : State) (p : Place), exec (.mirrorEnable r) s = .next t ∧ t.dur.g.mirrorEnable = true ∧
      t.dur.g.epoch = s.dur.g.epoch + 1 ∧ t.dur.g.lastRootEpoch = s.dur.g.epoch + 1 ∧ p.head.kind = .mirrorStart ∧
      p.head.epoch = s.dur.g.epoch + 1 ∧ p.map = { lines := [], context := false } ∧ t.mram.a0 = some p ∧
      t.mram.a1 = some p ∧ t.mram.b0 = some p ∧ t.mram.b1 = some p ∧ t.nv = s.nv ∧ t.ledger = s.ledger ∧
      t.keeper = s.keeper) ∧
  (∀ (r : Req) (v : Word) (s : State), writeOpen s r [idManagement] [] → roomToDirty s →
    let bs := valueBytes r .dirtyBudget 4 v.toNat
    judgeWrite s r false .dirtyBudget 0 bs = none →
    ∃ t, exec (.dirtyBudgetWrite r v) s = .next t ∧ t.dur.g.dirtyBudget = clamp 1 8 (leNat bs) ∧
      t.dur.g.epoch = s.dur.g.epoch ∧ t.mram = s.mram ∧ t.nv = s.nv ∧ t.ledger = s.ledger)

/-- PWRWARN_ASSERT with power in the core sets the warning and POWER_WARN of both ports. While the core runs it raises
source 0x101060 and restarts the flush barrier, which is not done while a target waits; where the core does not run
that is owed until recovery is complete (DEDUCED: log entry 78); in Off only the input changes (R145, R623, R625,
R626). -/
def Obligations.WarningStartsTheBarrier : Prop :=
  (∀ s : State, s.powered = false → exec .pwrwarnAssert s = .next { s with
    out := [], keeper := { s.keeper with pwrwarn := true } }) ∧
  (∀ s : State, s.powered → ∃ t, exec .pwrwarnAssert s = .next t ∧ t.durab.warn = true ∧ t.keeper.pwrwarn = true ∧
    t.portA.mgmtEvent.getLsbD 8 = true ∧ t.portB.mgmtEvent.getLsbD 8 = true ∧ t.nv = s.nv ∧ t.mram = s.mram ∧
    t.ledger = s.ledger ∧ t.dur.g.epoch = s.dur.g.epoch ∧
    (s.running = false → t.dur = s.dur ∧ t.fabric = s.fabric ∧ t.keeper.warnOwed = true) ∧
    (s.running → (flushWaiting t ≠ 0 → t.dur.g.flushDone = false) ∧
      ∃ x : Sent Event, x.body = .raise 0x101060 ∧ (x ∈ t.gathered (gatherOf 0x101060) ∨
        x ∈ mget [] t.fabric.submitHeld (64 * 211 + gatherOf 0x101060))))

/-! ### Power (PW) -/

/-- PowerCeiling, written in P0, P1 or P2: the power state follows it at once (R657, R686). An island that may doze
does so once it has been idle for DozeDelay, and from there is retained after a further RetainDelay where its
conditions hold, a Translation island losing its walk cache; a woken one is awake and counted (R659 to R664, R668,
R669). -/
def Obligations.PowerFollowsCeilingAndIdleness : Prop :=
  (∀ (r : Req) (v : Word) (s : State), writeOpen s r [idManagement] [] → roomToDirty s → s.inRun = true →
     let bs := valueBytes r .powerCeiling 2 v.toNat
     judgeWrite s r false .powerCeiling 0 bs = none →
     ∃ t, exec (.ceilingWrite r v) s = .next t ∧ t.dur.g.ceiling = leNat bs ∧
       t.keeper.pstate = (if leNat bs = 0 then .p0 else if leNat bs = 1 then .p1 else .p2) ∧
       t.nv = s.nv ∧ t.ledger = s.ledger ∧ t.mram = s.mram ∧ t.fabric = s.fabric) ∧
  (∀ (i : Island) (n : Nat) (s : State), islandId i = some n → s.running → s.clocked n →
     (mayDoze i.kind = true → s.dur.g.ceiling ≠ 0 → (s.island n).level = .awake → islandIdle s i = true →
       exec (.islandDoze i) s = .next (answered s (((cleared s).elapseTo
         ((s.island n).lastBusy + 10 * s.dur.g.dozeDelay)).modIsland n fun x =>
           { x with level := .dozing, waking := false }))) ∧
     (mayRetain i.kind = true → s.dur.g.ceiling = 2 → (s.island n).level = .dozing → (s.island n).waking = false →
       islandIdle s i = true → retainable s i = true →
       ∃ t, exec (.islandRetain i) s = .next t ∧ (t.island n).level = .retained ∧
         t.power.retains = satAdd 64 s.power.retains 1 ∧
         (s.island n).lastBusy + 10 * s.dur.g.dozeDelay + 1000 * s.dur.g.retainDelay ≤ t.now ∧
         (i.kind = .translation → t.xlate.islands = mmod XIsland.initial s.xlate.islands i.idx fun x =>
           { x with leaf := [], dir1 := [], dir2 := [], dir3 := [] }) ∧
         (i.kind ≠ .translation → t.xlate = s.xlate) ∧ t.dur = s.dur ∧ t.nv = s.nv ∧ t.ledger = s.ledger) ∧
     ((s.island n).waking = true → (s.island n).level ≠ .awake →
       exec (.islandWake i) s = .next (answered s (((cleared s).wakeUp n).busy n)) ∧
       ((cleared s).wakeUp n).power.wakes = satAdd 64 s.power.wakes 1))

/-! ### Security and debug (SD) -/

/-- An AuthRequest by a requester that may make it: a new nonce comes from the entropy source and clears AuthResult,
NONE changes nothing, a transition that Table SD-2 does not list is refused with code 5, and a nonce ends after 60 s
(R691, R701, R704). SET_STATE from a state with its owner key where it must have one: a transition that needs no
signature is recorded, one that needs it is recorded only if the signature over the AuthMessage verifies under
OwnerKey, else AuthResult is 3, or 4 without a valid nonce, and the nonce is used up; the record makes the transition
take effect, ends every grant and discards every nonce, or waits for a cold power-on (R691 to R696, R702). -/
def Obligations.AuthorizationAndTransitions : Prop :=
  (∀ (r : Req) (s : State), dictOpen s r [] →
     (judgeWrite s r false .authRequest 0 [1, 0, 0, 0] = none → exec (.newNonce r) s = .next (answered s
       (((cleared s).modAuth r fun a => { a with
         nonce := some (leBytes 32 (Config.entropy s.free).toNat), nonceAt := s.now, result := 0 }).draw))) ∧
     (judgeWrite s r false .authRequest 0 [0, 0, 0, 0] = none → exec (.authNone r) s = .next (answered s (cleared s))) ∧
     (∀ arg, judgeWrite s r false .authRequest 0 [2, arg, 0, 0] = none → s.nv.recording = none →
       transition s.nv.sec (SecState.at arg.toNat) = none → exec (.setState r arg) s = .next (answered s
         ((cleared s).modAuth r fun a => { a with result := 5 }))) ∧
     (∀ nonce, (s.auth.get r).nonce = some nonce → ∃ t, exec (.nonceExpiry r) s = .next t ∧
       (t.auth.get r).nonce = none ∧ (s.auth.get r).nonceAt + 60000000001 ≤ t.now ∧ t.nv = s.nv ∧
       t.dap = s.dap ∧ t.keeper = s.keeper)) ∧
  ((∀ (r : Req) (arg : Byte) (signed cold : Bool) (s : State), dictOpen s r [] →
     judgeWrite s r false .authRequest 0 [2, arg, 0, 0] = none → s.nv.recording = none →
     transition s.nv.sec (SecState.at arg.toNat) = some (signed, cold) →
     (s.nv.sec = .provisioning → ownerKeyValid s.nv.ownerKey = true) →
     let w := cleared s
     let a := s.auth.get r
     let recorded := fun (x : State) =>
       { x with nv := { x.nv with recording := some (r, SecState.at arg.toNat, cold) } }
     let used := w.modAuth r fun a => { a with nonce := none }
     let good := ecdsaVerify s.nv.ownerKey (authMessage r (a.nonce.getD []) 2 arg.toNat) (a.sigR.take 48)
       (a.sigS.take 48)
     exec (.setState r arg) s = .next (answered s
       (if signed = false then recorded w
       else if nonceValid s a = false then w.modAuth r fun a => { a with result := 4 }
       else if good then recorded used else used.modAuth r fun a => { a with result := 3 }))) ∧
   (∀ (r : Req) (target : SecState) (cold : Bool) (s : State), s.keeper.vddAux → s.keeper.serving →
     s.nv.recording = some (r, target, cold) →
     ∃ t, exec .transitionRecord s = .next t ∧ t.nv.recording = none ∧
       t.nv.sec = (if cold then s.nv.sec else target) ∧ t.nv.pendingSealed = (cold || s.nv.pendingSealed) ∧
       (t.auth.get r).result = (if cold then 2 else 1) ∧ t.mram = s.mram ∧ (cold = true → t.ledger = s.ledger) ∧
       (cold = false → (∀ q, (t.auth.get q).nonce = none) ∧ t.dap.halted = [] ∧
         t.dap.grant = (if target = .provisioning then 3 else 0))))

/-- A tamper of an enabled cause puts the controller in Lockdown with DB_DEBUG set and every nonce and grant gone. While
the core runs, with TamperAction 0 nothing is erased, with 1 the Ledger closes and its zeroization starts, with 2 the
roots are erased too and the core stops; in P3, P4, P5 or Scan what TamperAction asks for is pending, and during a
zeroization nothing more is asked for; ZEROIZE_DONE leaves every Ledger byte zero (R694, R695, R720, R721, R723 to
R727). -/
def Obligations.TamperLocksDown : Prop :=
  (∀ (temp : Bool) (s : State), s.keeper.vddAux → s.nv.tamperEnable.getLsbD (if temp then 1 else 0) = true →
    ∃ t, exec (.tamper temp) s = .next t ∧ t.nv.sec = .lockdown ∧ t.nv.recording = none ∧
      t.nv.tamperCount = satAdd 32 s.nv.tamperCount 1 ∧ t.nv.tamperLog.cause = (if temp then 2 else 1) ∧
      t.keeper.deadbolts = s.keeper.deadbolts ||| 0b10000 ∧ t.dap.grant = 0 ∧ t.dap.halted = [] ∧
      (∀ r, (t.auth.get r).nonce = none) ∧
      (s.keeper.zeroizing = true ∨ s.nv.zeroizePending = true → t.mram = s.mram ∧
        t.keeper.zeroizing = s.keeper.zeroizing ∧ t.nv.zeroizePending = s.nv.zeroizePending) ∧
      (s.keeper.zeroizing = false → s.nv.zeroizePending = false →
        (s.inRun = false ∨ s.keeper.scan = true → t.mram = s.mram ∧ t.keeper.zeroizing = false ∧
          t.nv.zeroizePending = decide (s.nv.tamperAction ≠ 0) ∧
          t.nv.zeroizeRoots = decide (s.nv.tamperAction = 2)) ∧
        (s.inRun → s.keeper.scan = false →
          (s.nv.tamperAction = 0 → t.mram = s.mram ∧ t.keeper.zeroizing = false ∧
            (s.ledger.stream = [] → s.ledger.reads = [] → t.ledger = s.ledger)) ∧
          (s.nv.tamperAction = 1 → t.mram = s.mram ∧ t.ledger.closed = true ∧ t.keeper.zeroizing = true ∧
            t.keeper.ramStopped = s.keeper.ramStopped) ∧
          (s.nv.tamperAction = 2 → t.mram = s.mram.erase ∧ t.ledger.closed = true ∧ t.keeper.zeroizing = true ∧
            t.keeper.ramStopped = true ∧ t.keeper.rdy = false ∧ t.dur = .initial ∧ t.fabric.shutter = true)))) ∧
  (∀ s : State, s.keeper.zeroizing = true → exec .zeroizeDone s = .next { s with
    out := []
    ledger := { s.ledger with mem := [], bad := [] }
    keeper := { s.keeper with zeroizing := false }
    nv := { s.nv with zeroizePending := false, tamperLog := { s.nv.tamperLog with zeroize := 3 } } })

/-- DEBUG: a level below the grant is set, one that Table SD-19 refuses answers 5, one that it gives freely is set
without a signature, one that it gives by grant only with a valid nonce, which is used up, and a signature that verifies
(R702); in Provisioning the grant stays 3 (R731, R732, Table SD-19). A debug command written through
HYDAP: HALT freezes the islands that DAP_HALT_SEL names where the security state, the grant and the power allow it,
and shows the first reason otherwise; RELEASE lets them run (R737, R742, R743, R748). An access through HYDAP: a read
or a write of a debug register is captured, a write of an address register changes it and no other, a command written
while one runs does not begin, and another runs; PEEK reads one word into DAP_DATA where the security state, the grant and the power allow it, shows the first
reason otherwise, and changes no register that it reads (R113, R736 to R738, R741, R748, Tables SD-15, SD-16). -/
def Obligations.DebugActsAsGranted : Prop :=
  (∀ (r : Req) (arg : Byte) (s : State), dictOpen s r [] →
     judgeWrite s r false .authRequest 0 [3, arg, 0, 0] = none →
     (s.dap.grant ≤ arg.toNat → levelUse s.nv.sec arg.toNat = .refused →
       exec (.debug r arg) s = .next (answered s ((cleared s).modAuth r fun a => { a with result := 5 }))) ∧
     ((arg.toNat < s.dap.grant ∨ levelUse s.nv.sec arg.toNat = .free) → ∃ t, exec (.debug r arg) s = .next t ∧
       t.dap.grant = (if s.nv.sec = .provisioning then 3 else arg.toNat) ∧ (t.auth.get r).result = 1 ∧
       (arg.toNat < 2 → s.nv.sec ≠ .provisioning → t.dap.halted = []) ∧ t.nv = s.nv ∧ t.mram = s.mram ∧
       (2 ≤ arg.toNat → t.ledger = s.ledger)) ∧
     (s.dap.grant ≤ arg.toNat → levelUse s.nv.sec arg.toNat = .granted →
       let a := s.auth.get r
       let used := (cleared s).modAuth r fun a => { a with nonce := none }
       exec (.debug r arg) s = .next (answered s
         (if nonceValid s a = false then (cleared s).modAuth r fun a => { a with result := 4 }
         else if ecdsaVerify s.nv.ownerKey (authMessage r (a.nonce.getD []) 3 arg.toNat) (a.sigR.take 48)
             (a.sigS.take 48) then setGrant r arg.toNat used
         else used.modAuth r fun a => { a with result := 3 })))) ∧
  (∀ s : State, tapLive s → s.dap.tap = .hydap →
     let w := fun op => { cleared s with dap := { s.dap with
       capReg := 6, capWrite := true, capData := BitVec.ofNat 32 op, capStatus := 0 } }
     (∀ code, dapCheck s 2 = some code → exec .halt s = .next (answered s (dapStatus code (w 2)))) ∧
     (dapCheck s 2 = none → haltTargets s.dap.haltSel = none →
       exec .halt s = .next (answered s (dapStatus 5 (w 2)))) ∧
     (∀ ids, dapCheck s 2 = none → haltTargets s.dap.haltSel = some ids → ∃ t, exec .halt s = .next t ∧
       (∀ i, i ∈ t.dap.halted ↔ i ∈ s.dap.halted ∨ i ∈ ids) ∧ t.dap.capStatus = 0 ∧ t.nv = s.nv ∧
       t.ledger = s.ledger ∧ t.dur = s.dur ∧ t.fabric = s.fabric) ∧
     (∃ t, exec .dapRelease s = .next t ∧ t.dap.halted = [] ∧ t.dap.haltedAt = [] ∧ t.dap.capStatus = 0 ∧
       t.nv = s.nv ∧ t.dur.sources = s.dur.sources ∧
       (s.ledger.stream = [] → s.ledger.reads = [] → t.ledger = s.ledger))) ∧
  (∀ s : State, tapLive s → s.dap.tap = .hydap →
     (∀ dr : BitVec 40, bit dr.toNat 36 = false → exec (.hydapAccess dr) s = .next (answered s { cleared s with
       dap := { s.dap with
         capReg := BitVec.ofNat 4 (bits dr.toNat 35 32)
         capWrite := false
         capData := BitVec.ofNat 32 (dapRead s (bits dr.toNat 35 32))
         capStatus := 0 } })) ∧
     (∀ dr : BitVec 40, bit dr.toNat 36 = true → bits dr.toNat 35 32 ≠ 6 → ∃ t, exec (.hydapAccess dr) s = .next t ∧
       t.dap.addr = (if bits dr.toNat 35 32 = 2 then BitVec.ofNat 32 (dr.toNat % 2 ^ 32) else s.dap.addr) ∧
       t.dap.element = (if bits dr.toNat 35 32 = 3 then BitVec.ofNat 24 (dr.toNat % 2 ^ 32) else s.dap.element) ∧
       t.dap.haltSel = (if bits dr.toNat 35 32 = 5 then BitVec.ofNat 16 (dr.toNat % 2 ^ 32) else s.dap.haltSel) ∧
       t.dap.capStatus = 0 ∧ t.dap.data = s.dap.data ∧
       t.dap.grant = s.dap.grant ∧ t.keeper = s.keeper ∧ t.dur = s.dur ∧ t.nv = s.nv ∧ t.ledger = s.ledger) ∧
     (∀ dr : BitVec 40, bit dr.toNat 36 = true → bits dr.toNat 35 32 = 6 →
       let x := { cleared s with dap := { s.dap with
         capReg := 6, capWrite := true, capData := BitVec.ofNat 32 (dr.toNat % 2 ^ 32), capStatus := 0 } }
       exec (.hydapAccess dr) s = .next (answered s
         (if dapRunning s then x else dapRun (dr.toNat % 2 ^ 32 % 16) x))) ∧
     (dapCheck s 1 = none → ∃ t, exec .peek s = .next t ∧
       t.dap.data = BitVec.ofNat 32 (peekWord { cleared s with dap := { s.dap with
         capReg := 6, capWrite := true, capData := 1, capStatus := 0 } }) ∧
       t.dap.capStatus = 0 ∧ t.conduct = s.conduct ∧ t.portA = s.portA ∧ t.portB = s.portB ∧ t.queues = s.queues ∧
       t.fabric = s.fabric ∧ t.durab = s.durab ∧ t.dur = s.dur ∧ t.nv = s.nv ∧ t.ledger = s.ledger) ∧
     (∀ code, dapCheck s 1 = some code → ∃ t, exec .peek s = .next t ∧ t.dap.capStatus = code ∧
       t.dap.data = s.dap.data ∧ t.dur = s.dur ∧ t.nv = s.nv ∧ t.ledger = s.ledger))

/-- SCAN_ENTER closes the Shutter: with MirrorEnable 0 Scan is entered at once with RDY 0, with MirrorEnable 1 a root
is asked for first; SCAN_EXIT of a Scan is a Keeper reset of cause 6, and without one answers BAD_ARG (R745, R747).
The instructions of the TAP: each selects its data register, and the EXTEST family holds both links down except in P3
and P5; none of them changes what is durable (R733, R734, R735, R745, Table SD-14). -/
def Obligations.ScanAndTap : Prop :=
  (∀ s : State, tapLive s → s.dap.tap = .hydap →
     (dapCheck s 3 = none → s.dur.g.mirrorEnable = false → ∃ t, exec .scanEnter s = .next t ∧
       t.keeper.scan = true ∧ t.keeper.rdy = false ∧ t.fabric.shutter = true ∧
       (s.power.lockLost = [] → t.ledger.inbox = []) ∧ t.ledger.stream = [] ∧ t.nv = s.nv ∧ t.mram = s.mram) ∧
     (dapCheck s 3 = none → s.dur.g.mirrorEnable = true → ∃ t, exec .scanEnter s = .next t ∧
       t.keeper.scanWanted = true ∧ t.keeper.scan = s.keeper.scan ∧ t.fabric.shutter = true ∧
       (t.durab.ckpt.isSome = true) ∧ t.nv = s.nv ∧ t.ledger = s.ledger) ∧
     (s.keeper.scan = true → s.keeper.ramStopped = false → s.keeper.pstate ≠ .p4 → ∃ t,
       exec .scanExit s = .next t ∧ t.keeper.pstate = .p4 ∧ t.keeper.scan = false ∧ t.keeper.nextCause = 6 ∧
       t.mram = s.mram ∧ t.dur = .initial) ∧
     (s.keeper.scan = false → ∃ t, exec .scanExit s = .next t ∧ t.dap.capStatus = 5 ∧ t.keeper = s.keeper ∧
       t.nv = s.nv ∧ t.dur = s.dur ∧ t.ledger = s.ledger)) ∧
  (∀ s : State, tapLive s →
     let w := fun (i : TapInstr) => { cleared s with dap := { s.dap with tap := i } }
     exec .idcode s = .next (answered s ((w .idcode).emit (.tdo 32 0x24096A6B))) ∧
     exec .bypass s = .next (answered s ((w .bypass).emit (.tdo 1 0))) ∧
     exec .hydap s = .next (answered s ((w .hydap).emit (.tdo 40 (hydapCapture s)))) ∧
     exec .samplePreload s = .next (answered s
       ((w .sample).draw.emit (.tdo 32 (Config.boundaryScan s.free).toNat))) ∧
     (s.keeper.scan = true → exec .hyscan s = .next (answered s
       ((w .hyscan).draw.emit (.tdo 32 (Config.scanChain s.free).toNat)))) ∧
     (s.keeper.scan = false → exec .hyscan s = .next (answered s ((w .hyscan).emit (.tdo 1 0)))) ∧
     (s.keeper.pstate = .p3 ∨ s.keeper.pstate = .p5 →
       exec .extest s = .next (answered s ((w .extest).emit (.tdo 1 0))) ∧
       exec .extestPulse s = .next (answered s ((w .extestPulse).emit (.tdo 1 0))) ∧
       exec .extestTrain s = .next (answered s ((w .extestTrain).emit (.tdo 1 0)))) ∧
     (s.keeper.pstate ≠ .p3 → s.keeper.pstate ≠ .p5 → ∀ c, c ∈ [Instr.extest, .extestPulse, .extestTrain] →
       ∃ t, exec c s = .next t ∧ t.portA.linkUp = false ∧ t.portB.linkUp = false ∧ t.extestHeld = true ∧
         t.nv = s.nv ∧ t.mram = s.mram ∧ t.ledger.mem = s.ledger.mem ∧ t.keeper = s.keeper))

/-! ### The sideband and configuration images (DS, SD) -/

/-- The MCTP control requests that this endpoint accepts are answered with its data to their sender, and change nothing
but the endpoint ID that SET_ENDPOINT_ID assigns; another ID than the one assigned is a loss of the carrier (R176, R178,
R179, R181, R183, R191, R836). The message codes are the model's (log entry 61). An MCTP message of any kind: one that its
packets do not make up whole, one to another endpoint, one of a type that is neither control, SPDM nor vendor-defined, and
one longer than 1,024 bytes are dropped; a Mirpiral request joins the four that may wait, or is answered QUEUE_FULL, with
an empty body as the model reads it (R181, R182, R184, R189; log entry 55). -/
def Obligations.ControlMessagesAreAnswered : Prop :=
  (∀ (via : MctpFrom) (inst : BitVec 5) (s : State), sbServes s → accepts via true s →
     let w := sbBegun s
     let reply := fun (x : State) (command code : Nat) (data : List Byte) => answered s (respond (replyTo via
       ([0, inst.zeroExtend 8, BitVec.ofNat 8 command, BitVec.ofNat 8 code] ++ data)) x)
     (∀ eid : Byte, eid ≠ 0 → eid ≠ 0xFF → exec (.setEndpointId via inst eid) s = .next (reply
       ((if s.sideband.eid ≠ 0 ∧ s.sideband.eid ≠ eid.toNat then carrierLoss w else w).modSb fun b =>
         { b with eid := eid.toNat }) 1 0 [0, eid, 0])) ∧
     (∀ eid : Byte, eid = 0 ∨ eid = 0xFF → exec (.setEndpointId via inst eid) s = .next (reply w 1 2 [])) ∧
     exec (.getEndpointId via inst) s = .next (reply w 2 0 [BitVec.ofNat 8 s.sideband.eid, 0, 0]) ∧
     exec (.getEndpointUuid via inst) s = .next (reply w 3 0 (beBytes 16 Config.endpointUuid.toNat)) ∧
     (∀ type, exec (.getMctpVersionSupport via inst type) s = .next
       (if type = 0 ∨ type = 0xFF then reply w 4 0 [1, 0xF1, 0xF3, 0xFF, 0x00] else reply w 4 0x80 [])) ∧
     exec (.getMessageTypeSupport via inst) s = .next (reply w 5 0 [2, 0x05, 0x7F]) ∧
     (∀ sel, exec (.getVendorDefinedMessageSupport via inst sel) s = .next
       (if sel = 0 then reply w 6 0 ([0xFF, 1] ++ beBytes 4 Config.ianaNumber.toNat ++ [0, 0x10])
       else reply w 6 2 []))) ∧
  (∀ (m : MctpMsg) (s : State), sbServes s →
     let w := sbBegun s
     let field := fun i n => fieldAt m.bytes i n
     let q : MirReq :=
       { dest := m.dest, src := m.src, tag := m.tag, slave := m.slave, keep := bit (field 6 1) 6, inst := BitVec.ofNat 8 (field 7 1),
         version := field 5 1, command := field 8 1, bodyLen := field 10 2, body := m.bytes.drop 12, arrived := s.now }
     let via : MctpFrom := { dest := m.dest, src := m.src, tag := m.tag, slave := m.slave }
     ((MctpMsg.whole m = false ∨ 1024 < m.bytes.length ∨ accepts via (field 0 1 == 0) s = false ∨
         field 0 1 ∉ [0x00, 0x05, 0x7F]) →
       exec (.mctpMessage m) s = .next (answered s w)) ∧
     (MctpMsg.whole m = true → m.bytes.length ≤ 1024 → accepts via false s = true → field 0 1 = 0x7F →
       beNat (bytesAt m.bytes 1 4) = Config.ianaNumber.toNat → bit (field 6 1) 7 = true →
       (s.sideband.waiting.length < 4 → exec (.mctpMessage m) s = .next (answered s
         (mirNext (w.modSb fun b => { b with waiting := b.waiting ++ [q] })))) ∧
       (4 ≤ s.sideband.waiting.length → exec (.mctpMessage m) s = .next (answered s
         (respond (mirResponse q false 0x15 []) w)))))

/-- The I3C common command codes: the dynamic address is taken, changed and lost, events are enabled and disabled,
maximum lengths below 69 are ignored and those above it set 69, and the constant answers are given; a directed command without a dynamic address
is not acknowledged (R171, R173, R176, R829, R836, Table DS-4). The treatment of the codes is the model's (log entry
62). A loss of the sideband carrier, by SMBCLK held low, by the third failed retry or by the loss of VDDIO: the
sideband's Hatch use is aborted with cause 4, its staging ends, every request and response is discarded and the loss
is counted; before the third retry the packet is sent again 1 ms later, and a packet that is reached anew starts its own
count (R175, R176, R177, R836). -/
def Obligations.I3cActsAndCarrierIsLost : Prop :=
  (∀ s : State, sbServes s → s.keeper.straps.sbMode = false →
     let w := sbBegun s
     let put := fun f => answered s (w.modSb f)
     let say := fun bytes => answered s (w.emit (.ccc bytes))
     (s.sideband.dynAddr = 0 →
       (∀ a, exec (.entdaa a) s = .next (answered s (announce ((w.emit (.ccc (beBytes 6 (provisionalId s.keeper) ++
         [0x06, 0x00]))).modSb fun b => { b with dynAddr := a.toNat })))) ∧
       (∀ st a : BitVec 7, st.toNat = 0x48 + s.keeper.straps.sbAddr % 4 → exec (.setdasa st a) s = .next (answered s
         (announce (w.modSb fun b => { b with dynAddr := a.toNat })))) ∧
       exec .rstdaa s = .next (answered s (w.modSb fun b => { b with dynAddr := 0, eid := 0 })) ∧
       exec .rstact s = .next (answered s (w.modSb fun b => { b with dynAddr := 0, eid := 0 })) ∧
       (∀ a, exec (.setnewda a) s = .next (answered s (w.emit .nack)))) ∧
     (∀ ev : Byte, s.sideband.events.getLsbD 0 = true →
       exec (.enec ev) s = .next (put fun b => { b with events := b.events ||| (ev &&& 9) })) ∧
     (∀ ev : Byte, s.sideband.events.getLsbD 0 = false → exec (.enec ev) s = .next (answered s
       (announce (w.modSb fun b => { b with events := b.events ||| (ev &&& 9) })))) ∧
     (∀ ev : Byte, exec (.disec ev) s = .next (put fun b => { b with events := b.events &&& ~~~ev })) ∧
     (s.keeper.vddAux = true → s.sideband.dynAddr = 0 → s.sideband.hotJoined = false →
       s.sideband.events.getLsbD 3 = true → ∃ t, exec .hotJoin s = .next t ∧ t.out = [.hotJoin] ∧
         t.sideband.hotJoined = true ∧ t.keeper = s.keeper ∧ t.nv = s.nv ∧ t.dur = s.dur ∧ t.hatch = s.hatch) ∧
     (s.sideband.dynAddr ≠ 0 →
       (∀ a, exec (.setnewda a) s = .next (put fun b => { b with dynAddr := a.toNat })) ∧
       exec .rstdaa s = .next (answered s ((carrierLoss w).modSb fun b => { b with dynAddr := 0, eid := 0 })) ∧
       exec .rstact s = .next (answered s ((carrierLoss w).modSb fun b => { b with dynAddr := 0, eid := 0 })) ∧
       (∀ n : BitVec 16, 69 ≤ n.toNat → exec (.setmwl n) s = .next (put fun b => { b with mwl := 69 }) ∧
         exec (.setmrl n) s = .next (put fun b => { b with mrl := 69 })) ∧
       (∀ n : BitVec 16, n.toNat < 69 → exec (.setmwl n) s = .next (answered s w) ∧
         exec (.setmrl n) s = .next (answered s w)) ∧
       exec .getmwl s = .next (say (beBytes 2 s.sideband.mwl)) ∧
       exec .getmrl s = .next (say (beBytes 2 s.sideband.mrl ++ [Config.i3cIbiLength])) ∧
       exec .getpid s = .next (say (beBytes 6 (provisionalId s.keeper))) ∧
       exec .getbcr s = .next (say [0x06]) ∧ exec .getdcr s = .next (say [0x00]) ∧
       exec .getstatus s = .next (answered s (w.emit (.ccc (beBytes 2 (Config.i3cStatus s.free).toNat))).draw) ∧
       exec .getmxds s = .next (say (beBytes 2 Config.i3cMaxDataSpeed.toNat)))) ∧
  ((∀ s : State,
     let t := carrierLoss s
     t.sideband.current = none ∧ t.sideband.waiting = [] ∧ t.sideband.responses = [] ∧ t.sideband.retries = 0 ∧
     t.sideband.carrierLoss = satAdd 32 s.sideband.carrierLoss 1 ∧ t.sideband.eid = s.sideband.eid ∧
     t.hatch.owner = (if s.hatch.owner = some .sideband then none else s.hatch.owner) ∧
     (s.hatch.owner = some .sideband → t.conduct.a.abortLog.cause = 4 ∧ t.conduct.b.abortLog.cause = 4 ∧
       t.conduct.sb.abortLog.cause = 4) ∧
     (s.image.owner = some .sideband → s.image.state ≠ .applying → t.image.owner = none) ∧
     (s.image.owner ≠ some .sideband → t.image = s.image) ∧ t.dur = s.dur ∧ t.nv = s.nv ∧ t.ledger = s.ledger) ∧
   (∀ s : State, sbServes s → s.keeper.straps.sbMode = true →
     exec .smbclkTimeout s = .next (answered s (carrierLoss (sbBegun s))) ∧
     (∀ p rest n, s.sideband.responses = p :: rest → n < (packetsOf p.bytes).length → s.sideband.sent ≤ n + 1 →
       let again := fun (x : State) => (((packetsOf p.bytes).drop n).take 1).foldl (sendPacket p)
         ((x.elapse 1000000).modSb fun b => { b with retries := b.retries + 1 })
       (s.sideband.sent = n + 1 → 3 ≤ s.sideband.retries →
         exec (.smbusRetry n) s = .next (answered s (carrierLoss (sbBegun s)))) ∧
       (s.sideband.sent = n + 1 → s.sideband.retries < 3 →
         exec (.smbusRetry n) s = .next (answered s (again (sbBegun s)))) ∧
       (s.sideband.sent ≤ n → exec (.smbusRetry n) s = .next (answered s
         (again ((sendUpTo (n + 1) p (sbBegun s)).modSb fun b => { b with retries := 0 })))))) ∧
   (∀ s : State, s.keeper.vddio = true → ∃ t, exec .vddioLoss s = .next t ∧ t.keeper.vddio = false ∧
     t.sideband.eid = 0 ∧ t.sideband.dynAddr = 0 ∧ t.sideband.hotJoined = false ∧ t.dur = s.dur ∧ t.nv = s.nv ∧
     t.ledger = s.ledger ∧ (s.powered = true → t.sideband.current = none ∧ t.sideband.waiting = [] ∧
       t.sideband.responses = [] ∧ t.sideband.carrierLoss = satAdd 32 s.sideband.carrierLoss 1)))

/-- The Mirpiral requests: DESCRIBE answers from the description; GET, SET and GET_CLEAR run one Hatch command, or a
WRITE and a READ, and answer with the value once it stands; RELEASE ends the sideband's hold or answers NOT_HELD;
while a link owns the Hatch the request waits, and is answered HATCH_BUSY, with an empty body as the model reads it
(log entry 55), after SidebandHatchWait; the delivery of a response sends the packets that are left of it and ends the hold unless its request had KEEP, and the next request begins (R184 to R186, R192 to R196). -/
def Obligations.MirpiralRequestsAreAnswered : Prop :=
  (∀ (q : MirReq) (s : State), sbServes s → s.sideband.current = some q →
    let w := sbBegun s
    (q.command = 4 → objAt (mirIndex q) (mirSub q) = none →
      exec .describe s = .next (answered s (mirAnswer q 2 (mirAddress q) w))) ∧
    (∀ o, q.command = 4 → objAt (mirIndex q) (mirSub q) = some o → exec .describe s = .next (answered s
      (mirAnswer q 0 (mirAddress q ++ [BitVec.ofNat 8 o.desc.type, BitVec.ofNat 8 o.desc.len,
        BitVec.ofNat 8 (rightOf s.nv.sec .linkA o o.index + 4 * rightOf s.nv.sec .linkB o o.index +
          16 * rightOf s.nv.sec .sideband o o.index), BitVec.ofNat 8 o.desc.pers.num,
        BitVec.ofNat 8 (o.bolt.getD 0xFF), 0, 0, 0] ++ leBytes 8 o.desc.lo ++ leBytes 8 o.desc.hi) w))) ∧
    (q.command = 5 → s.hatch.owner = some .sideband →
      exec .release s = .next (answered s (mirAnswer q 0 [] (releaseHatch w)))) ∧
    (q.command = 5 → s.hatch.owner ≠ some .sideband →
      exec .release s = .next (answered s (mirAnswer q 0x14 [] w))) ∧
    (s.hatch.owner = none ∨ s.hatch.owner = some .sideband → ∀ op : Nat,
      let x := hatchComplete (if mirUnderway s then w else mirHatch q op w)
      (q.command = 1 → op = 1 → exec .get s = .next (answered s
        (if x.hatch.valid then mirAnswer q x.hatch.code (mirValue q x) x else x))) ∧
      (q.command = 3 → op = 3 → exec .getClear s = .next (answered s
        (if x.hatch.valid then mirAnswer q x.hatch.code (mirValue q x) x else x))) ∧
      (q.command = 2 → op = 2 → exec .set s = .next (answered s (if x.hatch.valid then
        (let y := showReadBack (x.hatch.readBack.getD (0, [])) x
         mirAnswer q x.hatch.code (mirValue q y) y) else x)))) ∧
    (s.hatch.owner = some .linkA ∨ s.hatch.owner = some .linkB → 1 ≤ q.command → q.command ≤ 3 →
      exec .get s = .next (answered s w) ∧ exec .set s = .next (answered s w) ∧
      exec .getClear s = .next (answered s w) ∧
      exec .sidebandHatchWaitExpiry s = .next (answered s (mirAnswer q 0x12 []
        (w.elapseTo (q.arrived + 100000 * s.dur.g.sbHatchWait)))))) ∧
  (∀ (p : Response) (rest : List Response) (s : State), sbServes s → s.sideband.responses = p :: rest →
    let w := sbBegun s
    let y := (sendUpTo (packetsOf p.bytes).length p w).modSb fun b =>
      { b with responses := rest, sent := 0, retries := 0 }
    exec .responseDelivered s = .next (answered s (mirNext (announce
      (if p.mirpiral = true ∧ s.hatch.owner = some .sideband then
        (if p.keep then hatchTouch (y.modHatch fun h => { h with valid := false }) else releaseHatch y) else y)))))

/-- The SPDM requests of the requester whose negotiation is kept, in their order, are answered as Table SD-8 says: one
version, the capabilities, P-384 with SHA-384, the digest and parts of the chain, and signed challenges and
measurements; one of another requester or out of order is an error and changes nothing but the responses (R710 to
R714). The message codes are the model's (log entry 63). -/
def Obligations.SpdmRequestsAreAnswered : Prop :=
  ∀ (m : SpdmReq) (s : State), sbServes s → accepts m.via false s →
    let w := sbBegun s
    let say := fun (x : State) (bytes : List Byte) => answered s (respond (replyTo m.via ([0x05] ++ bytes)) x)
    let keep := fun (x : State) (n : Spdm) => x.modSb fun b => { b with spdm := some n }
    let error := fun code => say w [0x12, 0x7F, BitVec.ofNat 8 code, 0]
    let v12 : List Byte := [0x10, 0x04, 0, 0, 0, 1, 0x00, 0x12]
    let caps : List Byte := [0x12, 0x61, 0, 0, 0, 16, 0, 0] ++ leBytes 4 0x16 ++ leBytes 4 1024 ++ leBytes 4 1024
    let algs : List Byte := [0x12, 0x63, 0, 0] ++ leBytes 2 36 ++ [1, 0] ++ leBytes 4 4 ++ leBytes 4 0x80 ++
      leBytes 4 2 ++ List.replicate 16 0
    let digests : List Byte := [0x12, 0x01, 0, 0x01] ++ sha384 certificates
    (m.version = 0x10 → exec (.getVersion m) s = .next (say (keep w
      { owner := m.via.src, caps := false, algs := false,
        negotiation := [0x10, 0x84, m.param1, m.param2] ++ m.body ++ v12, identity := [], measured := [] }) v12)) ∧
    (m.version ≠ 0x10 → exec (.getVersion m) s = .next (error 0x41)) ∧
    (m.version ≠ 0x12 → ∀ c ∈ [Instr.getCapabilities m, .negotiateAlgorithms m, .getDigests m, .getCertificate m,
      .challenge m, .getMeasurements m], exec c s = .next (error 0x41)) ∧
    (m.version = 0x12 → (∀ n, s.sideband.spdm = some n → n.owner ≠ m.via.src ∨ n.caps = true) →
      exec (.getCapabilities m) s = .next (error 4)) ∧
    (m.version = 0x12 → (∀ n, s.sideband.spdm = some n → n.owner ≠ m.via.src ∨ n.caps = false ∨ n.algs = true) →
      exec (.negotiateAlgorithms m) s = .next (error 4)) ∧
    (m.version = 0x12 → ((∀ n, s.sideband.spdm = some n → n.owner ≠ m.via.src ∨ n.algs = false) →
      exec (.getDigests m) s = .next (error 4) ∧ exec (.getCertificate m) s = .next (error 4) ∧
      exec (.challenge m) s = .next (error 4) ∧ exec (.getMeasurements m) s = .next (error 4))) ∧
    (∀ n, m.version = 0x12 → s.sideband.spdm = some n → n.owner = m.via.src →
      (n.caps = false → exec (.getCapabilities m) s = .next (say (keep w
        { n with caps := true, negotiation := n.negotiation ++ ([0x12, 0xE1, m.param1, m.param2] ++ m.body) ++ caps })
        caps)) ∧
      (n.caps = true → n.algs = false → bit (fieldAt m.body 4 4) 7 = true → bit (fieldAt m.body 8 4) 1 = true →
        exec (.negotiateAlgorithms m) s = .next (say (keep w
          { n with algs := true,
                   negotiation := n.negotiation ++ ([0x12, 0xE3, m.param1, m.param2] ++ m.body) ++ algs }) algs)) ∧
      (n.algs = true →
        exec (.getDigests m) s = .next (say (keep w
          { n with identity := n.identity ++ ([0x12, 0x81, m.param1, m.param2] ++ m.body) ++ digests }) digests) ∧
        (let part := (certificates.drop (fieldAt m.body 0 2)).take (fieldAt m.body 2 2)
         let out : List Byte := [0x12, 0x02, 0, 0] ++ leBytes 2 part.length ++
            leBytes 2 (certificates.length - fieldAt m.body 0 2 - part.length) ++ part
         exec (.getCertificate m) s = .next
           (if m.param1.toNat % 16 ≠ 0 ∨ certificates.length ≤ fieldAt m.body 0 2 ∨ 1016 < part.length then error 1
           else say (keep w
             { n with identity := n.identity ++ ([0x12, 0x82, m.param1, m.param2] ++ m.body) ++ out }) out)) ∧
        (∀ sum, (m.param2 = 0 ∧ sum = []) ∨ (m.param2 = 1 ∧ sum = sha384 (measurementBlocks s [1, 2])) ∨
            (m.param2 = 0xFF ∧ sum = sha384 (measurementBlocks s [1, 2, 3, 4, 5, 6])) →
          m.param1 = 0 → m.body.length = 32 →
          let out : List Byte := [0x12, 0x03, 0, 0x01] ++ sha384 certificates ++ drawNonce s ++ sum ++ [0, 0]
          exec (.challenge m) s = .next (say (keep w.draw.draw
            { n with identity := [] }) (out ++ signature s (n.negotiation ++ n.identity ++
              ([0x12, 0x83, m.param1, m.param2] ++ m.body) ++ out)))) ∧
        (∀ ids, (m.param2 = 0 ∧ ids = []) ∨ (m.param2 = 0xFF ∧ ids = [1, 2, 3, 4, 5, 6]) ∨
            (1 ≤ m.param2.toNat ∧ m.param2.toNat ≤ 6 ∧ ids = [m.param2.toNat]) →
          let record := measurementBlocks s ids
          let out : List Byte := [0x12, 0x60, if m.param2 = 0 then 6 else 0, 0, BitVec.ofNat 8 ids.length] ++
            leBytes 3 record.length ++ record ++ drawNonce s ++ [0, 0]
          let said := n.measured ++ ([0x12, 0xE0, m.param1, m.param2] ++ m.body) ++ out
          (bit m.param1.toNat 0 = false →
            exec (.getMeasurements m) s = .next (say (keep w.draw { n with measured := said }) out)) ∧
          (bit m.param1.toNat 0 = true → m.body.length = 33 → fieldAt m.body 32 1 % 16 = 0 →
            exec (.getMeasurements m) s = .next (say (keep w.draw.draw { n with measured := [] })
              (out ++ signature s (n.negotiation ++ said)))))))

/-- A configuration image is staged 64 bytes at a time, verified by the checks of Tables DS-10 and SD-11, and discarded;
one that passes is applied, its records taken as verified, and the next element write, once its islands can take it, is
the next element's of the record's; the end of an apply, with no element left, records its sequence and digest, and 1 s
without a staging write ends the ownership (R199 to R208, R715 to R717). -/
def Obligations.ImagesAreStagedAndApplied : Prop :=
  (∀ (r : Req) (data : List Byte) (s : State), dictOpen s r [] → s.image.state ≠ .applying →
    let bs := bytesAt data 0 64
    judgeWrite s r false .stageData 0 bs = none → exec (.imageStageData r data) s = .next (answered s { cleared s with
      image := { s.image with
        owner := some (s.image.owner.getD r)
        state := .staging
        error := 0
        buffer := Memory.writeN s.image.buffer s.image.offset bs
        staged := max s.image.staged (s.image.offset + 64)
        offset := min 262080 (s.image.offset + 64)
        lastWrite := s.now } })) ∧
  (∀ (r : Req) (s : State), dictOpen s r [] → s.image.state ≠ .applying →
    let put := fun (c : Nat) => { cleared s with image := { s.image with control := c } }
    let e := imageCheck s s.image
    let verified := fun (c : Nat) => { cleared s with image := { s.image with
      control := c
      state := if e = 0 then .verified else .failed
      error := e
      rejectDetail := if e = 5 then signatureCheck s s.image else 0 } }
    (judgeWrite s r false .imageControl 0 [1] = none → exec (.imageVerify r) s = .next (answered s (verified 1))) ∧
    (judgeWrite s r false .imageControl 0 [2] = none → exec (.imageApply r) s = .next (answered s
      (if e ≠ 0 then endStaging (verified 2)
      else { verified 2 with image := { (verified 2).image with
        state := .applying, owner := some (s.image.owner.getD r), ignored := 0, clamped := 0,
        firstIgnored := 0xFFFFFFFF, todo := ((imgRecords s.image).getD []).zipIdx.map fun p => (p.2, p.1),
        element := 0, sequence := imgSequence s.image,
        digest := bytesAt (sha384 (imgBody s.image)) 0 64 } }))) ∧
    (judgeWrite s r false .imageControl 0 [3] = none → exec (.imageDiscard r) s = .next (answered s
      (endStaging (put 3))))) ∧
  ((∀ (k n : Nat) (rec : ImgRec) (rest : List (Nat × ImgRec)) (s : State), s.image.todo = (k, rec) :: rest →
     s.image.element = n →
     (rec.count ≤ n → applyNext s = { s with image := { s.image with todo := rest, element := 0 } }) ∧
     (n < rec.count → (elementIslands rec n).all s.clocked → roomToDirty s →
       applyNext s = (let t := writeElement (s.image.owner.getD .sideband) k rec n s
                      { t with image := { t.image with element := n + 1 } }))) ∧
   (∀ s : State, islandsReady s [idManagement] → s.image.state = .applying →
     let x := applyRest (begun s [idManagement])
     (x.image.todo ≠ [] → exec .imageApplyEnd s = .next (answered s x)) ∧
     (x.image.todo = [] → ∃ t, exec .imageApplyEnd s = .next t ∧ t.image.state = .applied ∧ t.image.owner = none ∧
       t.dur.g.imageLastSequence = x.image.sequence ∧ t.dur.g.imageLastDigest = x.image.digest ∧
       t.image.ignored = x.image.ignored ∧ t.image.clamped = x.image.clamped ∧
       t.dur.sources = x.dur.sources ∧ t.dur.targets = x.dur.targets ∧ t.nv = x.nv ∧ t.ledger = x.ledger))) ∧
  (∀ s : State, s.image.owner.isSome = true → s.image.state ≠ .applying → ∃ t, exec .imageStageTimeout s = .next t ∧
    t.image.owner = none ∧ s.image.lastWrite + 1000000000 ≤ t.now ∧ t.dur = s.dur ∧ t.nv = s.nv ∧
    t.ledger = s.ledger)
end

