-- ==== Sys2Proof/Laws/Frames.lean ====
section
/-!
SUPPORT. For each operation, that it changes no byte of the Ledger's memory, nothing of the Keeper's
nonvolatile store and no byte of a staged image (`Same`). The commands that do write one of the three
reach an operation that is absent here.
-/

namespace Sys2Proof.Machine
open Sys2Proof

/-- The three stores read in `t` as in `s`. -/
abbrev Same (s t : State) : Prop := t.nv = s.nv ∧ t.ledger.mem = s.ledger.mem ∧ t.image.buffer = s.image.buffer
theorem Same.trans {s t u : State} (h : Same s t) (k : Same t u) : Same s u :=
  ⟨k.1.trans h.1, k.2.1.trans h.2.1, k.2.2.trans h.2.2⟩
@[simp] theorem foldl_same {α : Type} (f : State → α → State) (h : ∀ s a, Same s (f s a)) (l : List α) (s : State) :
    Same s (l.foldl f s) := by
  induction l generalizing s with
  | nil => exact ⟨rfl, rfl, rfl⟩
  | cons a l ih => exact (h s a).trans (ih _)
@[simp] theorem foldl_pair_same {α β : Type} (f : State × β → α → State × β) (h : ∀ p a, Same p.1 (f p a).1) (l : List α)
    (p : State × β) : Same p.1 (l.foldl f p).1 := by
  induction l generalizing p with
  | nil => exact ⟨rfl, rfl, rfl⟩
  | cons a l ih => exact (h p a).trans (ih _)
@[simp] theorem apply_ite_nv (c : Prop) [Decidable c] (s t : State) : (if c then s else t).nv = if c then s.nv else t.nv := by split <;> rfl
@[simp] theorem apply_ite_ledger (c : Prop) [Decidable c] (s t : State) : (if c then s else t).ledger = if c then s.ledger else t.ledger := by split <;> rfl
@[simp] theorem apply_ite_image (c : Prop) [Decidable c] (s t : State) : (if c then s else t).image = if c then s.image else t.image := by split <;> rfl
@[simp] theorem apply_ite_mem (c : Prop) [Decidable c] (s t : Ledger) : (if c then s else t).mem = if c then s.mem else t.mem := by split <;> rfl
@[simp] theorem apply_ite_buffer (c : Prop) [Decidable c] (s t : Image) : (if c then s else t).buffer = if c then s.buffer else t.buffer := by split <;> rfl
@[simp] theorem State.modLedger_same (s : State) (f : Ledger → Ledger) : (s.modLedger f).nv = s.nv ∧ (s.modLedger f).ledger = f s.ledger ∧ (s.modLedger f).image = s.image := ⟨rfl, rfl, rfl⟩

@[simp] theorem State.modPort_same (s : State) (p : Port) (f : PortState → PortState) :
    Same s (State.modPort s p f) := by
  unfold State.modPort
  repeat' (first | exact ⟨rfl, rfl, rfl⟩ | (simp [Same]; done) | (simp [Same, *]; done) | split)

@[simp] theorem State.emit_same (s : State) (o : Output) : Same s (State.emit s o) := by
  unfold State.emit
  exact ⟨rfl, rfl, rfl⟩

@[simp] theorem State.draw_same (s : State) : Same s (State.draw s) := by
  unfold State.draw
  exact ⟨rfl, rfl, rfl⟩

@[simp] theorem State.modDur_same (s : State) (f : Durable → Durable) : Same s (State.modDur s f) := by
  unfold State.modDur
  exact ⟨rfl, rfl, rfl⟩

@[simp] theorem State.modG_same (s : State) (f : Globals → Globals) : Same s (State.modG s f) := by
  unfold State.modG
  exact ⟨rfl, rfl, rfl⟩

@[simp] theorem State.modFabric_same (s : State) (f : Fabric → Fabric) : Same s (State.modFabric s f) := by
  unfold State.modFabric
  exact ⟨rfl, rfl, rfl⟩

@[simp] theorem State.modConduct_same (s : State) (r : Req) (f : Conduct → Conduct) :
    Same s (State.modConduct s r f) := by
  unfold State.modConduct
  exact ⟨rfl, rfl, rfl⟩

@[simp] theorem State.modConducts_same (s : State) (f : Conduct → Conduct) : Same s (State.modConducts s f) := by
  unfold State.modConducts
  exact ⟨rfl, rfl, rfl⟩

@[simp] theorem State.touchIf_same (s : State) (changed : Bool) (l : Line) :
    Same s (State.touchIf s changed l) := by
  unfold State.touchIf
  exact ⟨rfl, rfl, rfl⟩

@[simp] theorem State.touch_same (s : State) (l : Line) : Same s (State.touch s l) := by
  unfold State.touch
  exact ⟨rfl, rfl, rfl⟩

@[simp] theorem State.putSrc_same (s : State) (sn : Nat) (r : Source) : Same s (State.putSrc s sn r) := by
  unfold State.putSrc
  exact ⟨rfl, rfl, rfl⟩

@[simp] theorem State.putTgt_same (s : State) (tn : Nat) (r : Target) : Same s (State.putTgt s tn r) := by
  unfold State.putTgt
  exact ⟨rfl, rfl, rfl⟩

@[simp] theorem State.modSlot_same (s : State) (tn : Nat) (c : Cls) (f : DSlot → DSlot) :
    Same s (State.modSlot s tn c f) := by
  unfold State.modSlot
  exact ⟨rfl, rfl, rfl⟩

@[simp] theorem State.setRank_same (s : State) (tn : Nat) (c : Cls) (v : RankSlot) :
    Same s (State.setRank s tn c v) := by
  unfold State.setRank
  exact ⟨rfl, rfl, rfl⟩

@[simp] theorem State.modQueue_same (s : State) (q : Nat) (f : Queue → Queue) : Same s (State.modQueue s q f) := by
  unfold State.modQueue
  exact ⟨rfl, rfl, rfl⟩

@[simp] theorem State.modQVol_same (s : State) (q : Nat) (f : QVol → QVol) : Same s (State.modQVol s q f) := by
  unfold State.modQVol
  exact ⟨rfl, rfl, rfl⟩

@[simp] theorem State.modXIsland_same (s : State) (i : Nat) (f : XIsland → XIsland) :
    Same s (State.modXIsland s i f) := by
  unfold State.modXIsland
  exact ⟨rfl, rfl, rfl⟩

@[simp] theorem State.modLane_same (s : State) (n : Nat) (f : Lane → Lane) : Same s (State.modLane s n f) := by
  unfold State.modLane
  exact ⟨rfl, rfl, rfl⟩

@[simp] theorem State.arrive_same (s : State) (g : Nat) (x : Sent Event) :
    Same s (State.arrive s g x) := by
  unfold State.arrive
  exact ⟨rfl, rfl, rfl⟩

@[simp] theorem State.enqueue_same (s : State) (g : Nat) (e : Event) : Same s (State.enqueue s g e) := by
  unfold State.enqueue
  exact ⟨rfl, rfl, rfl⟩

@[simp] theorem State.submit_same (s : State) (i : Nat) (g : Nat) (e : Event) :
    Same s (State.submit s i g e) := by
  unfold State.submit
  simp [Same]

@[simp] theorem State.submitNext_same (s : State) (i : Nat) (g : Nat) :
    Same s (State.submitNext s i g) := by
  unfold State.submitNext
  repeat' (first | exact ⟨rfl, rfl, rfl⟩ | (simp [Same]; done) | (simp [Same, *]; done) | split)

@[simp] theorem State.raiseFrom_same (s : State) (i : Nat) (sn : Nat) :
    Same s (State.raiseFrom s i sn) := by
  unfold State.raiseFrom
  simp [Same]

@[simp] theorem State.raise_same (s : State) (sn : Nat) :
    Same s (State.raise s sn) := by
  unfold State.raise
  simp [Same]

@[simp] theorem State.raiseAll_same (s : State) (sns : List Nat) : Same s (State.raiseAll s sns) := by
  unfold State.raiseAll
  simp [Same]

@[simp] theorem State.notifyRank_same (s : State) (sn : Nat) (tn : Nat) (n : Notify) :
    Same s (State.notifyRank s sn tn n) := by
  unfold State.notifyRank
  exact ⟨rfl, rfl, rfl⟩

@[simp] theorem State.notifyRoute_same (s : State) (sn : Nat) (t : Option Nat) (c : Cls) (cand : Option Cand) :
    Same s (State.notifyRoute s sn t c cand) := by
  unfold State.notifyRoute
  repeat' (first | exact ⟨rfl, rfl, rfl⟩ | (simp [Same]; done) | (simp [Same, *]; done) | split)

@[simp] theorem State.owe_same (s : State) (tn : Nat) (c : Cls) :
    Same s (State.owe s tn c) := by
  unfold State.owe
  exact ⟨rfl, rfl, rfl⟩

@[simp] theorem State.mgmt_same (s : State) (n : Nat) : Same s (State.mgmt s n) := by
  unfold State.mgmt
  exact ⟨rfl, rfl, rfl⟩

@[simp] theorem State.conductBit_same (s : State) (r : Req) (n : Nat) : Same s (State.conductBit s r n) := by
  unfold State.conductBit
  exact ⟨rfl, rfl, rfl⟩

@[simp] theorem State.clampedBy_same (s : State) (r : Req) (b : Bool) : Same s (State.clampedBy s r b) := by
  unfold State.clampedBy
  simp [Same]

@[simp] theorem State.ignoredWrite_same (s : State) (r : Req) (space : Nat) (addr : Nat) (reason : Nat) :
    Same s (State.ignoredWrite s r space addr reason) := by
  unfold State.ignoredWrite
  repeat' (first | exact ⟨rfl, rfl, rfl⟩ | (simp [Same]; done) | (simp [Same, *]; done) | split)

@[simp] theorem cutIsland_same (i : Nat) (s : State) : Same s (cutIsland i s) := by
  unfold cutIsland
  repeat' (first | exact ⟨rfl, rfl, rfl⟩ | (simp [Same]; done) | (simp [Same, *]; done) | split)

@[simp] theorem startCheckpoint_same (s : State) : Same s (startCheckpoint s) := by
  unfold startCheckpoint
  exact ⟨rfl, rfl, rfl⟩

@[simp] theorem requestRoot_same (s : State) : Same s (requestRoot s) := by
  unfold requestRoot
  simp [Same]

@[simp] theorem underCut_same (c : Ckpt) (f : State → State) (s : State) (hf : ∀ (y0 : State), Same y0 (f y0)) :
    Same s (underCut c f s) := by
  unfold underCut
  simp [Same, *]

@[simp] theorem crossing_same (ids : List Nat) (f : State → State) (s : State) (hf : ∀ (y0 : State), Same y0 (f y0)) :
    Same s (crossing ids f s) := by
  unfold crossing
  repeat' (first | exact ⟨rfl, rfl, rfl⟩ | (simp [Same]; done) | (simp [Same, *]; done) | split)

@[simp] theorem receiving_same {α : Type} (x : Sent α) (ids : List Nat) (f : State → State) (s : State) (hf : ∀ (y0 : State), Same y0 (f y0)) :
    Same s (receiving x ids f s) := by
  unfold receiving
  repeat' (first | exact ⟨rfl, rfl, rfl⟩ | (simp [Same]; done) | (simp [Same, *]; done) | split)

@[simp] theorem State.modIsland_same (s : State) (i : Nat) (f : IslandPower → IslandPower) :
    Same s (State.modIsland s i f) := by
  unfold State.modIsland
  exact ⟨rfl, rfl, rfl⟩

@[simp] theorem State.wakeCause_same (s : State) (i : Nat) : Same s (State.wakeCause s i) := by
  unfold State.wakeCause
  simp [Same]

@[simp] theorem State.busy_same (s : State) (i : Nat) : Same s (State.busy s i) := by
  unfold State.busy
  exact ⟨rfl, rfl, rfl⟩

@[simp] theorem handshake_same (ids : List Nat) (f : State → State) (s : State) (hf : ∀ (y0 : State), Same y0 (f y0)) :
    Same s (handshake ids f s) := by
  unfold handshake
  simp [Same, *]

@[simp] theorem onIslands_same (ids : List Nat) (f : State → State) (s : State) (hf : ∀ (y0 : State), Same y0 (f y0)) :
    Same s (onIslands ids f s) := by
  unfold onIslands
  repeat' (first | exact ⟨rfl, rfl, rfl⟩ | (simp [Same]; done) | (simp [Same, *]; done) | split)

@[simp] theorem State.wakeUp_same (s : State) (i : Nat) : Same s (State.wakeUp s i) := by
  unfold State.wakeUp
  simp [Same]

@[simp] theorem onArrival_same (ids : List Nat) (f : State → State) (s : State) (hf : ∀ (y0 : State), Same y0 (f y0)) :
    Same s (onArrival ids f s) := by
  unfold onArrival
  repeat' (first | exact ⟨rfl, rfl, rfl⟩ | (simp [Same]; done) | (simp [Same, *]; done) | split)

@[simp] theorem State.passToLink_same (s : State) (p : Port) (r : LinkReq) : Same s (State.passToLink s p r) := by
  unfold State.passToLink
  simp [Same]

@[simp] theorem State.holdEngine_same (s : State) (q : Nat) (slot : Nat) : Same s (State.holdEngine s q slot) := by
  unfold State.holdEngine
  exact ⟨rfl, rfl, rfl⟩

@[simp] theorem State.freeEngine_same (s : State) (island : Nat) : Same s (State.freeEngine s island) := by
  unfold State.freeEngine
  exact ⟨rfl, rfl, rfl⟩

@[simp] theorem waitQueues_same (ns : Nat) (s : State) : Same s (waitQueues ns s) := by
  unfold waitQueues
  simp [Same]

@[simp] theorem State.elapse_same (s : State) (ns : Nat) : Same s (State.elapse s ns) := by
  unfold State.elapse
  simp [Same]

@[simp] theorem State.elapseTo_same (s : State) (t : Nat) : Same s (State.elapseTo s t) := by
  unfold State.elapseTo
  simp [Same]

@[simp] theorem applyEvent_same (sn : Nat) (s : State) :
    Same s (applyEvent sn s) := by
  unfold applyEvent
  dsimp only
  repeat' (first | exact ⟨rfl, rfl, rfl⟩ | (simp [Same]; done) | (simp_all [Same]; done) | split)

@[simp] theorem withdrawSource_same (sn : Nat) (s : State) :
    Same s (withdrawSource sn s) := by
  unfold withdrawSource
  dsimp only
  repeat' (first | exact ⟨rfl, rfl, rfl⟩ | (simp [Same]; done) | (simp_all [Same]; done) | split)

@[simp] theorem setFlush_same (f : Globals → Globals) (s : State) :
    Same s (setFlush f s) := by
  unfold setFlush
  exact ⟨rfl, rfl, rfl⟩

@[simp] theorem flushCheck_same (s : State) : Same s (flushCheck s) := by
  unfold flushCheck
  simp [Same]

@[simp] theorem flushLeave_same (tn : Nat) (to' : Flush) (s : State) : Same s (flushLeave tn to' s) := by
  unfold flushLeave
  simp [Same]

@[simp] theorem acceptClaim_same (tn : Nat) (c : Cls) (sn : Nat) (note : Bool) (s : State) :
    Same s (acceptClaim tn c sn note s) := by
  unfold acceptClaim
  simp [Same]

@[simp] theorem eoiTransition_same (sn : Nat) (s : State) :
    Same s (eoiTransition sn s) := by
  unfold eoiTransition
  simp [Same]

@[simp] theorem acceptEoi_same (tn : Nat) (c : Cls) (sn : Nat) (s : State) : Same s (acceptEoi tn c sn s) := by
  unfold acceptEoi
  simp [Same]

@[simp] theorem holderReset_same (tn : Nat) (c : Cls) (sn : Nat) (s : State) :
    Same s (holderReset tn c sn s) := by
  unfold holderReset
  simp [Same]

@[simp] theorem maskTimed_same (sn : Nat) (was : Bool) (now : Bool) (s : State) :
    Same s (maskTimed sn was now s) := by
  unfold maskTimed
  simp [Same]

@[simp] theorem applyRoute_same (n : Route) (s : State) :
    Same s (applyRoute n s) := by
  unfold applyRoute
  simp [Same]

@[simp] theorem setMask_same (sn : Nat) (m : Bool) (s : State) : Same s (setMask sn m s) := by
  unfold setMask
  simp [Same]

@[simp] theorem renotify_same (test : Nat → Bool) (s : State) : Same s (renotify test s) := by
  unfold renotify
  simp [Same]

@[simp] theorem setTargetRoom_same (tn : Nat) (room : Nat) (s : State) : Same s (setTargetRoom tn room s) := by
  unfold setTargetRoom
  simp [Same]

@[simp] theorem setReach_same (m : Nat) (mask : BitVec 16) (s : State) : Same s (setReach m mask s) := by
  unfold setReach
  simp [Same]

@[simp] theorem sendSelect_same (tn : Nat) (m : Select) (s : State) : Same s (sendSelect tn m s) := by
  unfold sendSelect
  exact ⟨rfl, rfl, rfl⟩

@[simp] theorem sendOffer_same (tn : Nat) (c : Cls) (p : Nat × Cand) (s : State) :
    Same s (sendOffer tn c p s) := by
  unfold sendOffer
  exact ⟨rfl, rfl, rfl⟩

@[simp] theorem selectStep_same (tn : Nat) (c : Cls) (s : State) : Same s (selectStep tn c s) := by
  unfold selectStep
  repeat' (first | exact ⟨rfl, rfl, rfl⟩ | (simp [Same]; done) | (simp [Same, *]; done) | split)

@[simp] theorem learn_same (tn : Nat) (c : Cls) (sn : Nat) (k : Option Cand) (s : State) :
    Same s (learn tn c sn k s) := by
  unfold learn
  exact ⟨rfl, rfl, rfl⟩

@[simp] theorem selectAfter_same (tn : Nat) (c : Cls) (s : State) :
    Same s (selectAfter tn c s) := by
  unfold selectAfter
  dsimp only
  repeat' (first | exact ⟨rfl, rfl, rfl⟩ | (simp [Same]; done) | (simp_all [Same]; done) | split)

@[simp] theorem takeNotify_same (n : Notify) (s : State) :
    Same s (takeNotify n s) := by
  unfold takeNotify
  dsimp only
  repeat' (first | exact ⟨rfl, rfl, rfl⟩ | (simp [Same]; done) | (simp_all [Same]; done) | split)

@[simp] theorem selectHeld_same (tn : Nat) (f : State → State) (s : State) (hf : ∀ (y0 : State), Same y0 (f y0)) :
    Same s (selectHeld tn f s) := by
  unfold selectHeld
  simp [Same, *]

@[simp] theorem rankStep_same (rank : Nat) (s : State) :
    Same s (rankStep rank s) := by
  unfold rankStep
  repeat' (first | exact ⟨rfl, rfl, rfl⟩ | (simp [Same]; done) | (simp [Same, *]; done) | split)

@[simp] theorem dueStep_same (rank : Nat) (s : State) :
    Same s (dueStep rank s) := by
  unfold dueStep
  repeat' (first | exact ⟨rfl, rfl, rfl⟩ | (simp [Same]; done) | (simp [Same, *]; done) | split)

@[simp] theorem wiredRequest_same (sn : Nat) (assert : Bool) (level : Bool) (s : State) :
    Same s (wiredRequest sn assert level s) := by
  unfold wiredRequest
  repeat' (first | exact ⟨rfl, rfl, rfl⟩ | (simp [Same]; done) | (simp [Same, *]; done) | split)

@[simp] theorem State.restartFilter_same (s : State) (p : Nat) :
    Same s (State.restartFilter s p) := by
  unfold State.restartFilter
  exact ⟨rfl, rfl, rfl⟩

@[simp] theorem modeRequest_same (sn : Nat) (mode : Nat) (asserted : Bool) (s : State) :
    Same s (modeRequest sn mode asserted s) := by
  unfold modeRequest
  simp [Same]

@[simp] theorem setPinCfg_same (p : Nat) (mode : Nat) (filter : Nat) (s : State) :
    Same s (setPinCfg p mode filter s) := by
  unfold setPinCfg
  simp [Same]

@[simp] theorem samplePins_same (s : State) (g : Nat) :
    Same s (samplePins s g) := by
  unfold samplePins
  dsimp only
  repeat' (first | exact ⟨rfl, rfl, rfl⟩ | (simp [Same]; done) | (simp_all [Same]; done) | split)

@[simp] theorem State.setLaneCfg_same (s : State) (n : Nat) (c : LaneCfg) : Same s (State.setLaneCfg s n c) := by
  unfold State.setLaneCfg
  exact ⟨rfl, rfl, rfl⟩

@[simp] theorem applyLine_same (n : Nat) (fromOff : Bool) (all : Bool) (edgeAll : Bool) (old : BitVec 64) (new : BitVec 64) (s : State) (i : Nat) :
    Same s (applyLine n fromOff all edgeAll old new s i) := by
  unfold applyLine
  simp [Same]

@[simp] theorem applyFrame_same (n : Nat) (seq : Nat) (gap : Bool) (cells : List (Option Bool)) (s : State) :
    Same s (applyFrame n seq gap cells s) := by
  unfold applyFrame
  simp [Same]

@[simp] theorem checkedApply_same (n : Nat) (seq : Nat) (cells : List (Option Bool)) (s : State) :
    Same s (checkedApply n seq cells s) := by
  unfold checkedApply
  simp [Same]

@[simp] theorem lenientApply_same (n : Nat) (cells : List (Option Bool)) (s : State) :
    Same s (lenientApply n cells s) := by
  unfold lenientApply
  repeat' (first | exact ⟨rfl, rfl, rfl⟩ | (simp [Same]; done) | (simp [Same, *]; done) | split)

@[simp] theorem shortFrame_same (n : Nat) (enf : Bool) (cells : List (Option Bool)) (s : State) :
    Same s (shortFrame n enf cells s) := by
  unfold shortFrame
  simp [Same]

@[simp] theorem wholeFrame_same (n : Nat) (enf : Bool) (cells : List (Option Bool)) (s : State) :
    Same s (wholeFrame n enf cells s) := by
  unfold wholeFrame
  simp [Same]

@[simp] theorem lockedFrame_same (n : Nat) (f : SillFrame) (s : State) : Same s (lockedFrame n f s) := by
  unfold lockedFrame
  repeat' (first | exact ⟨rfl, rfl, rfl⟩ | (simp [Same]; done) | (simp [Same, *]; done) | split)

@[simp] theorem huntingFrame_same (n : Nat) (f : SillFrame) (s : State) : Same s (huntingFrame n f s) := by
  unfold huntingFrame
  simp [Same]

@[simp] theorem takePendingCtl_same (n : Nat) (s : State) : Same s (takePendingCtl n s) := by
  unfold takePendingCtl
  repeat' (first | exact ⟨rfl, rfl, rfl⟩ | (simp [Same]; done) | (simp [Same, *]; done) | split)

@[simp] theorem staleLine_same (n : Nat) (policy : Nat) (s : State) (i : Nat) :
    Same s (staleLine n policy s i) := by
  unfold staleLine
  simp [Same]

@[simp] theorem laneDisable_same (n : Nat) (s : State) : Same s (laneDisable n s) := by
  unfold laneDisable
  simp [Same]

@[simp] theorem setLaneCtl_same (n : Nat) (c : LaneCfg) (s : State) : Same s (setLaneCtl n c s) := by
  unfold setLaneCtl
  simp [Same]

@[simp] theorem setLineCfg_same (n : Nat) (i : Nat) (mode : Nat) (s : State) : Same s (setLineCfg n i mode s) := by
  unfold setLineCfg
  simp [Same]

@[simp] theorem lanesAfterRecovery_same (s : State) : Same s (lanesAfterRecovery s) := by
  unfold lanesAfterRecovery
  exact ⟨rfl, rfl, rfl⟩

@[simp] theorem throttleEngage_same (banks : List Nat) (s : State) :
    Same s (throttleEngage banks s) := by
  unfold throttleEngage
  simp [Same]

@[simp] theorem guarded_same (f : State → State) (s : State) (hf : ∀ (y0 : State), Same y0 (f y0)) :
    Same s (guarded f s) := by
  unfold guarded
  simp [Same, *]

@[simp] theorem throttleRelease_same (s : State) : Same s (throttleRelease s) := by
  unfold throttleRelease
  simp [Same]

@[simp] theorem letterboxReject_same (port : Port) (requester : BitVec 16) (offset : Nat) (reason : Nat) (room : Nat) (sn : Nat) (s : State) :
    Same s (letterboxReject port requester offset reason room sn s) := by
  unfold letterboxReject
  simp [Same]

@[simp] theorem State.hold_same (s : State) (r : Req) (a : Access) :
    Same s (State.hold s r a) := by
  unfold State.hold
  exact ⟨rfl, rfl, rfl⟩

@[simp] theorem letterboxWrite_same (port : Port) (requester : BitVec 16) (w : HostWrite) (note : Bool) (s : State) :
    Same s (letterboxWrite port requester w note s) := by
  unfold letterboxWrite
  simp [Same]

@[simp] theorem letterboxArrival_same (port : Port) (requester : BitVec 16) (w : HostWrite) (s : State) :
    Same s (letterboxArrival port requester w s) := by
  unfold letterboxArrival
  repeat' (first | exact ⟨rfl, rfl, rfl⟩ | (simp [Same]; done) | (simp [Same, *]; done) | split)

@[simp] theorem eoiError_same (island : Nat) (tn : Nat) (c : Cls) (sn : Nat) (reason : Nat) (s : State) :
    Same s (eoiError island tn c sn reason s) := by
  unfold eoiError
  simp [Same]

@[simp] theorem decideClaim_same (tn : Nat) (c : Cls) (sn : Nat) (note : Bool) (s : State) :
    Same s (decideClaim tn c sn note s) := by
  unfold decideClaim
  simp [Same]

@[simp] theorem notifyHeld_same (bank : Nat) (f : State → State) (s : State) (hf : ∀ (y0 : State), Same y0 (f y0)) :
    Same s (notifyHeld bank f s) := by
  unfold notifyHeld
  simp [Same, *]

@[simp] theorem grantOne_same (key : Nat) (s : State) :
    Same s (grantOne key s) := by
  unfold grantOne
  dsimp only
  repeat' (first | exact ⟨rfl, rfl, rfl⟩ | (simp [Same]; done) | (simp_all [Same]; done) | split)

@[simp] theorem recordFault_same (r : FaultRec) (s : State) :
    Same s (recordFault r s) := by
  unfold recordFault
  simp [Same]

@[simp] theorem reportFault_same (r : FaultRec) (s : State) :
    Same s (reportFault r s) := by
  unfold reportFault
  simp [Same]

@[simp] theorem releaseFaults_same (s : State) :
    Same s (releaseFaults s) := by
  unfold releaseFaults
  simp [Same]

@[simp] theorem consumeFaults_same (n : Nat) (s : State) : Same s (consumeFaults n s) := by
  unfold consumeFaults
  simp [Same]

@[simp] theorem waitForGrant_same (r : XReq) (s : State) : Same s (waitForGrant r s) := by
  unfold waitForGrant
  exact ⟨rfl, rfl, rfl⟩

theorem issueWalkRead_same {s t : State} {room addr : Nat} (h : issueWalkRead s room addr = some t) : Same s t := by
  unfold issueWalkRead at h
  dsimp only at h
  split at h <;> simp at h
  subst h; simp [Same]

@[simp] theorem cacheEntry_same (w : Walk) (e : Nat) (s : State) : Same s (cacheEntry w e s) := by
  unfold cacheEntry
  simp [Same]

@[simp] theorem endWalk_same (island : Nat) (id : Nat) (s : State) : Same s (endWalk island id s) := by
  unfold endWalk
  exact ⟨rfl, rfl, rfl⟩

@[simp] theorem walkAdvance_same (island : Nat) (w : Walk) (result : HostRead) (s : State) :
    Same s (walkAdvance island w result s).1 := by
  unfold walkAdvance
  split
  · dsimp only
    split
    · simp [Same]
    · split
      · simp [Same]
      · exact Same.trans (Same.trans (cacheEntry_same ..) (issueWalkRead_same ‹_›)) (by simp [Same])
  · simp [Same]

@[simp] theorem invalidate_same (room : Nat) (range : Option (Nat × Nat)) (item : Option (Nat × Nat)) (s : State) :
    Same s (invalidate room range item s) := by
  unfold invalidate
  simp [Same]

@[simp] theorem setXlateRoom_same (m : Nat) (f : XlateRoom → XlateRoom) (s : State) :
    Same s (setXlateRoom m f s) := by
  unfold setXlateRoom
  simp [Same]

@[simp] theorem invalidateRange_same (room : Nat) (iova : Nat) (pages : Nat) (s : State) :
    Same s (invalidateRange room iova pages s) := by
  unfold invalidateRange
  simp [Same]

@[simp] theorem readArrives_same (p : Port) (a : Access) (ids : List Nat) (f : State → State) (s : State) (hf : ∀ (y0 : State), Same y0 (f y0)) :
    Same s (readArrives p a ids f s) := by
  unfold readArrives
  simp [Same, *]

@[simp] theorem State.answerRead_same (s : State) (r : Reader) (v : Word) :
    Same s (State.answerRead s r v) := by
  unfold State.answerRead
  simp [Same]

@[simp] theorem State.wakeForRead_same (s : State) (ids : List Nat) : Same s (State.wakeForRead s ids) := by
  unfold State.wakeForRead
  simp [Same]

@[simp] theorem State.wakeForWrite_same (s : State) (ids : List Nat) : Same s (State.wakeForWrite s ids) := by
  unfold State.wakeForWrite
  simp [Same]

@[simp] theorem hostAccess_same (port : Port) (a : Access) (always : Bool) (ids : List Nat) (zero : State → State) (pass : State → State) (s : State) (hzero : ∀ (y0 : State), Same y0 (zero y0)) (hpass : ∀ (y0 : State), Same y0 (pass y0)) :
    Same s (hostAccess port a always ids zero pass s) := by
  unfold hostAccess
  repeat' (first | exact ⟨rfl, rfl, rfl⟩ | (simp [Same]; done) | (simp [Same, *]; done) | split)

@[simp] theorem hostRead_same (r : Reader) (a : Access) (always : Bool) (ids : List Nat) (f : State → State × Word) (s : State) (hf : ∀ (y0 : State), Same y0 (f y0).1) :
    Same s (hostRead r a always ids f s) := by
  unfold hostRead
  simp [Same, *]

@[simp] theorem hostWrite_same (port : Port) (a : Access) (always : Bool) (ids : List Nat) (f : State → State) (s : State) (hf : ∀ (y0 : State), Same y0 (f y0)) :
    Same s (hostWrite port a always ids f s) := by
  unfold hostWrite
  simp [Same, *]

@[simp] theorem buildDelivery_same (tn : Nat) (c : Cls) (pane : Option Nat) (withWake : Bool) (s : State) :
    Same s (buildDelivery tn c pane withWake s) := by
  unfold buildDelivery
  dsimp only
  repeat' (first | exact ⟨rfl, rfl, rfl⟩ | (simp [Same]; done) | (simp_all [Same]; done) | split | simp [Same])

@[simp] theorem paneFault_same (tn : Nat) (c : Cls) (code : Nat) (level : Nat) (s : State) :
    Same s (paneFault tn c code level s) := by
  unfold paneFault
  simp [Same]

@[simp] theorem fillLatch_same (tn : Nat) (c : Cls) (addr : Nat) (s : State) : Same s (fillLatch tn c addr s) := by
  unfold fillLatch
  exact ⟨rfl, rfl, rfl⟩

@[simp] theorem takeSelect_same (m : Select) (s : State) : Same s (takeSelect m s) := by
  unfold takeSelect
  repeat' (first | exact ⟨rfl, rfl, rfl⟩ | (simp [Same]; done) | (simp [Same, *]; done) | split)

@[simp] theorem dropSelect_same (island : Nat) (rest : List (Sent Select)) (s : State) :
    Same s (dropSelect island rest s) := by
  unfold dropSelect
  exact ⟨rfl, rfl, rfl⟩

@[simp] theorem sendClaim_same (tn : Nat) (bank : Nat) (r : ClaimReq) (s : State) :
    Same s (sendClaim tn bank r s) := by
  unfold sendClaim
  exact ⟨rfl, rfl, rfl⟩

@[simp] theorem judgeClaim_same (r : Reader) (tn : Nat) (c : Cls) (s : State) :
    Same s (judgeClaim r tn c s) := by
  unfold judgeClaim
  repeat' (first | exact ⟨rfl, rfl, rfl⟩ | (simp [Same]; done) | (simp [Same, *]; done) | split)

@[simp] theorem claimRead_same (r : Reader) (tn : Nat) (cls : Cls) (s : State) :
    Same s (claimRead r tn cls s) := by
  unfold claimRead
  simp [Same]

@[simp] theorem judgeNext_same (tn : Nat) (c : Cls) (x1 : List Reader) (x2 : State) :
    Same x2 (judgeNext tn c x1 x2) := by
  induction x1 generalizing x2 with
  | nil => simp [judgeNext, Same]
  | cons a l ih =>
    unfold judgeNext
    first
      | (dsimp only
         repeat' (first | exact ⟨rfl, rfl, rfl⟩ | (simp [Same]; done) | (simp_all [Same]; done) | split))
      | (dsimp only
         repeat' (first | exact ⟨rfl, rfl, rfl⟩ | (exact ih ..) | (simp [Same, ih]; done) | (refine Same.trans ?_ (ih ..)) | (simp_all [Same]; done) | split))

@[simp] theorem finishClaim_same (tn : Nat) (c : Cls) (noteLost : Bool) (pane : Bool) (s : State) :
    Same s (finishClaim tn c noteLost pane s) := by
  unfold finishClaim
  dsimp only
  repeat' (first | exact ⟨rfl, rfl, rfl⟩ | (simp [Same]; done) | (simp_all [Same]; done) | split)

@[simp] theorem creditWaitEnds_same (p : Port) (s : State) : Same s (creditWaitEnds p s) := by
  unfold creditWaitEnds
  simp [Same]

@[simp] theorem LinkReq.emitTo_same (r : LinkReq) (p : Port) (s : State) : Same s (LinkReq.emitTo r p s) := by
  unfold LinkReq.emitTo
  repeat' (first | exact ⟨rfl, rfl, rfl⟩ | (simp [Same]; done) | (simp [Same, *]; done) | split)

@[simp] theorem issueThrough_same (p : Port) (id : Nat) (x1 : List LinkReq) (x2 : State) :
    Same x2 (issueThrough p id x1 x2) := by
  induction x1 generalizing x2 with
  | nil => simp [issueThrough, Same]
  | cons a l ih =>
    unfold issueThrough
    first
      | (dsimp only
         repeat' (first | exact ⟨rfl, rfl, rfl⟩ | (simp [Same]; done) | (simp_all [Same]; done) | split))
      | (dsimp only
         repeat' (first | exact ⟨rfl, rfl, rfl⟩ | (exact ih ..) | (simp [Same, ih]; done) | (refine Same.trans ?_ (ih ..)) | (simp_all [Same]; done) | split))

@[simp] theorem dropDescriptor_same (port : Port) (tn : Nat) (c : Cls) (sn : Nat) (pane : Bool) (s : State) :
    Same s (dropDescriptor port tn c sn pane s) := by
  unfold dropDescriptor
  simp [Same]

@[simp] theorem claimRefuse_same (tn : Nat) (c : Cls) (s : State) :
    Same s (claimRefuse tn c s) := by
  unfold claimRefuse
  dsimp only
  repeat' (first | exact ⟨rfl, rfl, rfl⟩ | (simp [Same]; done) | (simp_all [Same]; done) | split)

@[simp] theorem judgeEoi_same (tn : Nat) (c : Cls) (sn : Nat) (s : State) :
    Same s (judgeEoi tn c sn s) := by
  unfold judgeEoi
  simp [Same]

@[simp] theorem setThreshold_same (tn : Nat) (c : Cls) (v : Nat) (s : State) : Same s (setThreshold tn c v s) := by
  unfold setThreshold
  simp [Same]

@[simp] theorem setLouvre_same (tn : Nat) (c : Cls) (v : Nat) (s : State) : Same s (setLouvre tn c v s) := by
  unfold setLouvre
  simp [Same]

@[simp] theorem State.setEnable_same (s : State) (tn : Nat) (b : Bool) : Same s (State.setEnable s tn b) := by
  unfold State.setEnable
  exact ⟨rfl, rfl, rfl⟩

@[simp] theorem writeWdog_same (tn : Nat) (c : Cls) (was : Bool) (now : Bool) (s : State) :
    Same s (writeWdog tn c was now s) := by
  unfold writeWdog
  simp [Same]

@[simp] theorem setTargetControl_same (tn : Nat) (v : Nat) (s : State) : Same s (setTargetControl tn v s) := by
  unfold setTargetControl
  simp [Same]

@[simp] theorem setPane_same (tn : Nat) (c : Cls) (a : Nat) (s : State) : Same s (setPane tn c a s) := by
  unfold setPane
  simp [Same]

@[simp] theorem settleClaim_same (tn : Nat) (c : Cls) (s : State) :
    Same s (settleClaim tn c s).1 := by
  unfold settleClaim
  dsimp only
  repeat' (first | exact ⟨rfl, rfl, rfl⟩ | (simp [Same]; done) | (simp_all [Same]; done) | split)

@[simp] theorem purgeSelect_same (tn : Nat) (s : State) : Same s (purgeSelect tn s) := by
  unfold purgeSelect
  exact ⟨rfl, rfl, rfl⟩

@[simp] theorem setShutter_same (closed : Bool) (s : State) : Same s (setShutter closed s) := by
  unfold setShutter
  exact ⟨rfl, rfl, rfl⟩

@[simp] theorem maskFromPort_same (port : Port) (sn : Nat) (m : Bool) (s : State) :
    Same s (maskFromPort port sn m s) := by
  unfold maskFromPort
  simp [Same]

@[simp] theorem writeRing_same (x : Nat) (bytes : List Byte) (s : State) : Same s (writeRing x bytes s) := by
  unfold writeRing
  exact ⟨rfl, rfl, rfl⟩

@[simp] theorem queueEvent_same (q : Nat) (n : Nat) (s : State) :
    Same s (queueEvent q n s) := by
  unfold queueEvent
  simp [Same]

@[simp] theorem dropFetched_same (q : Nat) (s : State) : Same s (dropFetched q s) := by
  unfold dropFetched
  exact ⟨rfl, rfl, rfl⟩

@[simp] theorem idleCheck_same (q : Nat) (s : State) :
    Same s (idleCheck q s) := by
  unfold idleCheck
  simp [Same]

@[simp] theorem drainEnd_same (q : Nat) (s : State) : Same s (drainEnd q s) := by
  unfold drainEnd
  simp [Same]

@[simp] theorem drainCheck_same (q : Nat) (s : State) : Same s (drainCheck q s) := by
  unfold drainCheck
  simp [Same]

@[simp] theorem trimWindow_same (q : Nat) (s : State) :
    Same s (trimWindow q s) := by
  unfold trimWindow
  exact ⟨rfl, rfl, rfl⟩

@[simp] theorem unbegun_same (q : Nat) (slot : Nat) (s : State) : Same s (unbegun q slot s) := by
  unfold unbegun
  dsimp only
  repeat' (first | exact ⟨rfl, rfl, rfl⟩ | (simp [Same]; done) | (simp_all [Same]; done) | split | simp [Same])

@[simp] theorem queueStop_same (q : Nat) (cause : Nat) (slot : Nat) (s : State) :
    Same s (queueStop q cause slot s) := by
  unfold queueStop
  simp [Same]

@[simp] theorem checkHeadFault_same (q : Nat) (s : State) : Same s (checkHeadFault q s) := by
  unfold checkHeadFault
  dsimp only
  repeat' (first | exact ⟨rfl, rfl, rfl⟩ | (simp [Same]; done) | (simp_all [Same]; done) | split | simp [Same])

@[simp] theorem windowAdd_same (q : Nat) (f : Fetched) (s : State) : Same s (windowAdd q f s) := by
  unfold windowAdd
  exact ⟨rfl, rfl, rfl⟩

@[simp] theorem fetchFault_same (q : Nat) (slot : Nat) (owned : Bool) (code : Nat) (level : Nat) (s : State) :
    Same s (fetchFault q slot owned code level s) := by
  unfold fetchFault
  simp [Same]

@[simp] theorem fetchReturns_same (q : Nat) (slot : Nat) (result : HostRead) (s : State) :
    Same s (fetchReturns q slot result s) := by
  unfold fetchReturns
  dsimp only
  repeat' (first | exact ⟨rfl, rfl, rfl⟩ | (simp [Same]; done) | (simp_all [Same]; done) | split | simp [Same])

@[simp] theorem fetchArrives_same (q : Fin 256) (slot : Nat) (result : HostRead) (s : State) :
    Same s (fetchArrives q slot result s) := by
  unfold fetchArrives
  simp [Same]

@[simp] theorem ringFetchResume_same (q : Nat) (slot : Nat) (owned : Bool) (x : Xlated) (s : State) :
    Same s (ringFetchResume q slot owned x s) := by
  unfold ringFetchResume
  dsimp only
  repeat' (first | exact ⟨rfl, rfl, rfl⟩ | (simp [Same]; done) | (simp_all [Same]; done) | split | simp [Same])

@[simp] theorem State.modItem_same (s : State) (q : Nat) (slot : Nat) (f : Item → Item) :
    Same s (State.modItem s q slot f) := by
  unfold State.modItem
  exact ⟨rfl, rfl, rfl⟩

@[simp] theorem finishCompletion_same (q : Nat) (it : Item) (e : Ending) (s : State) :
    Same s (finishCompletion q it e s) := by
  unfold finishCompletion
  simp [Same]

@[simp] theorem completionFault_same (q : Nat) (it : Item) (e : Ending) (code : Nat) (level : Nat) (s : State) :
    Same s (completionFault q it e code level s) := by
  unfold completionFault
  simp [Same]

@[simp] theorem completionResume_same (q : Nat) (slot : Nat) (x : Xlated) (s : State) :
    Same s (completionResume q slot x s) := by
  unfold completionResume
  dsimp only
  repeat' (first | exact ⟨rfl, rfl, rfl⟩ | (simp [Same]; done) | (simp_all [Same]; done) | split | simp [Same])

@[simp] theorem queueDisable_same (q : Nat) (s : State) : Same s (queueDisable q s) := by
  unfold queueDisable
  simp [Same]

@[simp] theorem setQueueConfig_same (q : Nat) (v : Nat) (s : State) : Same s (setQueueConfig q v s) := by
  unfold setQueueConfig
  exact ⟨rfl, rfl, rfl⟩

@[simp] theorem queueInvalidate_same (q : Nat) (s : State) : Same s (queueInvalidate q s) := by
  unfold queueInvalidate
  exact ⟨rfl, rfl, rfl⟩

@[simp] theorem queueResume_same (q : Nat) (s : State) : Same s (queueResume q s) := by
  unfold queueResume
  simp [Same]

@[simp] theorem queueRetract_same (q : Nat) (s : State) : Same s (queueRetract q s) := by
  unfold queueRetract
  exact ⟨rfl, rfl, rfl⟩

@[simp] theorem queueZeroIndex_same (q : Nat) (s : State) : Same s (queueZeroIndex q s) := by
  unfold queueZeroIndex
  exact ⟨rfl, rfl, rfl⟩

@[simp] theorem queueActions_same (q : Nat) (v : Nat) (s : State) : Same s (queueActions q v s) := by
  unfold queueActions
  simp [Same]

@[simp] theorem windowWrite_same (port : Port) (q : Nat) (n : Nat) (v : Word) (s : State) :
    Same s (windowWrite port q n v s) := by
  unfold windowWrite
  simp [Same]

@[simp] theorem windowRead_same (port : Port) (q : Nat) (n : Nat) (s : State) :
    Same s (windowRead port q n s).1 := by
  unfold windowRead
  simp [Same]

@[simp] theorem finishRead_same (port : Port) (offset : Nat) (length : Nat) (s : State) :
    Same s (finishRead port offset length s) := by
  unfold finishRead
  simp [Same]

@[simp] theorem readsDone_same (s : State) :
    Same s (readsDone s) := by
  unfold readsDone
  simp [Same]

@[simp] theorem dropBar4_same (port : Port) (notReady : Bool) (s : State) : Same s (dropBar4 port notReady s) := by
  unfold dropBar4
  simp [Same]

@[simp] theorem finishFence_same (r : Reader) (done : Bool) (s : State) :
    Same s (finishFence r done s) := by
  unfold finishFence
  simp [Same]

@[simp] theorem fenceReadsDone_same (s : State) :
    Same s (fenceReadsDone s) := by
  unfold fenceReadsDone
  simp [Same]

@[simp] theorem failLedgerReads_same (s : State) :
    Same s (failLedgerReads s) := by
  unfold failLedgerReads
  simp [Same]

@[simp] theorem dropStreams_same (s : State) : Same s (dropStreams s) := by
  unfold dropStreams
  exact ⟨rfl, rfl, rfl⟩

@[simp] theorem passCopy_same (island : Nat) (line : Nat) (addr : Nat) (s : State) :
    Same s (passCopy island line addr s) := by
  unfold passCopy
  simp [Same]

@[simp] theorem copyFault_same (line : Nat) (code : Nat) (level : Nat) (s : State) :
    Same s (copyFault line code level s) := by
  unfold copyFault
  simp [Same]

@[simp] theorem copyResume_same (island : Nat) (line : Nat) (room : Nat) (iova : Nat) (x : Xlated) (s : State) :
    Same s (copyResume island line room iova x s) := by
  unfold copyResume
  repeat' (first | exact ⟨rfl, rfl, rfl⟩ | (simp [Same]; done) | (simp [Same, *]; done) | split)

@[simp] theorem setHostMirror_same (h : HostMirror) (s : State) : Same s (setHostMirror h s) := by
  unfold setHostMirror
  exact ⟨rfl, rfl, rfl⟩

@[simp] theorem backlogAll_same (s : State) : Same s (backlogAll s) := by
  unfold backlogAll
  simp [Same]

@[simp] theorem releaseEngine_same (q : Nat) (slot : Nat) (s : State) : Same s (releaseEngine q slot s) := by
  unfold releaseEngine
  simp [Same]

@[simp] theorem endItem_same (q : Nat) (slot : Nat) (code : Nat) (result : List Byte) (s : State) :
    Same s (endItem q slot code result s) := by
  unfold endItem
  simp [Same]

@[simp] theorem endOk_same (q : Nat) (it : Item) (result : List Byte) (s : State) :
    Same s (endOk q it result s) := by
  unfold endOk
  simp [Same]

@[simp] theorem releaseStaging_same (s : State) :
    Same s (releaseStaging s) := by
  unfold releaseStaging
  dsimp only
  repeat' (first | exact ⟨rfl, rfl, rfl⟩ | (simp [Same]; done) | (simp_all [Same]; done) | split)

@[simp] theorem itemFault_same (q : Nat) (slot : Nat) (path : Nat) (iova : Nat) (code : Nat) (level : Nat) (s : State) :
    Same s (itemFault q slot path iova code level s) := by
  unfold itemFault
  split
  · simp [Same]
  · dsimp only
    refine Same.trans (Same.trans ?_ (reportFault_same ..)) (queueStop_same ..)
    split <;> simp [Same]

@[simp] theorem yieldItem_same (q : Nat) (slot : Nat) (s : State) : Same s (yieldItem q slot s) := by
  unfold yieldItem
  simp [Same]

@[simp] theorem ipiRaise_same (q : Nat) (slot : Nat) (ch : Nat) (s : State) (tn : Nat) :
    Same s (ipiRaise q slot ch s tn) := by
  unfold ipiRaise
  simp [Same]

@[simp] theorem ipiGroup_same (q : Nat) (it : Item) (s : State) : Same s (ipiGroup q it s) := by
  unfold ipiGroup
  simp [Same]

@[simp] theorem batchRecord_same (q slot : Nat) (p : State × Bool) (b : List Byte) :
    Same p.1 (batchRecord q slot p b).1 := by
  obtain ⟨s, going⟩ := p
  unfold batchRecord
  dsimp only
  cases going with
  | false => exact ⟨rfl, rfl, rfl⟩
  | true =>
    cases (s.queue q).items.find? (fun it => it.slot == slot) with
    | none => exact ⟨rfl, rfl, rfl⟩
    | some it =>
      dsimp only
      have key : ∀ o : Bool, Same s (if !o then (endItem q slot 20 (countsResult it) s, false) else
          ((if (recordRefusal s (s.queue q).room (decodeRecord b).1 (decodeRecord b).2).isNone then
            applyRoute (decodeRecord b).1 s else s).modItem q slot (fun it => { it with
              pos := it.pos + 1, lastSn := some (decodeRecord b).1.sn
              applied := if (recordRefusal s (s.queue q).room (decodeRecord b).1 (decodeRecord b).2).isNone then it.applied + 1 else it.applied
              refused := if (recordRefusal s (s.queue q).room (decodeRecord b).1 (decodeRecord b).2).isNone then it.refused else it.refused + 1 }), true)).1 := by
        intro o
        cases o with
        | false => simp [Same]
        | true =>
          refine Same.trans ?_ (State.modItem_same ..)
          split <;> simp [Same]
      exact key _

@[simp] theorem stageRecord_same (q slot : Nat) (p : State × Bool) (b : List Byte) :
    Same p.1 (stageRecord q slot p b).1 := by
  obtain ⟨s, going⟩ := p
  unfold stageRecord
  dsimp only
  split
  · split <;> simp [Same]
  · simp [Same]

@[simp] theorem swingCommit_same (q : Nat) (it : Item) (s : State) : Same s (swingCommit q it s) := by
  unfold swingCommit
  simp [Same]

@[simp] theorem setTimer_same (t : Nat) (v : Timer) (s : State) : Same s (setTimer t v s) := by
  unfold setTimer
  exact ⟨rfl, rfl, rfl⟩

@[simp] theorem timerArmStep_same (q : Nat) (it : Item) (s : State) : Same s (timerArmStep q it s) := by
  unfold timerArmStep
  simp [Same]

@[simp] theorem timerCancelStep_same (q : Nat) (it : Item) (s : State) : Same s (timerCancelStep q it s) := by
  unfold timerCancelStep
  simp [Same]

@[simp] theorem waitEarlier_same (q : Nat) (slot : Nat) (s : State) :
    Same s (waitEarlier q slot s) := by
  unfold waitEarlier
  exact ⟨rfl, rfl, rfl⟩

@[simp] theorem fenceStep_same (q : Nat) (it : Item) (s : State) : Same s (fenceStep q it s) := by
  unfold fenceStep
  simp [Same]

@[simp] theorem passStore_same (q : Nat) (it : Item) (addr : Nat) (s : State) : Same s (passStore q it addr s) := by
  unfold passStore
  simp [Same]

@[simp] theorem checkpointStep_same (q : Nat) (it : Item) (s : State) : Same s (checkpointStep q it s) := by
  unfold checkpointStep
  simp [Same]

@[simp] theorem reassignOne_same (q : Nat) (slot : Nat) (object : Nat) (x3 : Nat) (to' : Nat) (s : State) (n : Nat) :
    Same s (reassignOne q slot object x3 to' s n) := by
  unfold reassignOne
  repeat' (first | exact ⟨rfl, rfl, rfl⟩ | (simp [Same]; done) | (simp [Same, *]; done) | split)

@[simp] theorem reassignStep_same (q : Nat) (it : Item) (s : State) : Same s (reassignStep q it s) := by
  unfold reassignStep
  dsimp only
  split
  · simp [Same]
  · generalize hy : State.modItem (List.foldl _ _ _) _ _ _ = y
    have ht : Same s y := by
      subst hy
      exact Same.trans (foldl_same _ (fun s p => reassignOne_same ..) _ _) (State.modItem_same ..)
    split
    · exact ht
    · split
      · exact ht.trans (by simp [Same])
      · exact ht

@[simp] theorem xlateInvalidateStep_same (q : Nat) (it : Item) (s : State) :
    Same s (xlateInvalidateStep q it s) := by
  unfold xlateInvalidateStep
  simp [Same]

@[simp] theorem itemReadTimeout_same (q : Nat) (s : State) : Same s (itemReadTimeout q s) := by
  unfold itemReadTimeout
  repeat' (first | exact ⟨rfl, rfl, rfl⟩ | (simp [Same]; done) | (simp [Same, *]; done) | split)

@[simp] theorem itemReadEnds_same (q : Nat) (result : HostRead) (s : State) : Same s (itemReadEnds q result s) := by
  unfold itemReadEnds
  repeat' (first | exact ⟨rfl, rfl, rfl⟩ | (simp [Same]; done) | (simp [Same, *]; done) | split)

@[simp] theorem itemReadResume_same (q : Nat) (slot : Nat) (len : Nat) (x : Xlated) (s : State) :
    Same s (itemReadResume q slot len x s) := by
  unfold itemReadResume
  repeat' (first | exact ⟨rfl, rfl, rfl⟩ | (simp [Same]; done) | (simp [Same, *]; done) | split)

@[simp] theorem hostStoreResume_same (q : Nat) (slot : Nat) (x : Xlated) (s : State) :
    Same s (hostStoreResume q slot x s) := by
  unfold hostStoreResume
  repeat' (first | exact ⟨rfl, rfl, rfl⟩ | (simp [Same]; done) | (simp [Same, *]; done) | split)

@[simp] theorem fenceItemEnds_same (q : Nat) (slot : Nat) (s : State) : Same s (fenceItemEnds q slot s) := by
  unfold fenceItemEnds
  repeat' (first | exact ⟨rfl, rfl, rfl⟩ | (simp [Same]; done) | (simp [Same, *]; done) | split)

@[simp] theorem releaseHatch_same (s : State) : Same s (releaseHatch s) := by
  unfold releaseHatch
  exact ⟨rfl, rfl, rfl⟩

@[simp] theorem abortHatch_same (cause : Nat) (s : State) : Same s (abortHatch cause s) := by
  unfold abortHatch
  repeat' (first | exact ⟨rfl, rfl, rfl⟩ | (simp [Same]; done) | (simp [Same, *]; done) | split)

@[simp] theorem abortOwned_same (r : Req) (cause : Nat) (s : State) : Same s (abortOwned r cause s) := by
  unfold abortOwned
  simp [Same]

@[simp] theorem endStaging_same (s : State) : Same s (endStaging s) := by
  unfold endStaging
  exact ⟨rfl, rfl, rfl⟩

@[simp] theorem endStagingOf_same (r : Req) (s : State) : Same s (endStagingOf r s) := by
  unfold endStagingOf
  simp [Same]

@[simp] theorem carrierLoss_same (s : State) : Same s (carrierLoss s) := by
  unfold carrierLoss
  simp [Same]

@[simp] theorem clearRdy_same (s : State) : Same s (clearRdy s) := by
  unfold clearRdy
  simp [Same]

@[simp] theorem writeSlot_same (l : Line) (image : Durable) (s : State) :
    Same s (writeSlot l image s) := by
  unfold writeSlot
  exact ⟨rfl, rfl, rfl⟩

@[simp] theorem writeContexts_same (image : Durable) (s : State) :
    Same s (writeContexts image s) := by
  unfold writeContexts
  exact ⟨rfl, rfl, rfl⟩

@[simp] theorem mirrorFault_same (channel : Nat) (s : State) :
    Same s (mirrorFault channel s) := by
  unfold mirrorFault
  simp [Same]

@[simp] theorem retireSlot_same (la : Nat) (s : State) :
    Same s (retireSlot la s) := by
  unfold retireSlot
  simp [Same]

@[simp] theorem lineWritten_same (l : Line) (s : State) : Same s (lineWritten l s) := by
  unfold lineWritten
  simp [Same]

@[simp] theorem verifyWrite_same (l : Line) (check : WriteCheck) (s : State) :
    Same s (verifyWrite l check s) := by
  unfold verifyWrite
  simp [Same]

@[simp] theorem writeImage_same (l : Line) (image : Durable) (check : WriteCheck) (done : State → State) (s : State) (hdone : ∀ (y0 : State), Same y0 (done y0)) :
    Same s (writeImage l image check done s) := by
  unfold writeImage
  simp [Same, *]

@[simp] theorem writeLine_same (l : Line) (check : WriteCheck) (s : State) :
    Same s (writeLine l check s) := by
  unfold writeLine
  dsimp only
  repeat' (first | exact ⟨rfl, rfl, rfl⟩ | (simp [Same]; done) | (simp_all [Same]; done) | split)

@[simp] theorem setDirtyBudget_same (v : Nat) (s : State) :
    Same s (setDirtyBudget v s) := by
  unfold setDirtyBudget
  simp [Same]

@[simp] theorem rootCommitted_same (epoch : Nat) (map : SlotMap) (s : State) :
    Same s (rootCommitted epoch map s) := by
  unfold rootCommitted
  exact ⟨rfl, rfl, rfl⟩

@[simp] theorem answerItems_same (epoch : Nat) (items : List (Nat × Nat)) (s : State) :
    Same s (answerItems epoch items s) := by
  unfold answerItems
  refine foldl_same _ (fun s p => ?_) _ _
  repeat' (first | (simp [Same]; done) | split | dsimp only)

@[simp] theorem commitMirrorStart_same (epoch : Nat) (s : State) : Same s (commitMirrorStart epoch s) := by
  unfold commitMirrorStart
  exact ⟨rfl, rfl, rfl⟩

@[simp] theorem mirrorOn_same (s : State) : Same s (mirrorOn s) := by
  unfold mirrorOn
  simp [Same]

@[simp] theorem warnTargets_same (s : State) :
    Same s (warnTargets s) := by
  unfold warnTargets
  simp [Same]

@[simp] theorem issueAll_same (p : Port) (s : State) : Same s (issueAll p s) := by
  unfold issueAll
  simp [Same]

@[simp] theorem stormSettle_same (s : State) (key : Nat) : Same s (stormSettle s key) := by
  unfold stormSettle
  dsimp only
  split
  · exact Same.trans (by simp [Same]) (foldl_same _ (fun s p => by simp [Same]) _ _)
  · exact Same.trans (by simp [Same]) (foldl_same _ (fun s p => by simp [Same]) _ _)

@[simp] theorem pauseShift_same (i : Nat) (dt : Nat) (s : State) : Same s (pauseShift i dt s) := by
  unfold pauseShift
  simp [Same]

@[simp] theorem releaseHalts_same (s : State) : Same s (releaseHalts s) := by
  unfold releaseHalts
  simp [Same]

@[simp] theorem stormCut_same (vhold : Nat) (s : State) : Same s (stormCut vhold s) := by
  unfold stormCut
  simp [Same]

@[simp] theorem captureLine_same (failed : List Nat) (x : State × List Nat) (la : Nat) :
    Same x.1 (captureLine failed x la).1 := by
  unfold captureLine
  dsimp only
  repeat' (first | exact ⟨rfl, rfl, rfl⟩ | (simp [Same]; done) | (simp_all [Same]; done) | split)

@[simp] theorem resumeTimers_same (s : State) : Same s (resumeTimers s) := by
  unfold resumeTimers
  repeat' (first | exact ⟨rfl, rfl, rfl⟩ | (simp [Same]; done) | (simp [Same, *]; done) | split)

@[simp] theorem notifyPending_same (s : State) :
    Same s (notifyPending s) := by
  unfold notifyPending
  simp [Same]

@[simp] theorem recoverQueues_same (s : State) : Same s (recoverQueues s) := by
  unfold recoverQueues
  exact ⟨rfl, rfl, rfl⟩

@[simp] theorem mirrorFaults_same (channels : List Nat) (s : State) : Same s (mirrorFaults channels s) := by
  unfold mirrorFaults
  simp [Same]

@[simp] theorem raiseAgain_same (s : State) (e : Event) :
    Same s (raiseAgain s e) := by
  unfold raiseAgain
  repeat' (first | exact ⟨rfl, rfl, rfl⟩ | (simp [Same]; done) | (simp [Same, *]; done) | split)

@[simp] theorem firstBoot_same (s : State) : Same s (firstBoot s) := by
  unfold firstBoot
  exact ⟨rfl, rfl, rfl⟩

@[simp] theorem checkReady_same (s : State) : Same s (checkReady s) := by
  unfold checkReady
  simp [Same]

@[simp] theorem waitVhold_same (b : BootInput) (s : State) : Same s (waitVhold b s) := by
  unfold waitVhold
  simp [Same]

@[simp] theorem clearCopies_same (p : Port) (s : State) : Same s (clearCopies p s) := by
  unfold clearCopies
  simp [Same]

@[simp] theorem notIssued_same (path : Nat) (q : Nat) (slot : Nat) (step : Nat) (tag : Nat) (kind : Nat) (iova : Nat) (image : List Byte) (s : State) :
    Same s (notIssued path q slot step tag kind iova image s) := by
  unfold notIssued
  simp [Same]

@[simp] theorem discardReq_same (r : LinkReq) (s : State) : Same s (discardReq r s) := by
  unfold discardReq
  repeat' (first | exact ⟨rfl, rfl, rfl⟩ | (simp [Same]; done) | (simp [Same, *]; done) | split)

@[simp] theorem orphanReads_same (p : Port) (s : State) : Same s (orphanReads p s) := by
  unfold orphanReads
  exact ⟨rfl, rfl, rfl⟩

@[simp] theorem disablePortQueues_same (p : Port) (s : State) : Same s (disablePortQueues p s) := by
  unfold disablePortQueues
  simp [Same]

@[simp] theorem setCeiling_same (v : Nat) (s : State) : Same s (setCeiling v s) := by
  unfold setCeiling
  simp [Same]

@[simp] theorem haltIslands_same (ids : List Nat) (s : State) : Same s (haltIslands ids s) := by
  unfold haltIslands
  simp [Same]

@[simp] theorem State.modAuth_same (s : State) (r : Req) (f : Auth → Auth) : Same s (State.modAuth s r f) := by
  unfold State.modAuth
  exact ⟨rfl, rfl, rfl⟩

@[simp] theorem authResult_same (r : Req) (code : Nat) (s : State) : Same s (authResult r code s) := by
  unfold authResult
  exact ⟨rfl, rfl, rfl⟩

@[simp] theorem newNonce_same (r : Req) (s : State) : Same s (newNonce r s) := by
  unfold newNonce
  exact ⟨rfl, rfl, rfl⟩

@[simp] theorem withSignature_same (r : Req) (action : Nat) (arg : Nat) (ok : State → State) (s : State) (hok : ∀ (y0 : State), Same y0 (ok y0)) :
    Same s (withSignature r action arg ok s) := by
  unfold withSignature
  repeat' (first | exact ⟨rfl, rfl, rfl⟩ | (simp [Same]; done) | (simp [Same, *]; done) | split)

@[simp] theorem denyStream_same (port : Port) (s : State) :
    Same s (denyStream port s) := by
  unfold denyStream
  exact ⟨rfl, rfl, rfl⟩

@[simp] theorem tapSelect_same (i : TapInstr) (width : Nat) (value : Nat) (s : State) :
    Same s (tapSelect i width value s) := by
  unfold tapSelect
  simp [Same]

@[simp] theorem dapStatus_same (code : Nat) (s : State) : Same s (dapStatus code s) := by
  unfold dapStatus
  exact ⟨rfl, rfl, rfl⟩

@[simp] theorem dapHalt_same (s : State) : Same s (dapHalt s) := by
  unfold dapHalt
  repeat' (first | exact ⟨rfl, rfl, rfl⟩ | (simp [Same]; done) | (simp [Same, *]; done) | split)

@[simp] theorem dapCommand_same (op : Nat) (f : State → State) (s : State) (hf : ∀ (y0 : State), Same y0 (f y0)) :
    Same s (dapCommand op f s) := by
  unfold dapCommand
  repeat' (first | exact ⟨rfl, rfl, rfl⟩ | (simp [Same]; done) | (simp [Same, *]; done) | split)

@[simp] theorem clearStatus_same (r : Req) (o : Obj) (e : Nat) (s : State) : Same s (clearStatus r o e s) := by
  unfold clearStatus
  repeat' (first | exact ⟨rfl, rfl, rfl⟩ | (simp [Same]; done) | (simp [Same, *]; done) | split)

@[simp] theorem setG_same (line : Nat) (f : Globals → Globals) (s : State) : Same s (setG line f s) := by
  unfold setG
  simp [Same]

@[simp] theorem setTgt_same (tn : Nat) (f : Target → Target) (s : State) : Same s (setTgt tn f s) := by
  unfold setTgt
  simp [Same]

@[simp] theorem writeSourceConfig_same (sn : Nat) (bs : List Byte) (s : State) :
    Same s (writeSourceConfig sn bs s) := by
  unfold writeSourceConfig
  simp [Same]

@[simp] theorem writeSourceControl_same (sn : Nat) (v : Nat) (s : State) : Same s (writeSourceControl sn v s) := by
  unfold writeSourceControl
  simp [Same]

@[simp] theorem writeWarnMember_same (tn : Nat) (b : Bool) (s : State) : Same s (writeWarnMember tn b s) := by
  unfold writeWarnMember
  simp [Same]

@[simp] theorem writeWake_same (tn : Nat) (c : Cls) (bs : List Byte) (s : State) :
    Same s (writeWake tn c bs s) := by
  unfold writeWake
  simp [Same]

@[simp] theorem queueEnable_same (q : Nat) (s : State) : Same s (queueEnable q s) := by
  unfold queueEnable
  exact ⟨rfl, rfl, rfl⟩

@[simp] theorem writeQueueControl_same (image : Bool) (q : Nat) (v : Nat) (s : State) :
    Same s (writeQueueControl image q v s) := by
  unfold writeQueueControl
  simp [Same]

@[simp] theorem writeTargetControl_same (image : Bool) (tn : Nat) (v : Nat) (s : State) :
    Same s (writeTargetControl image tn v s) := by
  unfold writeTargetControl
  simp [Same]

@[simp] theorem writeSegmentRoom_same (g : Nat) (room : Nat) (s : State) : Same s (writeSegmentRoom g room s) := by
  unfold writeSegmentRoom
  simp [Same]

@[simp] theorem writeRouting_same (image : Bool) (o : Obj) (e : Nat) (bs : List Byte) (s : State) :
    Same s (writeRouting image o e bs s) := by
  unfold writeRouting
  repeat' (first | exact ⟨rfl, rfl, rfl⟩ | (simp [Same]; done) | (simp [Same, *]; done) | split)

@[simp] theorem writeUnit_same (r : Req) (image : Bool) (o : Obj) (bs : List Byte) (s : State) :
    Same s (writeUnit r image o bs s) := by
  unfold writeUnit
  repeat' (first | exact ⟨rfl, rfl, rfl⟩ | (simp [Same]; done) | (simp [Same, *]; done) | split)

@[simp] theorem writeObject_same (r : Req) (space : Nat) (addr : Nat) (image : Bool) (apply : State → State) (o : Obj) (e : Nat) (bs : List Byte) (s : State) (happly : ∀ (y0 : State), Same y0 (apply y0)) :
    Same s (writeObject r space addr image apply o e bs s).1 := by
  unfold writeObject
  repeat' (first | exact ⟨rfl, rfl, rfl⟩ | (simp [Same]; done) | (simp [Same, *]; done) | split)

@[simp] theorem imageVerify_same (s : State) : Same s (imageVerify s) := by
  unfold imageVerify
  exact ⟨rfl, rfl, rfl⟩

@[simp] theorem countElement_same (k : Nat) (code : Nat) (s : State) : Same s (countElement k code s) := by
  unfold countElement
  simp [Same]

@[simp] theorem imageApply_same (r : Req) (s : State) :
    Same s (imageApply r s) := by
  unfold imageApply
  simp [Same]

@[simp] theorem imageControlWrite_same (r : Req) (v : Nat) (s : State) :
    Same s (imageControlWrite r v s) := by
  unfold imageControlWrite
  simp [Same]

@[simp] theorem dictRead_same (r : Req) (clear : Bool) (index : Nat) (sub : Nat) (e : Nat) (s : State) :
    Same s (dictRead r clear index sub e s).1 := by
  unfold dictRead
  repeat' (first | exact ⟨rfl, rfl, rfl⟩ | (simp [Same]; done) | (simp [Same, *]; done) | split)

@[simp] theorem State.modHatch_same (s : State) (f : Hatch → Hatch) : Same s (State.modHatch s f) := by
  unfold State.modHatch
  exact ⟨rfl, rfl, rfl⟩

@[simp] theorem hatchTouch_same (s : State) : Same s (hatchTouch s) := by
  unfold hatchTouch
  exact ⟨rfl, rfl, rfl⟩

@[simp] theorem hatchPublish_same (res : HatchResult) (s : State) : Same s (hatchPublish res s) := by
  unfold hatchPublish
  simp [Same]

@[simp] theorem whenServing_same (f : State → State) (s : State) (hf : ∀ (y0 : State), Same y0 (f y0)) :
    Same s (whenServing f s) := by
  unfold whenServing
  repeat' (first | exact ⟨rfl, rfl, rfl⟩ | (simp [Same]; done) | (simp [Same, *]; done) | split)

@[simp] theorem hatchClaim_same (r : Req) (tag : BitVec 16) (s : State) : Same s (hatchClaim r tag s) := by
  unfold hatchClaim
  exact ⟨rfl, rfl, rfl⟩

@[simp] theorem writeHatchOwner_same (r : Req) (v : Nat) (s : State) : Same s (writeHatchOwner r v s) := by
  unfold writeHatchOwner
  simp [Same]

@[simp] theorem ownerWrite_same (r : Req) (addr : Nat) (f : State → State) (s : State) (hf : ∀ (y0 : State), Same y0 (f y0)) :
    Same s (ownerWrite r addr f s) := by
  unfold ownerWrite
  repeat' (first | exact ⟨rfl, rfl, rfl⟩ | (simp [Same]; done) | (simp [Same, *]; done) | split)

@[simp] theorem writeHatchStatus_same (r : Req) (v : Nat) (s : State) : Same s (writeHatchStatus r v s) := by
  unfold writeHatchStatus
  simp [Same]

@[simp] theorem writeHatchTimeout_same (r : Req) (v : Nat) (s : State) : Same s (writeHatchTimeout r v s) := by
  unfold writeHatchTimeout
  simp [Same]

@[simp] theorem hatchPageTouch_same (port : Port) (off : Nat) (s : State) : Same s (hatchPageTouch port off s) := by
  unfold hatchPageTouch
  simp [Same]

@[simp] theorem readReg_same (port : Port) (g : Reg) (s : State) : Same s (readReg port g s).1 := by
  unfold readReg
  repeat' (first | exact ⟨rfl, rfl, rfl⟩ | (simp [Same]; done) | (simp [Same, *]; done) | split)

@[simp] theorem letterboxRead_same (r : Reader) (a : Access) (s : State) :
    Same s (letterboxRead r a s) := by
  unfold letterboxRead
  simp [Same]

@[simp] theorem writeSourceMask_same (port : Port) (off : Nat) (v : Nat) (s : State) :
    Same s (writeSourceMask port off v s) := by
  unfold writeSourceMask
  simp [Same]

@[simp] theorem writeXlateInv_same (port : Port) (off : Nat) (v : Nat) (s : State) :
    Same s (writeXlateInv port off v s) := by
  unfold writeXlateInv
  simp [Same]

@[simp] theorem writeMgmtEnable_same (port : Port) (v : Nat) (s : State) : Same s (writeMgmtEnable port v s) := by
  unfold writeMgmtEnable
  simp [Same]

@[simp] theorem writeMsix_same (port : Port) (n : Nat) (v : Nat) (s : State) : Same s (writeMsix port n v s) := by
  unfold writeMsix
  simp [Same]

@[simp] theorem writeQueueProd_same (port : Port) (q : Nat) (off : Nat) (v : Nat) (s : State) :
    Same s (writeQueueProd port q off v s) := by
  unfold writeQueueProd
  simp [Same]

@[simp] theorem writeEntrySlot_same (port : Port) (q : Nat) (off : Nat) (v : Nat) (s : State) :
    Same s (writeEntrySlot port q off v s) := by
  unfold writeEntrySlot
  simp [Same]

@[simp] theorem writeQueueAction_same (port : Port) (q : Nat) (off : Nat) (v : Nat) (s : State) :
    Same s (writeQueueAction port q off v s) := by
  unfold writeQueueAction
  simp [Same]

@[simp] theorem keeperResetWrite_same (r : Req) (mode : Byte) (key : BitVec 16) (effect : State → State) (s : State) (heffect : ∀ (y0 : State), Same y0 (effect y0)) :
    Same s (keeperResetWrite r mode key effect s) := by
  unfold keeperResetWrite
  repeat' (first | exact ⟨rfl, rfl, rfl⟩ | (simp [Same]; done) | (simp [Same, *]; done) | split)

@[simp] theorem peekView_same (s : State) : Same s (peekView s) := by
  unfold peekView
  exact ⟨rfl, rfl, rfl⟩

@[simp] theorem peekWakes_same (s : State) : Same s (peekWakes s) := by
  unfold peekWakes
  repeat' (first | exact ⟨rfl, rfl, rfl⟩ | (simp [Same]; done) | (simp [Same, *]; done) | split)

@[simp] theorem dapPeek_same (s : State) : Same s (dapPeek s) := by
  unfold dapPeek
  repeat' (first | exact ⟨rfl, rfl, rfl⟩ | (simp [Same]; done) | (simp [Same, *]; done) | split)

@[simp] theorem State.modSb_same (s : State) (f : Sideband → Sideband) : Same s (State.modSb s f) := by
  unfold State.modSb
  exact ⟨rfl, rfl, rfl⟩

@[simp] theorem onSideband_same (f : State → State) (s : State) (hf : ∀ (y0 : State), Same y0 (f y0)) :
    Same s (onSideband f s) := by
  unfold onSideband
  repeat' (first | exact ⟨rfl, rfl, rfl⟩ | (simp [Same]; done) | (simp [Same, *]; done) | split)

@[simp] theorem sendPacket_same (p : Response) (s : State) (k : MctpPacket) :
    Same s (sendPacket p s k) := by
  unfold sendPacket
  exact ⟨rfl, rfl, rfl⟩

@[simp] theorem interrupt_same (s : State) :
    Same s (interrupt s) := by
  unfold interrupt
  simp [Same]

@[simp] theorem announce_same (s : State) : Same s (announce s) := by
  unfold announce
  repeat' (first | exact ⟨rfl, rfl, rfl⟩ | (simp [Same]; done) | (simp [Same, *]; done) | split)

@[simp] theorem sendUpTo_same (n : Nat) (p : Response) (s : State) :
    Same s (sendUpTo n p s) := by
  unfold sendUpTo
  simp [Same]

@[simp] theorem respond_same (p : Response) (s : State) : Same s (respond p s) := by
  unfold respond
  simp [Same]

@[simp] theorem answerMctp_same (m : MctpFrom) (bytes : List Byte) (s : State) : Same s (answerMctp m bytes s) := by
  unfold answerMctp
  simp [Same]

@[simp] theorem mirAnswer_same (q : MirReq) (status : Nat) (body : List Byte) (s : State) :
    Same s (mirAnswer q status body s) := by
  unfold mirAnswer
  simp [Same]

@[simp] theorem countUnknown_same (s : State) : Same s (countUnknown s) := by
  unfold countUnknown
  exact ⟨rfl, rfl, rfl⟩

@[simp] theorem mirNext_same (s : State) : Same s (mirNext s) := by
  unfold mirNext
  repeat' (first | exact ⟨rfl, rfl, rfl⟩ | (simp [Same]; done) | (simp [Same, *]; done) | split)

@[simp] theorem mirArrive_same (m : MctpMsg) (s : State) : Same s (mirArrive m s) := by
  unfold mirArrive
  simp [Same]

@[simp] theorem mirRun_same (command : Nat) (f : MirReq → State → State) (s : State) (hf : ∀ (y0 : MirReq) (y1 : State), Same y1 (f y0 y1)) :
    Same s (mirRun command f s) := by
  unfold mirRun
  repeat' (first | exact ⟨rfl, rfl, rfl⟩ | (simp [Same]; done) | (simp [Same, *]; done) | split)

@[simp] theorem showReadBack_same (x : Nat × List Byte) (s : State) :
    Same s (showReadBack x s) := by
  unfold showReadBack
  exact ⟨rfl, rfl, rfl⟩

@[simp] theorem mirDescribe_same (q : MirReq) (s : State) : Same s (mirDescribe q s) := by
  unfold mirDescribe
  repeat' (first | exact ⟨rfl, rfl, rfl⟩ | (simp [Same]; done) | (simp [Same, *]; done) | split)

@[simp] theorem mirRelease_same (q : MirReq) (s : State) : Same s (mirRelease q s) := by
  unfold mirRelease
  simp [Same]

@[simp] theorem afterDelivery_same (p : Response) (s : State) : Same s (afterDelivery p s) := by
  unfold afterDelivery
  simp [Same]

@[simp] theorem deliverResponse_same (s : State) : Same s (deliverResponse s) := by
  unfold deliverResponse
  repeat' (first | exact ⟨rfl, rfl, rfl⟩ | (simp [Same]; done) | (simp [Same, *]; done) | split)

@[simp] theorem controlReply_same (m : MctpFrom) (inst : BitVec 5) (command : Nat) (code : Nat) (data : List Byte) (s : State) :
    Same s (controlReply m inst command code data s) := by
  unfold controlReply
  simp [Same]

@[simp] theorem controlSetEid_same (m : MctpFrom) (inst : BitVec 5) (op : Nat) (eid : Byte) (s : State) :
    Same s (controlSetEid m inst op eid s) := by
  unfold controlSetEid
  simp [Same]

@[simp] theorem controlGetEid_same (m : MctpFrom) (inst : BitVec 5) (s : State) :
    Same s (controlGetEid m inst s) := by
  unfold controlGetEid
  simp [Same]

@[simp] theorem controlUuid_same (m : MctpFrom) (inst : BitVec 5) (s : State) : Same s (controlUuid m inst s) := by
  unfold controlUuid
  simp [Same]

@[simp] theorem controlVersion_same (m : MctpFrom) (inst : BitVec 5) (type : Byte) (s : State) :
    Same s (controlVersion m inst type s) := by
  unfold controlVersion
  simp [Same]

@[simp] theorem controlTypes_same (m : MctpFrom) (inst : BitVec 5) (s : State) :
    Same s (controlTypes m inst s) := by
  unfold controlTypes
  simp [Same]

@[simp] theorem controlVendor_same (m : MctpFrom) (inst : BitVec 5) (selector : Byte) (s : State) :
    Same s (controlVendor m inst selector s) := by
  unfold controlVendor
  simp [Same]

@[simp] theorem controlRequest_same (m : MctpFrom) (bytes : List Byte) (s : State) :
    Same s (controlRequest m bytes s) := by
  unfold controlRequest
  repeat' (first | exact ⟨rfl, rfl, rfl⟩ | (simp [Same]; done) | (simp [Same, *]; done) | split)

@[simp] theorem onControl_same (m : MctpFrom) (f : State → State) (s : State) (hf : ∀ (y0 : State), Same y0 (f y0)) :
    Same s (onControl m f s) := by
  unfold onControl
  repeat' (first | exact ⟨rfl, rfl, rfl⟩ | (simp [Same]; done) | (simp [Same, *]; done) | split)

@[simp] theorem onI3c_same (f : State → State) (s : State) (hf : ∀ (y0 : State), Same y0 (f y0)) :
    Same s (onI3c f s) := by
  unfold onI3c
  repeat' (first | exact ⟨rfl, rfl, rfl⟩ | (simp [Same]; done) | (simp [Same, *]; done) | split)

@[simp] theorem directed_same (f : State → State) (s : State) (hf : ∀ (y0 : State), Same y0 (f y0)) :
    Same s (directed f s) := by
  unfold directed
  repeat' (first | exact ⟨rfl, rfl, rfl⟩ | (simp [Same]; done) | (simp [Same, *]; done) | split)

@[simp] theorem loseAddress_same (s : State) : Same s (loseAddress s) := by
  unfold loseAddress
  simp [Same]

@[simp] theorem spdmReply_same (m : SpdmReq) (bytes : List Byte) (s : State) : Same s (spdmReply m bytes s) := by
  unfold spdmReply
  simp [Same]

@[simp] theorem spdmError_same (m : SpdmReq) (code : Nat) (data : Nat) (s : State) :
    Same s (spdmError m code data s) := by
  unfold spdmError
  simp [Same]

@[simp] theorem State.modSpdm_same (s : State) (f : Spdm → Spdm) : Same s (State.modSpdm s f) := by
  unfold State.modSpdm
  exact ⟨rfl, rfl, rfl⟩

@[simp] theorem spdmVersion_same (m : SpdmReq) (s : State) : Same s (spdmVersion m s) := by
  unfold spdmVersion
  simp [Same]

@[simp] theorem spdmAfter_same (ready : Spdm → Bool) (m : SpdmReq) (f : Spdm → State → State) (s : State) (hf : ∀ (y0 : Spdm) (y1 : State), Same y1 (f y0 y1)) :
    Same s (spdmAfter ready m f s) := by
  unfold spdmAfter
  repeat' (first | exact ⟨rfl, rfl, rfl⟩ | (simp [Same]; done) | (simp [Same, *]; done) | split)

@[simp] theorem spdmCapabilities_same (m : SpdmReq) (s : State) : Same s (spdmCapabilities m s) := by
  unfold spdmCapabilities
  simp [Same]

@[simp] theorem spdmAlgorithms_same (m : SpdmReq) (s : State) : Same s (spdmAlgorithms m s) := by
  unfold spdmAlgorithms
  simp [Same]

@[simp] theorem spdmDigests_same (m : SpdmReq) (s : State) : Same s (spdmDigests m s) := by
  unfold spdmDigests
  simp [Same]

@[simp] theorem spdmCertificate_same (m : SpdmReq) (s : State) : Same s (spdmCertificate m s) := by
  unfold spdmCertificate
  simp [Same]

@[simp] theorem spdmChallenge_same (m : SpdmReq) (s : State) : Same s (spdmChallenge m s) := by
  unfold spdmChallenge
  repeat' (first | exact ⟨rfl, rfl, rfl⟩ | (simp [Same]; done) | (simp [Same, *]; done) | split)

@[simp] theorem spdmMeasurements_same (m : SpdmReq) (s : State) : Same s (spdmMeasurements m s) := by
  unfold spdmMeasurements
  simp [Same]

@[simp] theorem onSpdm_same (m : SpdmReq) (f : State → State) (s : State) (hf : ∀ (y0 : State), Same y0 (f y0)) :
    Same s (onSpdm m f s) := by
  unfold onSpdm
  repeat' (first | exact ⟨rfl, rfl, rfl⟩ | (simp [Same]; done) | (simp [Same, *]; done) | split)

@[simp] theorem spdmRequest_same (via : MctpFrom) (bytes : List Byte) (s : State) :
    Same s (spdmRequest via bytes s) := by
  unfold spdmRequest
  repeat' (first | exact ⟨rfl, rfl, rfl⟩ | (simp [Same]; done) | (simp [Same, *]; done) | split)

@[simp] theorem receive_same (msg : MctpMsg) (s : State) : Same s (receive msg s) := by
  unfold receive
  simp [Same]

@[simp] theorem State.withFetchWord_same (s : State) (nbits : Nat) (w : Nat) :
    Same s (State.withFetchWord s nbits w) := by
  unfold State.withFetchWord
  exact ⟨rfl, rfl, rfl⟩

@[simp] theorem busyAll_same (s : State) (ids : List Nat) : Same s (busyAll s ids) := by
  unfold busyAll
  simp [Same]

@[simp] theorem cleared_same (s : State) : Same s (cleared s) := by
  unfold cleared
  exact ⟨rfl, rfl, rfl⟩

@[simp] theorem begun_same (s : State) (ids : List Nat) :
    Same s (begun s ids) := by
  unfold begun
  simp [Same]

@[simp] theorem answered_same (s : State) (t : State) : Same t (answered s t) := by
  unfold answered
  exact ⟨rfl, rfl, rfl⟩

@[simp] theorem written_same (s : State) (r : Req) (reg : List Nat) (obj : List Nat) :
    Same s (written s r reg obj) := by
  unfold written
  simp [Same]

@[simp] theorem itemBegun_same (s : State) (q : Nat) (it : Item) :
    Same s (itemBegun s q it) := by
  unfold itemBegun
  simp [Same]

@[simp] theorem sbBegun_same (s : State) :
    Same s (sbBegun s) := by
  unfold sbBegun
  simp [Same]

end Sys2Proof.Machine
end

