-- ==== Sys2Proof/Laws/Ready.lean ====
section
/-!
SUPPORT. What the shared operations do when the islands they need are ready: a handshake takes place, a host
access reaches its register, a dictionary write is judged; and what `answer` answers.
-/

namespace Sys2Proof.Machine

open Sys2Proof

/-- What a command answers whose effect on the cleared state is known. -/
theorem answer_eq {s t : State} {f : State → State} (h : f (cleared s) = t) : answer s f = .next (answered s t) := by
  subst h; rfl

/-- A port of a cleared state. -/
@[simp] theorem cleared_port (s : State) (p : Port) : (cleared s).port p = s.port p := by cases p <;> rfl

/-- An island that is awake is not changed by a wake. -/
theorem wakeUp_of_awake {s : State} {i : Nat} (h : (s.island i).level = .awake) : s.wakeUp i = s := by
  simp [State.wakeUp, h]

/-- A map read at a key just written. -/
theorem mget_mput_same {α : Type} [DecidableEq α] (d : α) (k : Nat) (v : α) (m : SMap α) (h : SMap.wf d m = true) :
    mget d (mput d k v m) k = v := by
  induction m with
  | nil => by_cases hv : v = d <;> simp [mput, mget, hv]
  | cons p m ih =>
    obtain ⟨k', v'⟩ := p
    have hm : SMap.wf d m = true := by
      cases m with
      | nil => rfl
      | cons q m => obtain ⟨a, b⟩ := q; simp [SMap.wf] at h; exact h.2
    have above : ∀ (m : SMap α) (b : Nat), SMap.wf d m = true → (∀ q, m.head? = some q → b < q.1) → ∀ k, k ≤ b → mget d m k = d := by
      intro m
      induction m with
      | nil => intros; rfl
      | cons q m ih2 =>
        intro b hw hb k hk
        have h1 := hb q rfl
        obtain ⟨a, c⟩ := q
        simp [mget]
        rw [if_neg (by simp at h1; omega)]
        refine ih2 a ?_ ?_ k (by simp at h1; omega)
        · cases m with
          | nil => rfl
          | cons q m => obtain ⟨x, y⟩ := q; simp [SMap.wf] at hw; exact hw.2
        · intro q hq
          cases m with
          | nil => simp at hq
          | cons q' m => obtain ⟨x, y⟩ := q'; simp [SMap.wf] at hw; simp at hq; subst hq; exact hw.1.2
    have head : ∀ q, m.head? = some q → k' < q.1 := by
      intro q hq
      cases m with
      | nil => simp at hq
      | cons q' m => obtain ⟨x, y⟩ := q'; simp [SMap.wf] at h; simp at hq; subst hq; exact h.1.2
    unfold mput
    split
    · rename_i hlt
      split
      · rename_i hv
        simp [mget, Nat.ne_of_lt hlt, hv, above m k' hm head k (Nat.le_of_lt hlt)]
      · simp [mget]
    · split
      · rename_i hk
        subst hk
        split
        · rename_i hv
          rw [above m k hm head k (Nat.le_refl _), hv]
        · simp [mget]
      · rename_i h1 h2
        simp [mget, h2, ih hm]

/-- A map read at another key than the one just written. -/
theorem mget_mput_other {α : Type} [DecidableEq α] (d : α) (k j : Nat) (v : α) (m : SMap α) (h : j ≠ k) :
    mget d (mput d k v m) j = mget d m j := by
  induction m with
  | nil => by_cases hv : v = d <;> simp [mput, mget, hv, h]
  | cons p m ih =>
    obtain ⟨k', v'⟩ := p
    unfold mput
    split
    · split <;> simp [mget, h]
    · split
      · rename_i hk
        subst hk
        split <;> simp [mget, h]
      · simp [mget, ih]

/-- An island becomes busy: no other island's record changes. -/
theorem busy_island {s : State} {i j : Nat} (h : j ≠ i) : (s.busy i).island j = s.island j := by
  simp [State.busy, State.modIsland, State.island, mmod, mget_mput_other _ _ _ _ _ h]

/-- Awake islands that a write reaches become busy and nothing else. -/
theorem wakeForWrite_of_awake (ids : List Nat) (hn : ids.Nodup) (s : State)
    (h : ∀ i ∈ ids, (s.island i).level = .awake) : s.wakeForWrite ids = busyAll s ids := by
  unfold State.wakeForWrite busyAll
  induction ids generalizing s with
  | nil => rfl
  | cons i ids ih =>
    simp only [List.nodup_cons] at hn
    simp only [List.foldl_cons]
    rw [wakeUp_of_awake (h i (by simp))]
    refine ih hn.2 _ fun j hj => ?_
    rw [busy_island (fun he => hn.1 (by rw [← he]; exact hj))]
    exact h j (by simp [hj])

/-- Awake islands that a read reaches are not changed by it. -/
theorem wakeForRead_of_awake (ids : List Nat) (s : State) (h : ∀ i ∈ ids, (s.island i).level = .awake) :
    s.wakeForRead ids = s := by
  unfold State.wakeForRead
  induction ids with
  | nil => rfl
  | cons i ids ih =>
    have := h i (by simp)
    simp only [List.foldl_cons, this]
    exact ih fun j hj => h j (by simp [hj])

/-- A step of ready islands takes place. -/
theorem handshake_ready {s : State} {ids : List Nat} (f : State → State) (h : islandsReady s ids = true) :
    handshake ids f s = f (busyAll s ids) := by
  simp only [islandsReady, Bool.and_eq_true, List.all_eq_true] at h
  obtain ⟨⟨hr, _⟩, ha⟩ := h
  have h1 : (ids.any fun i => !s.clocked i) = false := by
    simp only [List.any_eq_false]; intro i hi; simp [(ha i hi).1]
  have h2 : (ids.any fun i => (s.island i).level != .awake) = false := by
    simp only [List.any_eq_false]; intro i hi; have := (ha i hi).2; simp_all
  simp [handshake, hr, h1, h2, busyAll]

/-- What the durable state's checkpoint holds is not changed by islands being busy. -/
theorem busyAll_durab (ids : List Nat) (s : State) : (busyAll s ids).durab = s.durab := by
  unfold busyAll
  induction ids generalizing s with
  | nil => rfl
  | cons i l ih => simp only [List.foldl_cons, ih]; rfl

/-- A step with no cut token under way is the step itself. -/
theorem crossing_none {s : State} (ids : List Nat) (f : State → State) (h : s.durab.ckpt = none) :
    crossing ids f s = f s := by
  simp [crossing, h]

/-- No token travels where islands are ready. -/
theorem ckpt_of_ready {s : State} {ids : List Nat} (h : islandsReady s ids = true) : s.durab.ckpt = none := by
  simp only [islandsReady, Bool.and_eq_true] at h
  exact Option.isNone_iff_eq_none.mp h.1.2

/-- A handshake of ready islands takes place. -/
theorem onIslands_ready {s : State} {ids : List Nat} (f : State → State) (h : islandsReady s ids = true) :
    onIslands ids f s = f (busyAll s ids) := by
  rw [onIslands, handshake_ready _ h]
  exact crossing_none _ _ (by rw [busyAll_durab]; exact ckpt_of_ready h)

/-- Islands apply what stood in a channel at once while no token travels. -/
theorem receiving_none {α : Type} {s : State} (x : Sent α) (ids : List Nat) (f : State → State)
    (h : s.durab.ckpt = none) : receiving x ids f s = f s := by
  simp [receiving, h]

/-- With room to dirty every line no change is held. -/
theorem heldBanks_room {s : State} (t : State) (h : roomToDirty s) : heldBanks s t = [] := by
  simp [heldBanks, h _]

/-- A change that dirties no line is not held. -/
theorem heldBanks_same {s t : State} (h : t.durab.dirty = s.durab.dirty) : heldBanks s t = [] := by
  simp only [heldBanks, h, List.map_eq_nil_iff, List.filter_eq_nil_iff, Bool.and_eq_true, decide_eq_true_eq]
  exact fun l hl hn => hn.1 hl

/-- With room to dirty every line a guarded change takes place. -/
theorem guarded_room {s : State} (f : State → State) (h : roomToDirty s) : guarded f s = f s := by
  simp [guarded, heldBanks_room _ h]

/-- A change that sends no more than a Notify channel holds takes place. -/
theorem notifyHeld_room {s : State} {bank : Nat} (f : State → State)
    (h : ∀ r < 16, notifyUsed (f s) bank r ≤ max 32 (notifyUsed s bank r)) : notifyHeld bank f s = f s := by
  have : ((List.range 16).any fun r => decide (max 32 (notifyUsed s bank r) < notifyUsed (f s) bank r)) = false := by
    simp only [List.any_eq_false, List.mem_range]
    intro r hr
    have := h r hr
    simp; omega
  simp only [notifyHeld, this]; simp

/-- A bank with room to dirty a line and in its Notify channels applies a request. -/
theorem bankApply_room {α : Type} {s : State} {bank : Nat} (x : Sent α) (f : State → State) (hd : roomToDirty s)
    (hc : s.durab.ckpt = none) (h : ∀ r < 16, notifyUsed (f s) bank r ≤ max 32 (notifyUsed s bank r)) :
    bankApply bank x f s = f s := by
  rw [bankApply, guarded_room _ hd, notifyHeld_room _ (by simpa only [receiving_none x _ f hc] using h),
    receiving_none _ _ _ hc]

/-- Busy islands change no dirty line. -/
theorem throttled_busyAll (ids : List Nat) (s : State) (l : Line) : throttled (busyAll s ids) l = throttled s l := by
  unfold busyAll
  induction ids generalizing s with
  | nil => rfl
  | cons i l ih => simp only [List.foldl_cons, ih]; rfl

/-- Busy islands leave room to dirty every line. -/
theorem room_busyAll {s : State} (ids : List Nat) (h : roomToDirty s) : roomToDirty (busyAll s ids) :=
  fun l => (throttled_busyAll ids s l).trans (h l)

/-- What arrives at ready islands takes place. -/
theorem onArrival_ready {s : State} {ids : List Nat} (f : State → State) (hn : ids.Nodup)
    (h : islandsReady s ids = true) : onArrival ids f s = f (busyAll s ids) := by
  simp only [islandsReady, Bool.and_eq_true, List.all_eq_true] at h
  obtain ⟨⟨hr, hc⟩, ha⟩ := h
  have h1 : (ids.any fun i => !s.clocked i) = false := by
    simp only [List.any_eq_false]; intro i hi; simp [(ha i hi).1]
  have hw := wakeForWrite_of_awake ids hn s fun i hi => by have := (ha i hi).2; simp_all
  unfold State.wakeForWrite at hw
  simp only [onArrival, hr, h1, hw, Bool.not_true, Bool.false_eq_true, if_false]
  exact crossing_none _ _ (by rw [busyAll_durab]; exact Option.isNone_iff_eq_none.mp hc)

/-- What an open access says of its port and islands. -/
theorem open_parts {s : State} {p : Port} {ids : List Nat} (h : accessOpen s p ids = true) :
    s.powered = true ∧ (s.port p).linkUp = true ∧ s.keeper.bootFail = false ∧ s.keeper.rdy = true ∧
      s.durab.ckpt = none ∧ (s.held.all fun x => x.1 != p.req || !x.2.isPosted) = true ∧
      mget 0 s.power.lockLost (idLink p) = 0 ∧
      ∀ i ∈ ids, s.clocked i = true ∧ (s.island i).level = .awake := by
  simp only [accessOpen, Bool.and_eq_true, List.all_eq_true, Bool.not_eq_true', beq_iff_eq] at h
  obtain ⟨⟨⟨⟨⟨⟨⟨h1, h2⟩, h3⟩, h4⟩, h5⟩, h6⟩, h7⟩, h8⟩ := h
  exact ⟨h1, h2, h3, h4, Option.isNone_iff_eq_none.mp h5, by simpa only [List.all_eq_true] using h6, h7, h8⟩

/-- An access that finds its port and its islands ready passes. -/
theorem accessGate_open {s : State} {p : Port} {ids : List Nat} (always : Bool) (h : accessOpen s p ids = true) :
    accessGate s p always ids = .pass := by
  obtain ⟨h1, h2, h3, h4, _, _, h7, h8⟩ := open_parts h
  have h5 : (ids.any fun i => decide (i ∈ s.dap.halted)) = false := by
    simp only [List.any_eq_false]; intro i hi; have := (h8 i hi).1; simp [State.clocked] at this; simp [this.2]
  have h6 : ((idLink p :: ids).any fun i => mget 0 s.power.lockLost i != 0) = false := by
    simp only [List.any_cons, h7, Bool.or_eq_false_iff]
    refine ⟨rfl, ?_⟩
    simp only [List.any_eq_false]; intro i hi; have := (h8 i hi).1; simp [State.clocked] at this; simp [this.1]
  simp only [accessGate, h1, h2, h3, h4, h5, h6]; simp

/-- The islands of an open access are awake. -/
theorem awake_of_open {s : State} {p : Port} {ids : List Nat} (h : accessOpen s p ids = true) :
    ∀ i ∈ ids, (s.island i).level = .awake := fun i hi => ((open_parts h).2.2.2.2.2.2.2 i hi).2

/-- No posted write of the port stands before an open access. -/
theorem behind_none {s : State} {p : Port} {ids : List Nat} (h : accessOpen s p ids = true)
    (f : Access → Bool) (hf : ∀ a, a.isPosted = false → f a = false) :
    (s.held.any fun x => x.1 == p.req && f x.2) = false := by
  have := (open_parts h).2.2.2.2.2.1
  simp only [List.all_eq_true, Bool.or_eq_true, bne_iff_ne, Bool.not_eq_true'] at this
  simp only [List.any_eq_false, Bool.and_eq_true, beq_iff_eq, not_and, Bool.not_eq_true]
  intro x hx hp
  exact hf _ ((this x hx).resolve_left (fun hn => hn hp))

/-- A write that is not posted stands before nothing. -/
theorem after_of_unposted (a : Access) {b : Access} (h : b.isPosted = false) : a.after b = false := by
  cases b <;> simp_all [Access.after, Access.page, Access.isPosted]

/-- An open read waits behind nothing. -/
theorem read_not_behind {s : State} {p : Port} {ids : List Nat} {a : Access} (ha : a.isRead = true)
    (h : readOpen s p ids a.letterboxPages = true) : waitsBehind s p a = false := by
  simp only [readOpen, Bool.and_eq_true, Bool.not_eq_true'] at h
  simp [waitsBehind, behind_none h.1 _ fun b hb => after_of_unposted a hb, ha, h.2]

/-- An open write waits behind nothing. -/
theorem write_not_behind {s : State} {p : Port} {ids : List Nat} {a : Access} (ha : a.isPosted = true)
    (h : postedOpen s p ids = true) : waitsBehind s p a = false := by
  simp only [postedOpen, Bool.and_eq_true, List.all_eq_true, Bool.not_eq_true', Bool.or_eq_true] at h
  obtain ⟨⟨ho, _⟩, hs⟩ := h
  have h2 : (s.ledger.stream.any fun x => x.port == p && x.append.isNone) = false := by
    simp only [List.any_eq_false]
    intro x hx
    have := hs x hx
    cases hx' : x.append <;> simp_all
  have h3 : a.letterboxPages = [] := by cases a <;> simp_all [Access.letterboxPages, Access.isPosted]
  simp [waitsBehind, behind_none ho _ fun b hb => after_of_unposted a hb, h2, h3, letterboxPending]

/-- An open read answers its register's value. -/
theorem hostRead_open {s : State} {r : Reader} {a : Access} {ids : List Nat} (always : Bool)
    (f : State → State × Word) (h : accessOpen s r.port ids = true) (hb : waitsBehind s r.port a = false) :
    hostRead r a always ids f s = (f s).1.answerRead r (f s).2 := by
  simp [hostRead, hostAccess, accessGate_open always h, hb, wakeForRead_of_awake _ _ (awake_of_open h)]

/-- An open write whose change no bank holds takes place. -/
theorem hostWrite_open {s : State} {p : Port} {a : Access} {ids : List Nat} (always : Bool) (f : State → State)
    (hn : ids.Nodup) (ha : a.isPosted = true) (h : postedOpen s p ids = true)
    (hd : heldBanks (busyAll s ids) (f (busyAll s ids)) = []) :
    hostWrite p a always ids f s = f (busyAll s ids) := by
  have hb := write_not_behind ha h
  simp only [postedOpen, Bool.and_eq_true, Bool.not_eq_true'] at h
  obtain ⟨⟨h, hf⟩, _⟩ := h
  have hc : crossing ids f (busyAll s ids) = f (busyAll s ids) :=
    crossing_none _ _ (by rw [busyAll_durab]; exact (open_parts h).2.2.2.2.1)
  simp only [hostWrite, hostAccess, accessGate_open always h, hb, hf, Bool.and_false, Bool.false_eq_true, if_false,
    wakeForWrite_of_awake _ hn _ (awake_of_open h), hc, hd, List.isEmpty_nil, if_true]

/-- An open dictionary write whose change no bank holds is judged and applied at once. -/
theorem dictCommand_open {s : State} {r : Req} {o : Obj} {e : Nat} (bs : List Byte) (hn : (objIslands o e).Nodup)
    (h : dictOpen s r (objIslands o e) = true)
    (hd : heldBanks (busyAll s (objIslands o e))
      (dictWrite r o.index o.sub e bs (busyAll s (objIslands o e))).1 = []) :
    dictCommand r o e bs s = (dictWrite r o.index o.sub e bs (busyAll s (objIslands o e))).1 := by
  simp only [dictOpen, Bool.and_eq_true, List.all_eq_true] at h
  obtain ⟨⟨⟨⟨⟨h1, h2⟩, h3⟩, h4⟩, h5⟩, ha⟩ := h
  simp only [mgmtServes, Bool.and_eq_true, Bool.not_eq_true'] at h1
  obtain ⟨⟨⟨hp, hs⟩, hf⟩, hm⟩ := h1
  have h6 : ((idManagement :: objIslands o e).any fun i => !s.clocked i) = false := by
    simp only [List.any_cons, hm, Bool.or_eq_false_iff]
    refine ⟨rfl, ?_⟩
    simp only [List.any_eq_false]; intro i hi; simp [(ha i hi).1]
  have h7 : (s.island idManagement).level = .awake := by simpa using h5
  have h8 : notReady s o = false := by simp [notReady, h3]
  have h9 := wakeForWrite_of_awake _ hn _ fun i hi => by have := (ha i hi).2; simpa using this
  have hc := crossing_none (idManagement :: objIslands o e) (fun s => (dictWrite r o.index o.sub e bs s).1)
    (s := busyAll s (objIslands o e)) (by rw [busyAll_durab]; exact Option.isNone_iff_eq_none.mp h4)
  simp only [dictCommand, hp, hs, hf, h2, h6, h8, Bool.not_true, Bool.or_false, Bool.false_eq_true, if_false,
    wakeUp_of_awake h7]
  simp only [h9, hc, hd, List.isEmpty_nil, if_true]

/-- A dictionary write of an object to a ready controller is a write of the object. -/
theorem dictWrite_ready {s : State} {r : Req} {o : Obj} {e : Nat} (data : List Byte) (hr : s.keeper.rdy = true)
    (ho : objAt o.index o.sub = some o) :
    (dictWrite r o.index o.sub e data s).1 =
      (writeObject r 2 o.addr false (applyAny r o e (bytesAt data 0 o.desc.len)) o e
        (bytesAt data 0 o.desc.len) s).1 := by
  simp [dictWrite, ho, notReady, hr]

/-- A write that no reason of R837 stops takes place. -/
theorem writeObject_of_none {s : State} {r : Req} {o : Obj} {e : Nat} {bs : List Byte} (space addr : Nat)
    (image : Bool) (f : State → State) (h : judgeWrite s r image o e bs = none) :
    (writeObject r space addr image f o e bs s).1 = (f s).clampedBy r (o.clamps bs) := by
  simp [writeObject, h]

/-- A write that a reason of R837 stops is counted and changes nothing else. -/
theorem writeObject_of_some {s : State} {r : Req} {o : Obj} {e : Nat} {bs : List Byte} {reason : Nat}
    (space addr : Nat) (image : Bool) (f : State → State) (h : judgeWrite s r image o e bs = some reason) :
    (writeObject r space addr image f o e bs s).1 = s.ignoredWrite r space addr reason := by
  simp [writeObject, h]

/-- The end of a read takes place at ready islands. -/
theorem readArrives_ready {s : State} {ids : List Nat} (p : Port) (a : Access) (f : State → State) (hn : ids.Nodup)
    (h : islandsReady s ids = true) : readArrives p a ids f s = f (busyAll s ids) := by
  rw [readArrives, if_neg, onArrival_ready _ hn h]
  simp only [islandsReady, Bool.and_eq_true, List.all_eq_true] at h
  simp only [Bool.and_eq_true, List.any_eq_true, not_and, not_exists]
  rintro - i hi; simp [(h.2 i hi).1]

/-- What arrives over the sideband takes place where the Management island serves it. -/
theorem onSideband_ready {s : State} (f : State → State) (h : sbServes s = true) :
    onSideband f (cleared s) = f (sbBegun s) := by
  have : (mgmtServes (cleared s) && reqReaches (cleared s) .sideband) = true := h
  rw [onSideband, if_pos this]; rfl

/-! ### The steps of items -/

/-- Busy islands change no check of an entry. -/
theorem entryCheck_busyAll (ids : List Nat) (s : State) (q : Nat) (it : Item) :
    entryCheck (busyAll s ids) q it = entryCheck s q it := by
  unfold busyAll
  induction ids generalizing s with
  | nil => rfl
  | cons i l ih => simp only [List.foldl_cons, ih]; rfl

/-- The step that the engine can issue takes place. -/
theorem serveStep_ready {q k : Nat} {it : Item} {s : State} (h : serves s q k it) :
    serveStep q it s = serveItem q it (busyAll s (stepIslands s q it)) := by
  rw [serveStep, onIslands_ready _ h.1, guarded_room _ (room_busyAll _ h.2.1)]

/-- ENGINE_SERVE issues the step that the engine can issue. -/
theorem engineServe_ready {q k : Nat} {i : Fin 16} {it : Item} {s : State} (h : serves s q k it) (hi : q / 16 = i) :
    exec (.engineServe i) s = .next (answered s (serveItem q it (begun s (stepIslands s q it)))) := by
  show execEngineServe i s = _
  rw [execEngineServe]
  refine answer_eq ?_
  have h3 : servedQueue (cleared s) i = some q := by rw [← hi]; exact h.2.2.1
  have h4 : nextStep (cleared s) q = some it := h.2.2.2.1
  simp only [h3, h4]
  exact serveStep_ready (s := cleared s) (k := k) h

/-- The command of a kind issues the step of an item of that kind. -/
theorem serveKind_ready {q k : Nat} {it : Item} {s : State} (h : serves s q k it) :
    serveKind k q (cleared s) = serveItem q it (begun s (stepIslands s q it)) := by
  have h3 : servedQueue (cleared s) (q / 16) = some q := h.2.2.1
  have h4 : nextStep (cleared s) q = some it := h.2.2.2.1
  simp only [serveKind, h3, h4, h.2.2.2.2, beq_self_eq_true, if_true]
  exact serveStep_ready (s := cleared s) (k := k) h

/-- A step of an item's kind that nothing ends first. -/
theorem serveItem_stepsOn {q k : Nat} {it : Item} {s : State} (h : stepsOn s q k it) (h0 : k ≠ 0) (h11 : k ≤ 11) :
    serveItem q it (begun s (stepIslands s q it)) = kindStep q it.begun (itemBegun s q it) := by
  obtain ⟨hs, hp, ha, hc⟩ := h
  have hk := hs.2.2.2.2
  have he : entryCheck (begun s (stepIslands s q it)) q it = entryCheck s q it := entryCheck_busyAll _ _ _ _
  unfold serveItem itemBegun Item.begun
  split
  · rename_i b hb; exact absurd hb (ha _)
  · rename_i hb; exact absurd hb hp
  · simp only [he]
    by_cases hz : it.step = 0
    · obtain ⟨h1, h2⟩ := hc hz
      by_cases hr : it.recovered = true
      · simp [hz, h1, hr, h2, hk, h0, Nat.not_lt.mpr h11]
      · simp [hz, h1, hr, hk, h0, Nat.not_lt.mpr h11]
    · simp [hz, hk, h0, Nat.not_lt.mpr h11]

/-- What the first step changes of its item. -/
@[simp] theorem begun_kind (it : Item) : it.begun.kind = it.kind := by unfold Item.begun; split <;> rfl
@[simp] theorem begun_step (it : Item) : it.begun.step = it.step := by unfold Item.begun; split <;> rfl
@[simp] theorem begun_slot (it : Item) : it.begun.slot = it.slot := by unfold Item.begun; split <;> rfl
@[simp] theorem begun_entry (it : Item) : it.begun.entry = it.entry := by unfold Item.begun; split <;> rfl
@[simp] theorem begun_byte (it : Item) (n : Nat) : it.begun.byte n = it.byte n := by simp [Item.byte]
@[simp] theorem begun_flags (it : Item) : it.begun.flags = it.flags := by unfold Item.begun; split <;> rfl
@[simp] theorem begun_pos (it : Item) : it.begun.pos = it.pos := by unfold Item.begun; split <;> rfl
@[simp] theorem begun_data (it : Item) : it.begun.data = it.data := by unfold Item.begun; split <;> rfl
@[simp] theorem begun_denied (it : Item) : it.begun.denied = it.denied := by unfold Item.begun; split <;> rfl

end Sys2Proof.Machine
end

