-- ==== Sys2Proof/Laws/Memory.lean ====
section
/-!
SUPPORT. Maps and byte memories: what an entry written reads as, and that every memory operation keeps the
canonical form.
-/

namespace Sys2Proof.Machine

open Sys2Proof

/-- The head of a canonical map is not the default. -/
theorem SMap.head_ne {α : Type} [DecidableEq α] {d v : α} {k : Nat} {m : SMap α}
    (h : SMap.wf d ((k, v) :: m) = true) : v ≠ d := by
  cases m with
  | nil => simpa [SMap.wf] using h
  | cons q m => obtain ⟨a, b⟩ := q; simp [SMap.wf] at h; exact h.1.1

/-- The rest of a canonical map is canonical. -/
theorem SMap.tail_wf {α : Type} [DecidableEq α] {d v : α} {k : Nat} {m : SMap α}
    (h : SMap.wf d ((k, v) :: m) = true) : SMap.wf d m = true := by
  cases m with
  | nil => rfl
  | cons q m => obtain ⟨a, b⟩ := q; simp [SMap.wf] at h; exact h.2

/-- The keys of a canonical map rise. -/
theorem SMap.head_lt {α : Type} [DecidableEq α] {d v : α} {k : Nat} {m : SMap α}
    (h : SMap.wf d ((k, v) :: m) = true) (q : Nat × α) (hq : m.head? = some q) : k < q.1 := by
  cases m with
  | nil => simp at hq
  | cons p m => obtain ⟨a, b⟩ := p; simp [SMap.wf] at h; simp at hq; subst hq; exact h.1.2

/-- An entry below a canonical map makes a canonical map. -/
theorem SMap.wf_cons {α : Type} [DecidableEq α] {d v : α} {k : Nat} {m : SMap α} (hv : v ≠ d)
    (hm : SMap.wf d m = true) (hk : ∀ q, m.head? = some q → k < q.1) : SMap.wf d ((k, v) :: m) = true := by
  cases m with
  | nil => simpa [SMap.wf] using hv
  | cons p m => obtain ⟨a, b⟩ := p; simp [SMap.wf, hv, hm]; exact hk _ rfl

/-- The first key of a canonical map after a write is the key written or the first one before. -/
theorem mput_head {α : Type} [DecidableEq α] (d : α) (k : Nat) (v : α) (m : SMap α) (h : SMap.wf d m = true)
    (q : Nat × α) (hq : (mput d k v m).head? = some q) : q.1 = k ∨ ∃ p, m.head? = some p ∧ p.1 ≤ q.1 := by
  cases m with
  | nil => by_cases hv : v = d <;> simp [mput, hv] at hq; exact .inl (by rw [← hq])
  | cons p m =>
    obtain ⟨k', v'⟩ := p
    unfold mput at hq
    split at hq
    · split at hq <;> simp at hq <;> subst hq
      · exact .inr ⟨_, rfl, Nat.le_refl _⟩
      · exact .inl rfl
    · split at hq
      · rename_i hk
        split at hq
        · have := SMap.head_lt h q hq
          exact .inr ⟨_, rfl, Nat.le_of_lt this⟩
        · simp at hq; subst hq; exact .inl rfl
      · simp at hq; subst hq; exact .inr ⟨_, rfl, Nat.le_refl _⟩

/-- A write keeps the canonical form of a map. -/
theorem mput_wf {α : Type} [DecidableEq α] (d : α) (k : Nat) (v : α) (m : SMap α) (h : SMap.wf d m = true) :
    SMap.wf d (mput d k v m) = true := by
  induction m with
  | nil => by_cases hv : v = d <;> simp [mput, SMap.wf, hv]
  | cons p m ih =>
    obtain ⟨k', v'⟩ := p
    have ht := SMap.tail_wf h
    unfold mput
    split
    · rename_i hlt
      split
      · exact h
      · rename_i hv
        exact SMap.wf_cons hv h (by intro q hq; simp at hq; subst hq; exact hlt)
    · split
      · rename_i hk
        split
        · exact ht
        · rename_i hv
          exact SMap.wf_cons hv ht (by subst hk; exact SMap.head_lt h)
      · rename_i h1 h2
        refine SMap.wf_cons (SMap.head_ne h) (ih ht) ?_
        intro q hq
        rcases mput_head d k v m ht q hq with hq | ⟨p, hp, hle⟩
        · omega
        · have := SMap.head_lt h p hp
          omega

/-- A change of one entry keeps the canonical form of a map. -/
theorem mmod_wf {α : Type} [DecidableEq α] (d : α) (m : SMap α) (k : Nat) (f : α → α) (h : SMap.wf d m = true) :
    SMap.wf d (mmod d m k f) = true := mput_wf d k _ m h

/-- A byte just written reads back. -/
theorem Memory.read_write_same (m : List Host.Cell) (a : Nat) (v : Byte) (h : Memory.wf m = true) :
    Memory.read (Memory.write m a v) a = v := mget_mput_same 0 a v m h

/-- A write of a byte leaves every other byte alone. -/
theorem Memory.read_write_other (m : List Host.Cell) (a b : Nat) (v : Byte) (h : b ≠ a) :
    Memory.read (Memory.write m a v) b = Memory.read m b := mget_mput_other 0 a b v m h

/-- A write of a byte keeps the canonical form. -/
theorem Memory.write_wf (m : List Host.Cell) (a : Nat) (v : Byte) (h : Memory.wf m = true) :
    Memory.wf (Memory.write m a v) = true := mput_wf 0 a v m h

/-- A write of bytes keeps the canonical form. -/
theorem Memory.writeN_wf (bs : List Byte) (m : List Host.Cell) (a : Nat) (h : Memory.wf m = true) :
    Memory.wf (Memory.writeN m a bs) = true := by
  induction bs generalizing m a with
  | nil => exact h
  | cons b bs ih => exact ih _ _ (Memory.write_wf m a b h)

/-- A write of enabled bytes keeps the canonical form. -/
theorem Memory.writeMasked_wf (bs : List Byte) (es : List Bool) (m : List Host.Cell) (a : Nat)
    (h : Memory.wf m = true) : Memory.wf (Memory.writeMasked m a bs es) = true := by
  induction bs generalizing es m a with
  | nil => exact h
  | cons b bs ih =>
    cases es with
    | nil => exact h
    | cons e es =>
      refine ih es _ _ ?_
      cases e
      · exact h
      · exact Memory.write_wf m a b h

/-- A write of bytes leaves every byte outside them alone. -/
theorem Memory.read_writeN_other (bs : List Byte) (m : List Host.Cell) (a b : Nat)
    (h : b < a ∨ a + bs.length ≤ b) : Memory.read (Memory.writeN m a bs) b = Memory.read m b := by
  induction bs generalizing m a with
  | nil => rfl
  | cons x bs ih =>
    simp only [List.length_cons] at h
    rw [Memory.writeN, ih _ _ (by omega), Memory.read_write_other _ _ _ _ (by omega)]

/-- A write of enabled bytes leaves every byte outside them alone. -/
theorem Memory.read_writeMasked_other (bs : List Byte) (es : List Bool) (m : List Host.Cell) (a b : Nat)
    (h : b < a ∨ a + bs.length ≤ b) : Memory.read (Memory.writeMasked m a bs es) b = Memory.read m b := by
  induction bs generalizing es m a with
  | nil => rfl
  | cons x bs ih =>
    cases es with
    | nil => rfl
    | cons e es =>
      simp only [List.length_cons] at h
      rw [Memory.writeMasked, ih _ _ _ (by omega)]
      cases e
      · rfl
      · exact Memory.read_write_other _ _ _ _ (by omega)

/-- Bytes just written read back. -/
theorem Memory.readN_writeN (bs : List Byte) (m : List Host.Cell) (a : Nat) (h : Memory.wf m = true) :
    Memory.readN (Memory.writeN m a bs) a bs.length = bs := by
  induction bs generalizing m a with
  | nil => rfl
  | cons b bs ih =>
    simp only [Memory.writeN, List.length_cons, Memory.readN]
    rw [ih _ _ (Memory.write_wf m a b h), Memory.read_writeN_other _ _ _ _ (by omega),
      Memory.read_write_same m a b h]

end Sys2Proof.Machine
end

