-- ==== Sys2Proof/Laws/State.lean ====
section
/-!
SUPPORT. What each update of the state leaves alone: one lemma for each field and each update, and what the
update writes, so that no proof unfolds a record update.
-/

namespace Sys2Proof.Machine

open Sys2Proof

/-! ### State.emit -/

@[simp] theorem State.emit_out (s : State) (o : Output) : (s.emit o).out = s.out ++ [o] := rfl
@[simp] theorem State.emit_now (s : State) (o : Output) : (s.emit o).now = s.now := rfl
@[simp] theorem State.emit_free (s : State) (o : Output) : (s.emit o).free = s.free := rfl
@[simp] theorem State.emit_pending (s : State) (o : Output) : (s.emit o).pending = s.pending := rfl
@[simp] theorem State.emit_held (s : State) (o : Output) : (s.emit o).held = s.held := rfl
@[simp] theorem State.emit_dur (s : State) (o : Output) : (s.emit o).dur = s.dur := rfl
@[simp] theorem State.emit_mram (s : State) (o : Output) : (s.emit o).mram = s.mram := rfl
@[simp] theorem State.emit_durab (s : State) (o : Output) : (s.emit o).durab = s.durab := rfl
@[simp] theorem State.emit_nv (s : State) (o : Output) : (s.emit o).nv = s.nv := rfl
@[simp] theorem State.emit_keeper (s : State) (o : Output) : (s.emit o).keeper = s.keeper := rfl
@[simp] theorem State.emit_power (s : State) (o : Output) : (s.emit o).power = s.power := rfl
@[simp] theorem State.emit_dap (s : State) (o : Output) : (s.emit o).dap = s.dap := rfl
@[simp] theorem State.emit_fabric (s : State) (o : Output) : (s.emit o).fabric = s.fabric := rfl
@[simp] theorem State.emit_wired (s : State) (o : Output) : (s.emit o).wired = s.wired := rfl
@[simp] theorem State.emit_queues (s : State) (o : Output) : (s.emit o).queues = s.queues := rfl
@[simp] theorem State.emit_xlate (s : State) (o : Output) : (s.emit o).xlate = s.xlate := rfl
@[simp] theorem State.emit_ledger (s : State) (o : Output) : (s.emit o).ledger = s.ledger := rfl
@[simp] theorem State.emit_portA (s : State) (o : Output) : (s.emit o).portA = s.portA := rfl
@[simp] theorem State.emit_portB (s : State) (o : Output) : (s.emit o).portB = s.portB := rfl
@[simp] theorem State.emit_conduct (s : State) (o : Output) : (s.emit o).conduct = s.conduct := rfl
@[simp] theorem State.emit_auth (s : State) (o : Output) : (s.emit o).auth = s.auth := rfl
@[simp] theorem State.emit_scratch (s : State) (o : Output) : (s.emit o).scratch = s.scratch := rfl
@[simp] theorem State.emit_hatch (s : State) (o : Output) : (s.emit o).hatch = s.hatch := rfl
@[simp] theorem State.emit_sideband (s : State) (o : Output) : (s.emit o).sideband = s.sideband := rfl
@[simp] theorem State.emit_image (s : State) (o : Output) : (s.emit o).image = s.image := rfl

/-! ### State.draw -/

@[simp] theorem State.draw_free (s : State) : (s.draw).free = s.free + 1 := rfl
@[simp] theorem State.draw_now (s : State) : (s.draw).now = s.now := rfl
@[simp] theorem State.draw_pending (s : State) : (s.draw).pending = s.pending := rfl
@[simp] theorem State.draw_out (s : State) : (s.draw).out = s.out := rfl
@[simp] theorem State.draw_held (s : State) : (s.draw).held = s.held := rfl
@[simp] theorem State.draw_dur (s : State) : (s.draw).dur = s.dur := rfl
@[simp] theorem State.draw_mram (s : State) : (s.draw).mram = s.mram := rfl
@[simp] theorem State.draw_durab (s : State) : (s.draw).durab = s.durab := rfl
@[simp] theorem State.draw_nv (s : State) : (s.draw).nv = s.nv := rfl
@[simp] theorem State.draw_keeper (s : State) : (s.draw).keeper = s.keeper := rfl
@[simp] theorem State.draw_power (s : State) : (s.draw).power = s.power := rfl
@[simp] theorem State.draw_dap (s : State) : (s.draw).dap = s.dap := rfl
@[simp] theorem State.draw_fabric (s : State) : (s.draw).fabric = s.fabric := rfl
@[simp] theorem State.draw_wired (s : State) : (s.draw).wired = s.wired := rfl
@[simp] theorem State.draw_queues (s : State) : (s.draw).queues = s.queues := rfl
@[simp] theorem State.draw_xlate (s : State) : (s.draw).xlate = s.xlate := rfl
@[simp] theorem State.draw_ledger (s : State) : (s.draw).ledger = s.ledger := rfl
@[simp] theorem State.draw_portA (s : State) : (s.draw).portA = s.portA := rfl
@[simp] theorem State.draw_portB (s : State) : (s.draw).portB = s.portB := rfl
@[simp] theorem State.draw_conduct (s : State) : (s.draw).conduct = s.conduct := rfl
@[simp] theorem State.draw_auth (s : State) : (s.draw).auth = s.auth := rfl
@[simp] theorem State.draw_scratch (s : State) : (s.draw).scratch = s.scratch := rfl
@[simp] theorem State.draw_hatch (s : State) : (s.draw).hatch = s.hatch := rfl
@[simp] theorem State.draw_sideband (s : State) : (s.draw).sideband = s.sideband := rfl
@[simp] theorem State.draw_image (s : State) : (s.draw).image = s.image := rfl

/-! ### State.modDur -/

@[simp] theorem State.modDur_dur (s : State) (f : Durable → Durable) : (s.modDur f).dur = f s.dur := rfl
@[simp] theorem State.modDur_now (s : State) (f : Durable → Durable) : (s.modDur f).now = s.now := rfl
@[simp] theorem State.modDur_free (s : State) (f : Durable → Durable) : (s.modDur f).free = s.free := rfl
@[simp] theorem State.modDur_pending (s : State) (f : Durable → Durable) : (s.modDur f).pending = s.pending := rfl
@[simp] theorem State.modDur_out (s : State) (f : Durable → Durable) : (s.modDur f).out = s.out := rfl
@[simp] theorem State.modDur_held (s : State) (f : Durable → Durable) : (s.modDur f).held = s.held := rfl
@[simp] theorem State.modDur_mram (s : State) (f : Durable → Durable) : (s.modDur f).mram = s.mram := rfl
@[simp] theorem State.modDur_durab (s : State) (f : Durable → Durable) : (s.modDur f).durab = s.durab := rfl
@[simp] theorem State.modDur_nv (s : State) (f : Durable → Durable) : (s.modDur f).nv = s.nv := rfl
@[simp] theorem State.modDur_keeper (s : State) (f : Durable → Durable) : (s.modDur f).keeper = s.keeper := rfl
@[simp] theorem State.modDur_power (s : State) (f : Durable → Durable) : (s.modDur f).power = s.power := rfl
@[simp] theorem State.modDur_dap (s : State) (f : Durable → Durable) : (s.modDur f).dap = s.dap := rfl
@[simp] theorem State.modDur_fabric (s : State) (f : Durable → Durable) : (s.modDur f).fabric = s.fabric := rfl
@[simp] theorem State.modDur_wired (s : State) (f : Durable → Durable) : (s.modDur f).wired = s.wired := rfl
@[simp] theorem State.modDur_queues (s : State) (f : Durable → Durable) : (s.modDur f).queues = s.queues := rfl
@[simp] theorem State.modDur_xlate (s : State) (f : Durable → Durable) : (s.modDur f).xlate = s.xlate := rfl
@[simp] theorem State.modDur_ledger (s : State) (f : Durable → Durable) : (s.modDur f).ledger = s.ledger := rfl
@[simp] theorem State.modDur_portA (s : State) (f : Durable → Durable) : (s.modDur f).portA = s.portA := rfl
@[simp] theorem State.modDur_portB (s : State) (f : Durable → Durable) : (s.modDur f).portB = s.portB := rfl
@[simp] theorem State.modDur_conduct (s : State) (f : Durable → Durable) : (s.modDur f).conduct = s.conduct := rfl
@[simp] theorem State.modDur_auth (s : State) (f : Durable → Durable) : (s.modDur f).auth = s.auth := rfl
@[simp] theorem State.modDur_scratch (s : State) (f : Durable → Durable) : (s.modDur f).scratch = s.scratch := rfl
@[simp] theorem State.modDur_hatch (s : State) (f : Durable → Durable) : (s.modDur f).hatch = s.hatch := rfl
@[simp] theorem State.modDur_sideband (s : State) (f : Durable → Durable) : (s.modDur f).sideband = s.sideband := rfl
@[simp] theorem State.modDur_image (s : State) (f : Durable → Durable) : (s.modDur f).image = s.image := rfl

/-! ### State.modG -/

@[simp] theorem State.modG_dur (s : State) (f : Globals → Globals) : (s.modG f).dur = { s.dur with g := f s.dur.g } := rfl
@[simp] theorem State.modG_now (s : State) (f : Globals → Globals) : (s.modG f).now = s.now := rfl
@[simp] theorem State.modG_free (s : State) (f : Globals → Globals) : (s.modG f).free = s.free := rfl
@[simp] theorem State.modG_pending (s : State) (f : Globals → Globals) : (s.modG f).pending = s.pending := rfl
@[simp] theorem State.modG_out (s : State) (f : Globals → Globals) : (s.modG f).out = s.out := rfl
@[simp] theorem State.modG_held (s : State) (f : Globals → Globals) : (s.modG f).held = s.held := rfl
@[simp] theorem State.modG_mram (s : State) (f : Globals → Globals) : (s.modG f).mram = s.mram := rfl
@[simp] theorem State.modG_durab (s : State) (f : Globals → Globals) : (s.modG f).durab = s.durab := rfl
@[simp] theorem State.modG_nv (s : State) (f : Globals → Globals) : (s.modG f).nv = s.nv := rfl
@[simp] theorem State.modG_keeper (s : State) (f : Globals → Globals) : (s.modG f).keeper = s.keeper := rfl
@[simp] theorem State.modG_power (s : State) (f : Globals → Globals) : (s.modG f).power = s.power := rfl
@[simp] theorem State.modG_dap (s : State) (f : Globals → Globals) : (s.modG f).dap = s.dap := rfl
@[simp] theorem State.modG_fabric (s : State) (f : Globals → Globals) : (s.modG f).fabric = s.fabric := rfl
@[simp] theorem State.modG_wired (s : State) (f : Globals → Globals) : (s.modG f).wired = s.wired := rfl
@[simp] theorem State.modG_queues (s : State) (f : Globals → Globals) : (s.modG f).queues = s.queues := rfl
@[simp] theorem State.modG_xlate (s : State) (f : Globals → Globals) : (s.modG f).xlate = s.xlate := rfl
@[simp] theorem State.modG_ledger (s : State) (f : Globals → Globals) : (s.modG f).ledger = s.ledger := rfl
@[simp] theorem State.modG_portA (s : State) (f : Globals → Globals) : (s.modG f).portA = s.portA := rfl
@[simp] theorem State.modG_portB (s : State) (f : Globals → Globals) : (s.modG f).portB = s.portB := rfl
@[simp] theorem State.modG_conduct (s : State) (f : Globals → Globals) : (s.modG f).conduct = s.conduct := rfl
@[simp] theorem State.modG_auth (s : State) (f : Globals → Globals) : (s.modG f).auth = s.auth := rfl
@[simp] theorem State.modG_scratch (s : State) (f : Globals → Globals) : (s.modG f).scratch = s.scratch := rfl
@[simp] theorem State.modG_hatch (s : State) (f : Globals → Globals) : (s.modG f).hatch = s.hatch := rfl
@[simp] theorem State.modG_sideband (s : State) (f : Globals → Globals) : (s.modG f).sideband = s.sideband := rfl
@[simp] theorem State.modG_image (s : State) (f : Globals → Globals) : (s.modG f).image = s.image := rfl

/-! ### State.modFabric -/

@[simp] theorem State.modFabric_fabric (s : State) (f : Fabric → Fabric) : (s.modFabric f).fabric = f s.fabric := rfl
@[simp] theorem State.modFabric_now (s : State) (f : Fabric → Fabric) : (s.modFabric f).now = s.now := rfl
@[simp] theorem State.modFabric_free (s : State) (f : Fabric → Fabric) : (s.modFabric f).free = s.free := rfl
@[simp] theorem State.modFabric_pending (s : State) (f : Fabric → Fabric) : (s.modFabric f).pending = s.pending := rfl
@[simp] theorem State.modFabric_out (s : State) (f : Fabric → Fabric) : (s.modFabric f).out = s.out := rfl
@[simp] theorem State.modFabric_held (s : State) (f : Fabric → Fabric) : (s.modFabric f).held = s.held := rfl
@[simp] theorem State.modFabric_dur (s : State) (f : Fabric → Fabric) : (s.modFabric f).dur = s.dur := rfl
@[simp] theorem State.modFabric_mram (s : State) (f : Fabric → Fabric) : (s.modFabric f).mram = s.mram := rfl
@[simp] theorem State.modFabric_durab (s : State) (f : Fabric → Fabric) : (s.modFabric f).durab = s.durab := rfl
@[simp] theorem State.modFabric_nv (s : State) (f : Fabric → Fabric) : (s.modFabric f).nv = s.nv := rfl
@[simp] theorem State.modFabric_keeper (s : State) (f : Fabric → Fabric) : (s.modFabric f).keeper = s.keeper := rfl
@[simp] theorem State.modFabric_power (s : State) (f : Fabric → Fabric) : (s.modFabric f).power = s.power := rfl
@[simp] theorem State.modFabric_dap (s : State) (f : Fabric → Fabric) : (s.modFabric f).dap = s.dap := rfl
@[simp] theorem State.modFabric_wired (s : State) (f : Fabric → Fabric) : (s.modFabric f).wired = s.wired := rfl
@[simp] theorem State.modFabric_queues (s : State) (f : Fabric → Fabric) : (s.modFabric f).queues = s.queues := rfl
@[simp] theorem State.modFabric_xlate (s : State) (f : Fabric → Fabric) : (s.modFabric f).xlate = s.xlate := rfl
@[simp] theorem State.modFabric_ledger (s : State) (f : Fabric → Fabric) : (s.modFabric f).ledger = s.ledger := rfl
@[simp] theorem State.modFabric_portA (s : State) (f : Fabric → Fabric) : (s.modFabric f).portA = s.portA := rfl
@[simp] theorem State.modFabric_portB (s : State) (f : Fabric → Fabric) : (s.modFabric f).portB = s.portB := rfl
@[simp] theorem State.modFabric_conduct (s : State) (f : Fabric → Fabric) : (s.modFabric f).conduct = s.conduct := rfl
@[simp] theorem State.modFabric_auth (s : State) (f : Fabric → Fabric) : (s.modFabric f).auth = s.auth := rfl
@[simp] theorem State.modFabric_scratch (s : State) (f : Fabric → Fabric) : (s.modFabric f).scratch = s.scratch := rfl
@[simp] theorem State.modFabric_hatch (s : State) (f : Fabric → Fabric) : (s.modFabric f).hatch = s.hatch := rfl
@[simp] theorem State.modFabric_sideband (s : State) (f : Fabric → Fabric) : (s.modFabric f).sideband = s.sideband := rfl
@[simp] theorem State.modFabric_image (s : State) (f : Fabric → Fabric) : (s.modFabric f).image = s.image := rfl

/-! ### State.modConduct -/

@[simp] theorem State.modConduct_conduct (s : State) (r : Req) (f : Conduct → Conduct) : (s.modConduct r f).conduct = s.conduct.set r (f (s.conduct.get r)) := rfl
@[simp] theorem State.modConduct_now (s : State) (r : Req) (f : Conduct → Conduct) : (s.modConduct r f).now = s.now := rfl
@[simp] theorem State.modConduct_free (s : State) (r : Req) (f : Conduct → Conduct) : (s.modConduct r f).free = s.free := rfl
@[simp] theorem State.modConduct_pending (s : State) (r : Req) (f : Conduct → Conduct) : (s.modConduct r f).pending = s.pending := rfl
@[simp] theorem State.modConduct_out (s : State) (r : Req) (f : Conduct → Conduct) : (s.modConduct r f).out = s.out := rfl
@[simp] theorem State.modConduct_held (s : State) (r : Req) (f : Conduct → Conduct) : (s.modConduct r f).held = s.held := rfl
@[simp] theorem State.modConduct_dur (s : State) (r : Req) (f : Conduct → Conduct) : (s.modConduct r f).dur = s.dur := rfl
@[simp] theorem State.modConduct_mram (s : State) (r : Req) (f : Conduct → Conduct) : (s.modConduct r f).mram = s.mram := rfl
@[simp] theorem State.modConduct_durab (s : State) (r : Req) (f : Conduct → Conduct) : (s.modConduct r f).durab = s.durab := rfl
@[simp] theorem State.modConduct_nv (s : State) (r : Req) (f : Conduct → Conduct) : (s.modConduct r f).nv = s.nv := rfl
@[simp] theorem State.modConduct_keeper (s : State) (r : Req) (f : Conduct → Conduct) : (s.modConduct r f).keeper = s.keeper := rfl
@[simp] theorem State.modConduct_power (s : State) (r : Req) (f : Conduct → Conduct) : (s.modConduct r f).power = s.power := rfl
@[simp] theorem State.modConduct_dap (s : State) (r : Req) (f : Conduct → Conduct) : (s.modConduct r f).dap = s.dap := rfl
@[simp] theorem State.modConduct_fabric (s : State) (r : Req) (f : Conduct → Conduct) : (s.modConduct r f).fabric = s.fabric := rfl
@[simp] theorem State.modConduct_wired (s : State) (r : Req) (f : Conduct → Conduct) : (s.modConduct r f).wired = s.wired := rfl
@[simp] theorem State.modConduct_queues (s : State) (r : Req) (f : Conduct → Conduct) : (s.modConduct r f).queues = s.queues := rfl
@[simp] theorem State.modConduct_xlate (s : State) (r : Req) (f : Conduct → Conduct) : (s.modConduct r f).xlate = s.xlate := rfl
@[simp] theorem State.modConduct_ledger (s : State) (r : Req) (f : Conduct → Conduct) : (s.modConduct r f).ledger = s.ledger := rfl
@[simp] theorem State.modConduct_portA (s : State) (r : Req) (f : Conduct → Conduct) : (s.modConduct r f).portA = s.portA := rfl
@[simp] theorem State.modConduct_portB (s : State) (r : Req) (f : Conduct → Conduct) : (s.modConduct r f).portB = s.portB := rfl
@[simp] theorem State.modConduct_auth (s : State) (r : Req) (f : Conduct → Conduct) : (s.modConduct r f).auth = s.auth := rfl
@[simp] theorem State.modConduct_scratch (s : State) (r : Req) (f : Conduct → Conduct) : (s.modConduct r f).scratch = s.scratch := rfl
@[simp] theorem State.modConduct_hatch (s : State) (r : Req) (f : Conduct → Conduct) : (s.modConduct r f).hatch = s.hatch := rfl
@[simp] theorem State.modConduct_sideband (s : State) (r : Req) (f : Conduct → Conduct) : (s.modConduct r f).sideband = s.sideband := rfl
@[simp] theorem State.modConduct_image (s : State) (r : Req) (f : Conduct → Conduct) : (s.modConduct r f).image = s.image := rfl

/-! ### State.modConducts -/

@[simp] theorem State.modConducts_conduct (s : State) (f : Conduct → Conduct) : (s.modConducts f).conduct = s.conduct.all f := rfl
@[simp] theorem State.modConducts_now (s : State) (f : Conduct → Conduct) : (s.modConducts f).now = s.now := rfl
@[simp] theorem State.modConducts_free (s : State) (f : Conduct → Conduct) : (s.modConducts f).free = s.free := rfl
@[simp] theorem State.modConducts_pending (s : State) (f : Conduct → Conduct) : (s.modConducts f).pending = s.pending := rfl
@[simp] theorem State.modConducts_out (s : State) (f : Conduct → Conduct) : (s.modConducts f).out = s.out := rfl
@[simp] theorem State.modConducts_held (s : State) (f : Conduct → Conduct) : (s.modConducts f).held = s.held := rfl
@[simp] theorem State.modConducts_dur (s : State) (f : Conduct → Conduct) : (s.modConducts f).dur = s.dur := rfl
@[simp] theorem State.modConducts_mram (s : State) (f : Conduct → Conduct) : (s.modConducts f).mram = s.mram := rfl
@[simp] theorem State.modConducts_durab (s : State) (f : Conduct → Conduct) : (s.modConducts f).durab = s.durab := rfl
@[simp] theorem State.modConducts_nv (s : State) (f : Conduct → Conduct) : (s.modConducts f).nv = s.nv := rfl
@[simp] theorem State.modConducts_keeper (s : State) (f : Conduct → Conduct) : (s.modConducts f).keeper = s.keeper := rfl
@[simp] theorem State.modConducts_power (s : State) (f : Conduct → Conduct) : (s.modConducts f).power = s.power := rfl
@[simp] theorem State.modConducts_dap (s : State) (f : Conduct → Conduct) : (s.modConducts f).dap = s.dap := rfl
@[simp] theorem State.modConducts_fabric (s : State) (f : Conduct → Conduct) : (s.modConducts f).fabric = s.fabric := rfl
@[simp] theorem State.modConducts_wired (s : State) (f : Conduct → Conduct) : (s.modConducts f).wired = s.wired := rfl
@[simp] theorem State.modConducts_queues (s : State) (f : Conduct → Conduct) : (s.modConducts f).queues = s.queues := rfl
@[simp] theorem State.modConducts_xlate (s : State) (f : Conduct → Conduct) : (s.modConducts f).xlate = s.xlate := rfl
@[simp] theorem State.modConducts_ledger (s : State) (f : Conduct → Conduct) : (s.modConducts f).ledger = s.ledger := rfl
@[simp] theorem State.modConducts_portA (s : State) (f : Conduct → Conduct) : (s.modConducts f).portA = s.portA := rfl
@[simp] theorem State.modConducts_portB (s : State) (f : Conduct → Conduct) : (s.modConducts f).portB = s.portB := rfl
@[simp] theorem State.modConducts_auth (s : State) (f : Conduct → Conduct) : (s.modConducts f).auth = s.auth := rfl
@[simp] theorem State.modConducts_scratch (s : State) (f : Conduct → Conduct) : (s.modConducts f).scratch = s.scratch := rfl
@[simp] theorem State.modConducts_hatch (s : State) (f : Conduct → Conduct) : (s.modConducts f).hatch = s.hatch := rfl
@[simp] theorem State.modConducts_sideband (s : State) (f : Conduct → Conduct) : (s.modConducts f).sideband = s.sideband := rfl
@[simp] theorem State.modConducts_image (s : State) (f : Conduct → Conduct) : (s.modConducts f).image = s.image := rfl

/-! ### State.touchIf -/

@[simp] theorem State.touchIf_now (s : State) (b : Bool) (l : Line) : (s.touchIf b l).now = s.now := rfl
@[simp] theorem State.touchIf_free (s : State) (b : Bool) (l : Line) : (s.touchIf b l).free = s.free := rfl
@[simp] theorem State.touchIf_pending (s : State) (b : Bool) (l : Line) : (s.touchIf b l).pending = s.pending := rfl
@[simp] theorem State.touchIf_out (s : State) (b : Bool) (l : Line) : (s.touchIf b l).out = s.out := rfl
@[simp] theorem State.touchIf_held (s : State) (b : Bool) (l : Line) : (s.touchIf b l).held = s.held := rfl
@[simp] theorem State.touchIf_dur (s : State) (b : Bool) (l : Line) : (s.touchIf b l).dur = s.dur := rfl
@[simp] theorem State.touchIf_mram (s : State) (b : Bool) (l : Line) : (s.touchIf b l).mram = s.mram := rfl
@[simp] theorem State.touchIf_nv (s : State) (b : Bool) (l : Line) : (s.touchIf b l).nv = s.nv := rfl
@[simp] theorem State.touchIf_keeper (s : State) (b : Bool) (l : Line) : (s.touchIf b l).keeper = s.keeper := rfl
@[simp] theorem State.touchIf_power (s : State) (b : Bool) (l : Line) : (s.touchIf b l).power = s.power := rfl
@[simp] theorem State.touchIf_dap (s : State) (b : Bool) (l : Line) : (s.touchIf b l).dap = s.dap := rfl
@[simp] theorem State.touchIf_fabric (s : State) (b : Bool) (l : Line) : (s.touchIf b l).fabric = s.fabric := rfl
@[simp] theorem State.touchIf_wired (s : State) (b : Bool) (l : Line) : (s.touchIf b l).wired = s.wired := rfl
@[simp] theorem State.touchIf_queues (s : State) (b : Bool) (l : Line) : (s.touchIf b l).queues = s.queues := rfl
@[simp] theorem State.touchIf_xlate (s : State) (b : Bool) (l : Line) : (s.touchIf b l).xlate = s.xlate := rfl
@[simp] theorem State.touchIf_ledger (s : State) (b : Bool) (l : Line) : (s.touchIf b l).ledger = s.ledger := rfl
@[simp] theorem State.touchIf_portA (s : State) (b : Bool) (l : Line) : (s.touchIf b l).portA = s.portA := rfl
@[simp] theorem State.touchIf_portB (s : State) (b : Bool) (l : Line) : (s.touchIf b l).portB = s.portB := rfl
@[simp] theorem State.touchIf_conduct (s : State) (b : Bool) (l : Line) : (s.touchIf b l).conduct = s.conduct := rfl
@[simp] theorem State.touchIf_auth (s : State) (b : Bool) (l : Line) : (s.touchIf b l).auth = s.auth := rfl
@[simp] theorem State.touchIf_scratch (s : State) (b : Bool) (l : Line) : (s.touchIf b l).scratch = s.scratch := rfl
@[simp] theorem State.touchIf_hatch (s : State) (b : Bool) (l : Line) : (s.touchIf b l).hatch = s.hatch := rfl
@[simp] theorem State.touchIf_sideband (s : State) (b : Bool) (l : Line) : (s.touchIf b l).sideband = s.sideband := rfl
@[simp] theorem State.touchIf_image (s : State) (b : Bool) (l : Line) : (s.touchIf b l).image = s.image := rfl

/-! ### State.touch -/

@[simp] theorem State.touch_now (s : State) (l : Line) : (s.touch l).now = s.now := rfl
@[simp] theorem State.touch_free (s : State) (l : Line) : (s.touch l).free = s.free := rfl
@[simp] theorem State.touch_pending (s : State) (l : Line) : (s.touch l).pending = s.pending := rfl
@[simp] theorem State.touch_out (s : State) (l : Line) : (s.touch l).out = s.out := rfl
@[simp] theorem State.touch_held (s : State) (l : Line) : (s.touch l).held = s.held := rfl
@[simp] theorem State.touch_dur (s : State) (l : Line) : (s.touch l).dur = s.dur := rfl
@[simp] theorem State.touch_mram (s : State) (l : Line) : (s.touch l).mram = s.mram := rfl
@[simp] theorem State.touch_nv (s : State) (l : Line) : (s.touch l).nv = s.nv := rfl
@[simp] theorem State.touch_keeper (s : State) (l : Line) : (s.touch l).keeper = s.keeper := rfl
@[simp] theorem State.touch_power (s : State) (l : Line) : (s.touch l).power = s.power := rfl
@[simp] theorem State.touch_dap (s : State) (l : Line) : (s.touch l).dap = s.dap := rfl
@[simp] theorem State.touch_fabric (s : State) (l : Line) : (s.touch l).fabric = s.fabric := rfl
@[simp] theorem State.touch_wired (s : State) (l : Line) : (s.touch l).wired = s.wired := rfl
@[simp] theorem State.touch_queues (s : State) (l : Line) : (s.touch l).queues = s.queues := rfl
@[simp] theorem State.touch_xlate (s : State) (l : Line) : (s.touch l).xlate = s.xlate := rfl
@[simp] theorem State.touch_ledger (s : State) (l : Line) : (s.touch l).ledger = s.ledger := rfl
@[simp] theorem State.touch_portA (s : State) (l : Line) : (s.touch l).portA = s.portA := rfl
@[simp] theorem State.touch_portB (s : State) (l : Line) : (s.touch l).portB = s.portB := rfl
@[simp] theorem State.touch_conduct (s : State) (l : Line) : (s.touch l).conduct = s.conduct := rfl
@[simp] theorem State.touch_auth (s : State) (l : Line) : (s.touch l).auth = s.auth := rfl
@[simp] theorem State.touch_scratch (s : State) (l : Line) : (s.touch l).scratch = s.scratch := rfl
@[simp] theorem State.touch_hatch (s : State) (l : Line) : (s.touch l).hatch = s.hatch := rfl
@[simp] theorem State.touch_sideband (s : State) (l : Line) : (s.touch l).sideband = s.sideband := rfl
@[simp] theorem State.touch_image (s : State) (l : Line) : (s.touch l).image = s.image := rfl

/-! ### State.putSrc -/

@[simp] theorem State.putSrc_now (s : State) (sn : Nat) (r : Source) : (s.putSrc sn r).now = s.now := rfl
@[simp] theorem State.putSrc_free (s : State) (sn : Nat) (r : Source) : (s.putSrc sn r).free = s.free := rfl
@[simp] theorem State.putSrc_pending (s : State) (sn : Nat) (r : Source) : (s.putSrc sn r).pending = s.pending := rfl
@[simp] theorem State.putSrc_out (s : State) (sn : Nat) (r : Source) : (s.putSrc sn r).out = s.out := rfl
@[simp] theorem State.putSrc_held (s : State) (sn : Nat) (r : Source) : (s.putSrc sn r).held = s.held := rfl
@[simp] theorem State.putSrc_mram (s : State) (sn : Nat) (r : Source) : (s.putSrc sn r).mram = s.mram := rfl
@[simp] theorem State.putSrc_nv (s : State) (sn : Nat) (r : Source) : (s.putSrc sn r).nv = s.nv := rfl
@[simp] theorem State.putSrc_keeper (s : State) (sn : Nat) (r : Source) : (s.putSrc sn r).keeper = s.keeper := rfl
@[simp] theorem State.putSrc_power (s : State) (sn : Nat) (r : Source) : (s.putSrc sn r).power = s.power := rfl
@[simp] theorem State.putSrc_dap (s : State) (sn : Nat) (r : Source) : (s.putSrc sn r).dap = s.dap := rfl
@[simp] theorem State.putSrc_fabric (s : State) (sn : Nat) (r : Source) : (s.putSrc sn r).fabric = s.fabric := rfl
@[simp] theorem State.putSrc_wired (s : State) (sn : Nat) (r : Source) : (s.putSrc sn r).wired = s.wired := rfl
@[simp] theorem State.putSrc_queues (s : State) (sn : Nat) (r : Source) : (s.putSrc sn r).queues = s.queues := rfl
@[simp] theorem State.putSrc_xlate (s : State) (sn : Nat) (r : Source) : (s.putSrc sn r).xlate = s.xlate := rfl
@[simp] theorem State.putSrc_ledger (s : State) (sn : Nat) (r : Source) : (s.putSrc sn r).ledger = s.ledger := rfl
@[simp] theorem State.putSrc_portA (s : State) (sn : Nat) (r : Source) : (s.putSrc sn r).portA = s.portA := rfl
@[simp] theorem State.putSrc_portB (s : State) (sn : Nat) (r : Source) : (s.putSrc sn r).portB = s.portB := rfl
@[simp] theorem State.putSrc_conduct (s : State) (sn : Nat) (r : Source) : (s.putSrc sn r).conduct = s.conduct := rfl
@[simp] theorem State.putSrc_auth (s : State) (sn : Nat) (r : Source) : (s.putSrc sn r).auth = s.auth := rfl
@[simp] theorem State.putSrc_scratch (s : State) (sn : Nat) (r : Source) : (s.putSrc sn r).scratch = s.scratch := rfl
@[simp] theorem State.putSrc_hatch (s : State) (sn : Nat) (r : Source) : (s.putSrc sn r).hatch = s.hatch := rfl
@[simp] theorem State.putSrc_sideband (s : State) (sn : Nat) (r : Source) : (s.putSrc sn r).sideband = s.sideband := rfl
@[simp] theorem State.putSrc_image (s : State) (sn : Nat) (r : Source) : (s.putSrc sn r).image = s.image := rfl

/-! ### State.putTgt -/

@[simp] theorem State.putTgt_now (s : State) (tn : Nat) (r : Target) : (s.putTgt tn r).now = s.now := rfl
@[simp] theorem State.putTgt_free (s : State) (tn : Nat) (r : Target) : (s.putTgt tn r).free = s.free := rfl
@[simp] theorem State.putTgt_pending (s : State) (tn : Nat) (r : Target) : (s.putTgt tn r).pending = s.pending := rfl
@[simp] theorem State.putTgt_out (s : State) (tn : Nat) (r : Target) : (s.putTgt tn r).out = s.out := rfl
@[simp] theorem State.putTgt_held (s : State) (tn : Nat) (r : Target) : (s.putTgt tn r).held = s.held := rfl
@[simp] theorem State.putTgt_mram (s : State) (tn : Nat) (r : Target) : (s.putTgt tn r).mram = s.mram := rfl
@[simp] theorem State.putTgt_nv (s : State) (tn : Nat) (r : Target) : (s.putTgt tn r).nv = s.nv := rfl
@[simp] theorem State.putTgt_keeper (s : State) (tn : Nat) (r : Target) : (s.putTgt tn r).keeper = s.keeper := rfl
@[simp] theorem State.putTgt_power (s : State) (tn : Nat) (r : Target) : (s.putTgt tn r).power = s.power := rfl
@[simp] theorem State.putTgt_dap (s : State) (tn : Nat) (r : Target) : (s.putTgt tn r).dap = s.dap := rfl
@[simp] theorem State.putTgt_fabric (s : State) (tn : Nat) (r : Target) : (s.putTgt tn r).fabric = s.fabric := rfl
@[simp] theorem State.putTgt_wired (s : State) (tn : Nat) (r : Target) : (s.putTgt tn r).wired = s.wired := rfl
@[simp] theorem State.putTgt_queues (s : State) (tn : Nat) (r : Target) : (s.putTgt tn r).queues = s.queues := rfl
@[simp] theorem State.putTgt_xlate (s : State) (tn : Nat) (r : Target) : (s.putTgt tn r).xlate = s.xlate := rfl
@[simp] theorem State.putTgt_ledger (s : State) (tn : Nat) (r : Target) : (s.putTgt tn r).ledger = s.ledger := rfl
@[simp] theorem State.putTgt_portA (s : State) (tn : Nat) (r : Target) : (s.putTgt tn r).portA = s.portA := rfl
@[simp] theorem State.putTgt_portB (s : State) (tn : Nat) (r : Target) : (s.putTgt tn r).portB = s.portB := rfl
@[simp] theorem State.putTgt_conduct (s : State) (tn : Nat) (r : Target) : (s.putTgt tn r).conduct = s.conduct := rfl
@[simp] theorem State.putTgt_auth (s : State) (tn : Nat) (r : Target) : (s.putTgt tn r).auth = s.auth := rfl
@[simp] theorem State.putTgt_scratch (s : State) (tn : Nat) (r : Target) : (s.putTgt tn r).scratch = s.scratch := rfl
@[simp] theorem State.putTgt_hatch (s : State) (tn : Nat) (r : Target) : (s.putTgt tn r).hatch = s.hatch := rfl
@[simp] theorem State.putTgt_sideband (s : State) (tn : Nat) (r : Target) : (s.putTgt tn r).sideband = s.sideband := rfl
@[simp] theorem State.putTgt_image (s : State) (tn : Nat) (r : Target) : (s.putTgt tn r).image = s.image := rfl

/-! ### State.setEnable -/

@[simp] theorem State.setEnable_now (s : State) (tn : Nat) (b : Bool) : (s.setEnable tn b).now = s.now := rfl
@[simp] theorem State.setEnable_free (s : State) (tn : Nat) (b : Bool) : (s.setEnable tn b).free = s.free := rfl
@[simp] theorem State.setEnable_pending (s : State) (tn : Nat) (b : Bool) : (s.setEnable tn b).pending = s.pending := rfl
@[simp] theorem State.setEnable_out (s : State) (tn : Nat) (b : Bool) : (s.setEnable tn b).out = s.out := rfl
@[simp] theorem State.setEnable_held (s : State) (tn : Nat) (b : Bool) : (s.setEnable tn b).held = s.held := rfl
@[simp] theorem State.setEnable_mram (s : State) (tn : Nat) (b : Bool) : (s.setEnable tn b).mram = s.mram := rfl
@[simp] theorem State.setEnable_durab (s : State) (tn : Nat) (b : Bool) : (s.setEnable tn b).durab = s.durab := rfl
@[simp] theorem State.setEnable_nv (s : State) (tn : Nat) (b : Bool) : (s.setEnable tn b).nv = s.nv := rfl
@[simp] theorem State.setEnable_keeper (s : State) (tn : Nat) (b : Bool) : (s.setEnable tn b).keeper = s.keeper := rfl
@[simp] theorem State.setEnable_power (s : State) (tn : Nat) (b : Bool) : (s.setEnable tn b).power = s.power := rfl
@[simp] theorem State.setEnable_dap (s : State) (tn : Nat) (b : Bool) : (s.setEnable tn b).dap = s.dap := rfl
@[simp] theorem State.setEnable_fabric (s : State) (tn : Nat) (b : Bool) : (s.setEnable tn b).fabric = s.fabric := rfl
@[simp] theorem State.setEnable_wired (s : State) (tn : Nat) (b : Bool) : (s.setEnable tn b).wired = s.wired := rfl
@[simp] theorem State.setEnable_queues (s : State) (tn : Nat) (b : Bool) : (s.setEnable tn b).queues = s.queues := rfl
@[simp] theorem State.setEnable_xlate (s : State) (tn : Nat) (b : Bool) : (s.setEnable tn b).xlate = s.xlate := rfl
@[simp] theorem State.setEnable_ledger (s : State) (tn : Nat) (b : Bool) : (s.setEnable tn b).ledger = s.ledger := rfl
@[simp] theorem State.setEnable_portA (s : State) (tn : Nat) (b : Bool) : (s.setEnable tn b).portA = s.portA := rfl
@[simp] theorem State.setEnable_portB (s : State) (tn : Nat) (b : Bool) : (s.setEnable tn b).portB = s.portB := rfl
@[simp] theorem State.setEnable_conduct (s : State) (tn : Nat) (b : Bool) : (s.setEnable tn b).conduct = s.conduct := rfl
@[simp] theorem State.setEnable_auth (s : State) (tn : Nat) (b : Bool) : (s.setEnable tn b).auth = s.auth := rfl
@[simp] theorem State.setEnable_scratch (s : State) (tn : Nat) (b : Bool) : (s.setEnable tn b).scratch = s.scratch := rfl
@[simp] theorem State.setEnable_hatch (s : State) (tn : Nat) (b : Bool) : (s.setEnable tn b).hatch = s.hatch := rfl
@[simp] theorem State.setEnable_sideband (s : State) (tn : Nat) (b : Bool) : (s.setEnable tn b).sideband = s.sideband := rfl
@[simp] theorem State.setEnable_image (s : State) (tn : Nat) (b : Bool) : (s.setEnable tn b).image = s.image := rfl

/-! ### State.modSlot -/

@[simp] theorem State.modSlot_now (s : State) (tn : Nat) (c : Cls) (f : DSlot → DSlot) : (s.modSlot tn c f).now = s.now := rfl
@[simp] theorem State.modSlot_free (s : State) (tn : Nat) (c : Cls) (f : DSlot → DSlot) : (s.modSlot tn c f).free = s.free := rfl
@[simp] theorem State.modSlot_pending (s : State) (tn : Nat) (c : Cls) (f : DSlot → DSlot) : (s.modSlot tn c f).pending = s.pending := rfl
@[simp] theorem State.modSlot_out (s : State) (tn : Nat) (c : Cls) (f : DSlot → DSlot) : (s.modSlot tn c f).out = s.out := rfl
@[simp] theorem State.modSlot_held (s : State) (tn : Nat) (c : Cls) (f : DSlot → DSlot) : (s.modSlot tn c f).held = s.held := rfl
@[simp] theorem State.modSlot_dur (s : State) (tn : Nat) (c : Cls) (f : DSlot → DSlot) : (s.modSlot tn c f).dur = s.dur := rfl
@[simp] theorem State.modSlot_mram (s : State) (tn : Nat) (c : Cls) (f : DSlot → DSlot) : (s.modSlot tn c f).mram = s.mram := rfl
@[simp] theorem State.modSlot_durab (s : State) (tn : Nat) (c : Cls) (f : DSlot → DSlot) : (s.modSlot tn c f).durab = s.durab := rfl
@[simp] theorem State.modSlot_nv (s : State) (tn : Nat) (c : Cls) (f : DSlot → DSlot) : (s.modSlot tn c f).nv = s.nv := rfl
@[simp] theorem State.modSlot_keeper (s : State) (tn : Nat) (c : Cls) (f : DSlot → DSlot) : (s.modSlot tn c f).keeper = s.keeper := rfl
@[simp] theorem State.modSlot_power (s : State) (tn : Nat) (c : Cls) (f : DSlot → DSlot) : (s.modSlot tn c f).power = s.power := rfl
@[simp] theorem State.modSlot_dap (s : State) (tn : Nat) (c : Cls) (f : DSlot → DSlot) : (s.modSlot tn c f).dap = s.dap := rfl
@[simp] theorem State.modSlot_wired (s : State) (tn : Nat) (c : Cls) (f : DSlot → DSlot) : (s.modSlot tn c f).wired = s.wired := rfl
@[simp] theorem State.modSlot_queues (s : State) (tn : Nat) (c : Cls) (f : DSlot → DSlot) : (s.modSlot tn c f).queues = s.queues := rfl
@[simp] theorem State.modSlot_xlate (s : State) (tn : Nat) (c : Cls) (f : DSlot → DSlot) : (s.modSlot tn c f).xlate = s.xlate := rfl
@[simp] theorem State.modSlot_ledger (s : State) (tn : Nat) (c : Cls) (f : DSlot → DSlot) : (s.modSlot tn c f).ledger = s.ledger := rfl
@[simp] theorem State.modSlot_portA (s : State) (tn : Nat) (c : Cls) (f : DSlot → DSlot) : (s.modSlot tn c f).portA = s.portA := rfl
@[simp] theorem State.modSlot_portB (s : State) (tn : Nat) (c : Cls) (f : DSlot → DSlot) : (s.modSlot tn c f).portB = s.portB := rfl
@[simp] theorem State.modSlot_conduct (s : State) (tn : Nat) (c : Cls) (f : DSlot → DSlot) : (s.modSlot tn c f).conduct = s.conduct := rfl
@[simp] theorem State.modSlot_auth (s : State) (tn : Nat) (c : Cls) (f : DSlot → DSlot) : (s.modSlot tn c f).auth = s.auth := rfl
@[simp] theorem State.modSlot_scratch (s : State) (tn : Nat) (c : Cls) (f : DSlot → DSlot) : (s.modSlot tn c f).scratch = s.scratch := rfl
@[simp] theorem State.modSlot_hatch (s : State) (tn : Nat) (c : Cls) (f : DSlot → DSlot) : (s.modSlot tn c f).hatch = s.hatch := rfl
@[simp] theorem State.modSlot_sideband (s : State) (tn : Nat) (c : Cls) (f : DSlot → DSlot) : (s.modSlot tn c f).sideband = s.sideband := rfl
@[simp] theorem State.modSlot_image (s : State) (tn : Nat) (c : Cls) (f : DSlot → DSlot) : (s.modSlot tn c f).image = s.image := rfl

/-! ### State.setRank -/

@[simp] theorem State.setRank_now (s : State) (tn : Nat) (c : Cls) (v : RankSlot) : (s.setRank tn c v).now = s.now := rfl
@[simp] theorem State.setRank_free (s : State) (tn : Nat) (c : Cls) (v : RankSlot) : (s.setRank tn c v).free = s.free := rfl
@[simp] theorem State.setRank_pending (s : State) (tn : Nat) (c : Cls) (v : RankSlot) : (s.setRank tn c v).pending = s.pending := rfl
@[simp] theorem State.setRank_out (s : State) (tn : Nat) (c : Cls) (v : RankSlot) : (s.setRank tn c v).out = s.out := rfl
@[simp] theorem State.setRank_held (s : State) (tn : Nat) (c : Cls) (v : RankSlot) : (s.setRank tn c v).held = s.held := rfl
@[simp] theorem State.setRank_dur (s : State) (tn : Nat) (c : Cls) (v : RankSlot) : (s.setRank tn c v).dur = s.dur := rfl
@[simp] theorem State.setRank_mram (s : State) (tn : Nat) (c : Cls) (v : RankSlot) : (s.setRank tn c v).mram = s.mram := rfl
@[simp] theorem State.setRank_durab (s : State) (tn : Nat) (c : Cls) (v : RankSlot) : (s.setRank tn c v).durab = s.durab := rfl
@[simp] theorem State.setRank_nv (s : State) (tn : Nat) (c : Cls) (v : RankSlot) : (s.setRank tn c v).nv = s.nv := rfl
@[simp] theorem State.setRank_keeper (s : State) (tn : Nat) (c : Cls) (v : RankSlot) : (s.setRank tn c v).keeper = s.keeper := rfl
@[simp] theorem State.setRank_power (s : State) (tn : Nat) (c : Cls) (v : RankSlot) : (s.setRank tn c v).power = s.power := rfl
@[simp] theorem State.setRank_dap (s : State) (tn : Nat) (c : Cls) (v : RankSlot) : (s.setRank tn c v).dap = s.dap := rfl
@[simp] theorem State.setRank_wired (s : State) (tn : Nat) (c : Cls) (v : RankSlot) : (s.setRank tn c v).wired = s.wired := rfl
@[simp] theorem State.setRank_queues (s : State) (tn : Nat) (c : Cls) (v : RankSlot) : (s.setRank tn c v).queues = s.queues := rfl
@[simp] theorem State.setRank_xlate (s : State) (tn : Nat) (c : Cls) (v : RankSlot) : (s.setRank tn c v).xlate = s.xlate := rfl
@[simp] theorem State.setRank_ledger (s : State) (tn : Nat) (c : Cls) (v : RankSlot) : (s.setRank tn c v).ledger = s.ledger := rfl
@[simp] theorem State.setRank_portA (s : State) (tn : Nat) (c : Cls) (v : RankSlot) : (s.setRank tn c v).portA = s.portA := rfl
@[simp] theorem State.setRank_portB (s : State) (tn : Nat) (c : Cls) (v : RankSlot) : (s.setRank tn c v).portB = s.portB := rfl
@[simp] theorem State.setRank_conduct (s : State) (tn : Nat) (c : Cls) (v : RankSlot) : (s.setRank tn c v).conduct = s.conduct := rfl
@[simp] theorem State.setRank_auth (s : State) (tn : Nat) (c : Cls) (v : RankSlot) : (s.setRank tn c v).auth = s.auth := rfl
@[simp] theorem State.setRank_scratch (s : State) (tn : Nat) (c : Cls) (v : RankSlot) : (s.setRank tn c v).scratch = s.scratch := rfl
@[simp] theorem State.setRank_hatch (s : State) (tn : Nat) (c : Cls) (v : RankSlot) : (s.setRank tn c v).hatch = s.hatch := rfl
@[simp] theorem State.setRank_sideband (s : State) (tn : Nat) (c : Cls) (v : RankSlot) : (s.setRank tn c v).sideband = s.sideband := rfl
@[simp] theorem State.setRank_image (s : State) (tn : Nat) (c : Cls) (v : RankSlot) : (s.setRank tn c v).image = s.image := rfl

/-! ### State.modQueue -/

@[simp] theorem State.modQueue_now (s : State) (q : Nat) (f : Queue → Queue) : (s.modQueue q f).now = s.now := rfl
@[simp] theorem State.modQueue_free (s : State) (q : Nat) (f : Queue → Queue) : (s.modQueue q f).free = s.free := rfl
@[simp] theorem State.modQueue_pending (s : State) (q : Nat) (f : Queue → Queue) : (s.modQueue q f).pending = s.pending := rfl
@[simp] theorem State.modQueue_out (s : State) (q : Nat) (f : Queue → Queue) : (s.modQueue q f).out = s.out := rfl
@[simp] theorem State.modQueue_held (s : State) (q : Nat) (f : Queue → Queue) : (s.modQueue q f).held = s.held := rfl
@[simp] theorem State.modQueue_mram (s : State) (q : Nat) (f : Queue → Queue) : (s.modQueue q f).mram = s.mram := rfl
@[simp] theorem State.modQueue_durab (s : State) (q : Nat) (f : Queue → Queue) : (s.modQueue q f).durab = s.durab := rfl
@[simp] theorem State.modQueue_nv (s : State) (q : Nat) (f : Queue → Queue) : (s.modQueue q f).nv = s.nv := rfl
@[simp] theorem State.modQueue_keeper (s : State) (q : Nat) (f : Queue → Queue) : (s.modQueue q f).keeper = s.keeper := rfl
@[simp] theorem State.modQueue_power (s : State) (q : Nat) (f : Queue → Queue) : (s.modQueue q f).power = s.power := rfl
@[simp] theorem State.modQueue_dap (s : State) (q : Nat) (f : Queue → Queue) : (s.modQueue q f).dap = s.dap := rfl
@[simp] theorem State.modQueue_fabric (s : State) (q : Nat) (f : Queue → Queue) : (s.modQueue q f).fabric = s.fabric := rfl
@[simp] theorem State.modQueue_wired (s : State) (q : Nat) (f : Queue → Queue) : (s.modQueue q f).wired = s.wired := rfl
@[simp] theorem State.modQueue_queues (s : State) (q : Nat) (f : Queue → Queue) : (s.modQueue q f).queues = s.queues := rfl
@[simp] theorem State.modQueue_xlate (s : State) (q : Nat) (f : Queue → Queue) : (s.modQueue q f).xlate = s.xlate := rfl
@[simp] theorem State.modQueue_ledger (s : State) (q : Nat) (f : Queue → Queue) : (s.modQueue q f).ledger = s.ledger := rfl
@[simp] theorem State.modQueue_portA (s : State) (q : Nat) (f : Queue → Queue) : (s.modQueue q f).portA = s.portA := rfl
@[simp] theorem State.modQueue_portB (s : State) (q : Nat) (f : Queue → Queue) : (s.modQueue q f).portB = s.portB := rfl
@[simp] theorem State.modQueue_conduct (s : State) (q : Nat) (f : Queue → Queue) : (s.modQueue q f).conduct = s.conduct := rfl
@[simp] theorem State.modQueue_auth (s : State) (q : Nat) (f : Queue → Queue) : (s.modQueue q f).auth = s.auth := rfl
@[simp] theorem State.modQueue_scratch (s : State) (q : Nat) (f : Queue → Queue) : (s.modQueue q f).scratch = s.scratch := rfl
@[simp] theorem State.modQueue_hatch (s : State) (q : Nat) (f : Queue → Queue) : (s.modQueue q f).hatch = s.hatch := rfl
@[simp] theorem State.modQueue_sideband (s : State) (q : Nat) (f : Queue → Queue) : (s.modQueue q f).sideband = s.sideband := rfl
@[simp] theorem State.modQueue_image (s : State) (q : Nat) (f : Queue → Queue) : (s.modQueue q f).image = s.image := rfl

/-! ### State.modQVol -/

@[simp] theorem State.modQVol_now (s : State) (q : Nat) (f : QVol → QVol) : (s.modQVol q f).now = s.now := rfl
@[simp] theorem State.modQVol_free (s : State) (q : Nat) (f : QVol → QVol) : (s.modQVol q f).free = s.free := rfl
@[simp] theorem State.modQVol_pending (s : State) (q : Nat) (f : QVol → QVol) : (s.modQVol q f).pending = s.pending := rfl
@[simp] theorem State.modQVol_out (s : State) (q : Nat) (f : QVol → QVol) : (s.modQVol q f).out = s.out := rfl
@[simp] theorem State.modQVol_held (s : State) (q : Nat) (f : QVol → QVol) : (s.modQVol q f).held = s.held := rfl
@[simp] theorem State.modQVol_dur (s : State) (q : Nat) (f : QVol → QVol) : (s.modQVol q f).dur = s.dur := rfl
@[simp] theorem State.modQVol_mram (s : State) (q : Nat) (f : QVol → QVol) : (s.modQVol q f).mram = s.mram := rfl
@[simp] theorem State.modQVol_durab (s : State) (q : Nat) (f : QVol → QVol) : (s.modQVol q f).durab = s.durab := rfl
@[simp] theorem State.modQVol_nv (s : State) (q : Nat) (f : QVol → QVol) : (s.modQVol q f).nv = s.nv := rfl
@[simp] theorem State.modQVol_keeper (s : State) (q : Nat) (f : QVol → QVol) : (s.modQVol q f).keeper = s.keeper := rfl
@[simp] theorem State.modQVol_power (s : State) (q : Nat) (f : QVol → QVol) : (s.modQVol q f).power = s.power := rfl
@[simp] theorem State.modQVol_dap (s : State) (q : Nat) (f : QVol → QVol) : (s.modQVol q f).dap = s.dap := rfl
@[simp] theorem State.modQVol_fabric (s : State) (q : Nat) (f : QVol → QVol) : (s.modQVol q f).fabric = s.fabric := rfl
@[simp] theorem State.modQVol_wired (s : State) (q : Nat) (f : QVol → QVol) : (s.modQVol q f).wired = s.wired := rfl
@[simp] theorem State.modQVol_xlate (s : State) (q : Nat) (f : QVol → QVol) : (s.modQVol q f).xlate = s.xlate := rfl
@[simp] theorem State.modQVol_ledger (s : State) (q : Nat) (f : QVol → QVol) : (s.modQVol q f).ledger = s.ledger := rfl
@[simp] theorem State.modQVol_portA (s : State) (q : Nat) (f : QVol → QVol) : (s.modQVol q f).portA = s.portA := rfl
@[simp] theorem State.modQVol_portB (s : State) (q : Nat) (f : QVol → QVol) : (s.modQVol q f).portB = s.portB := rfl
@[simp] theorem State.modQVol_conduct (s : State) (q : Nat) (f : QVol → QVol) : (s.modQVol q f).conduct = s.conduct := rfl
@[simp] theorem State.modQVol_auth (s : State) (q : Nat) (f : QVol → QVol) : (s.modQVol q f).auth = s.auth := rfl
@[simp] theorem State.modQVol_scratch (s : State) (q : Nat) (f : QVol → QVol) : (s.modQVol q f).scratch = s.scratch := rfl
@[simp] theorem State.modQVol_hatch (s : State) (q : Nat) (f : QVol → QVol) : (s.modQVol q f).hatch = s.hatch := rfl
@[simp] theorem State.modQVol_sideband (s : State) (q : Nat) (f : QVol → QVol) : (s.modQVol q f).sideband = s.sideband := rfl
@[simp] theorem State.modQVol_image (s : State) (q : Nat) (f : QVol → QVol) : (s.modQVol q f).image = s.image := rfl

/-! ### State.modItem -/

@[simp] theorem State.modItem_now (s : State) (q slot : Nat) (f : Item → Item) : (s.modItem q slot f).now = s.now := rfl
@[simp] theorem State.modItem_free (s : State) (q slot : Nat) (f : Item → Item) : (s.modItem q slot f).free = s.free := rfl
@[simp] theorem State.modItem_pending (s : State) (q slot : Nat) (f : Item → Item) : (s.modItem q slot f).pending = s.pending := rfl
@[simp] theorem State.modItem_out (s : State) (q slot : Nat) (f : Item → Item) : (s.modItem q slot f).out = s.out := rfl
@[simp] theorem State.modItem_held (s : State) (q slot : Nat) (f : Item → Item) : (s.modItem q slot f).held = s.held := rfl
@[simp] theorem State.modItem_mram (s : State) (q slot : Nat) (f : Item → Item) : (s.modItem q slot f).mram = s.mram := rfl
@[simp] theorem State.modItem_durab (s : State) (q slot : Nat) (f : Item → Item) : (s.modItem q slot f).durab = s.durab := rfl
@[simp] theorem State.modItem_nv (s : State) (q slot : Nat) (f : Item → Item) : (s.modItem q slot f).nv = s.nv := rfl
@[simp] theorem State.modItem_keeper (s : State) (q slot : Nat) (f : Item → Item) : (s.modItem q slot f).keeper = s.keeper := rfl
@[simp] theorem State.modItem_power (s : State) (q slot : Nat) (f : Item → Item) : (s.modItem q slot f).power = s.power := rfl
@[simp] theorem State.modItem_dap (s : State) (q slot : Nat) (f : Item → Item) : (s.modItem q slot f).dap = s.dap := rfl
@[simp] theorem State.modItem_fabric (s : State) (q slot : Nat) (f : Item → Item) : (s.modItem q slot f).fabric = s.fabric := rfl
@[simp] theorem State.modItem_wired (s : State) (q slot : Nat) (f : Item → Item) : (s.modItem q slot f).wired = s.wired := rfl
@[simp] theorem State.modItem_queues (s : State) (q slot : Nat) (f : Item → Item) : (s.modItem q slot f).queues = s.queues := rfl
@[simp] theorem State.modItem_xlate (s : State) (q slot : Nat) (f : Item → Item) : (s.modItem q slot f).xlate = s.xlate := rfl
@[simp] theorem State.modItem_ledger (s : State) (q slot : Nat) (f : Item → Item) : (s.modItem q slot f).ledger = s.ledger := rfl
@[simp] theorem State.modItem_portA (s : State) (q slot : Nat) (f : Item → Item) : (s.modItem q slot f).portA = s.portA := rfl
@[simp] theorem State.modItem_portB (s : State) (q slot : Nat) (f : Item → Item) : (s.modItem q slot f).portB = s.portB := rfl
@[simp] theorem State.modItem_conduct (s : State) (q slot : Nat) (f : Item → Item) : (s.modItem q slot f).conduct = s.conduct := rfl
@[simp] theorem State.modItem_auth (s : State) (q slot : Nat) (f : Item → Item) : (s.modItem q slot f).auth = s.auth := rfl
@[simp] theorem State.modItem_scratch (s : State) (q slot : Nat) (f : Item → Item) : (s.modItem q slot f).scratch = s.scratch := rfl
@[simp] theorem State.modItem_hatch (s : State) (q slot : Nat) (f : Item → Item) : (s.modItem q slot f).hatch = s.hatch := rfl
@[simp] theorem State.modItem_sideband (s : State) (q slot : Nat) (f : Item → Item) : (s.modItem q slot f).sideband = s.sideband := rfl
@[simp] theorem State.modItem_image (s : State) (q slot : Nat) (f : Item → Item) : (s.modItem q slot f).image = s.image := rfl

/-! ### State.holdEngine -/

@[simp] theorem State.holdEngine_now (s : State) (q slot : Nat) : (s.holdEngine q slot).now = s.now := rfl
@[simp] theorem State.holdEngine_free (s : State) (q slot : Nat) : (s.holdEngine q slot).free = s.free := rfl
@[simp] theorem State.holdEngine_pending (s : State) (q slot : Nat) : (s.holdEngine q slot).pending = s.pending := rfl
@[simp] theorem State.holdEngine_out (s : State) (q slot : Nat) : (s.holdEngine q slot).out = s.out := rfl
@[simp] theorem State.holdEngine_held (s : State) (q slot : Nat) : (s.holdEngine q slot).held = s.held := rfl
@[simp] theorem State.holdEngine_dur (s : State) (q slot : Nat) : (s.holdEngine q slot).dur = s.dur := rfl
@[simp] theorem State.holdEngine_mram (s : State) (q slot : Nat) : (s.holdEngine q slot).mram = s.mram := rfl
@[simp] theorem State.holdEngine_durab (s : State) (q slot : Nat) : (s.holdEngine q slot).durab = s.durab := rfl
@[simp] theorem State.holdEngine_nv (s : State) (q slot : Nat) : (s.holdEngine q slot).nv = s.nv := rfl
@[simp] theorem State.holdEngine_keeper (s : State) (q slot : Nat) : (s.holdEngine q slot).keeper = s.keeper := rfl
@[simp] theorem State.holdEngine_power (s : State) (q slot : Nat) : (s.holdEngine q slot).power = s.power := rfl
@[simp] theorem State.holdEngine_dap (s : State) (q slot : Nat) : (s.holdEngine q slot).dap = s.dap := rfl
@[simp] theorem State.holdEngine_fabric (s : State) (q slot : Nat) : (s.holdEngine q slot).fabric = s.fabric := rfl
@[simp] theorem State.holdEngine_wired (s : State) (q slot : Nat) : (s.holdEngine q slot).wired = s.wired := rfl
@[simp] theorem State.holdEngine_xlate (s : State) (q slot : Nat) : (s.holdEngine q slot).xlate = s.xlate := rfl
@[simp] theorem State.holdEngine_ledger (s : State) (q slot : Nat) : (s.holdEngine q slot).ledger = s.ledger := rfl
@[simp] theorem State.holdEngine_portA (s : State) (q slot : Nat) : (s.holdEngine q slot).portA = s.portA := rfl
@[simp] theorem State.holdEngine_portB (s : State) (q slot : Nat) : (s.holdEngine q slot).portB = s.portB := rfl
@[simp] theorem State.holdEngine_conduct (s : State) (q slot : Nat) : (s.holdEngine q slot).conduct = s.conduct := rfl
@[simp] theorem State.holdEngine_auth (s : State) (q slot : Nat) : (s.holdEngine q slot).auth = s.auth := rfl
@[simp] theorem State.holdEngine_scratch (s : State) (q slot : Nat) : (s.holdEngine q slot).scratch = s.scratch := rfl
@[simp] theorem State.holdEngine_hatch (s : State) (q slot : Nat) : (s.holdEngine q slot).hatch = s.hatch := rfl
@[simp] theorem State.holdEngine_sideband (s : State) (q slot : Nat) : (s.holdEngine q slot).sideband = s.sideband := rfl
@[simp] theorem State.holdEngine_image (s : State) (q slot : Nat) : (s.holdEngine q slot).image = s.image := rfl

/-! ### State.freeEngine -/

@[simp] theorem State.freeEngine_now (s : State) (i : Nat) : (s.freeEngine i).now = s.now := rfl
@[simp] theorem State.freeEngine_free (s : State) (i : Nat) : (s.freeEngine i).free = s.free := rfl
@[simp] theorem State.freeEngine_pending (s : State) (i : Nat) : (s.freeEngine i).pending = s.pending := rfl
@[simp] theorem State.freeEngine_out (s : State) (i : Nat) : (s.freeEngine i).out = s.out := rfl
@[simp] theorem State.freeEngine_held (s : State) (i : Nat) : (s.freeEngine i).held = s.held := rfl
@[simp] theorem State.freeEngine_dur (s : State) (i : Nat) : (s.freeEngine i).dur = s.dur := rfl
@[simp] theorem State.freeEngine_mram (s : State) (i : Nat) : (s.freeEngine i).mram = s.mram := rfl
@[simp] theorem State.freeEngine_durab (s : State) (i : Nat) : (s.freeEngine i).durab = s.durab := rfl
@[simp] theorem State.freeEngine_nv (s : State) (i : Nat) : (s.freeEngine i).nv = s.nv := rfl
@[simp] theorem State.freeEngine_keeper (s : State) (i : Nat) : (s.freeEngine i).keeper = s.keeper := rfl
@[simp] theorem State.freeEngine_power (s : State) (i : Nat) : (s.freeEngine i).power = s.power := rfl
@[simp] theorem State.freeEngine_dap (s : State) (i : Nat) : (s.freeEngine i).dap = s.dap := rfl
@[simp] theorem State.freeEngine_fabric (s : State) (i : Nat) : (s.freeEngine i).fabric = s.fabric := rfl
@[simp] theorem State.freeEngine_wired (s : State) (i : Nat) : (s.freeEngine i).wired = s.wired := rfl
@[simp] theorem State.freeEngine_xlate (s : State) (i : Nat) : (s.freeEngine i).xlate = s.xlate := rfl
@[simp] theorem State.freeEngine_ledger (s : State) (i : Nat) : (s.freeEngine i).ledger = s.ledger := rfl
@[simp] theorem State.freeEngine_portA (s : State) (i : Nat) : (s.freeEngine i).portA = s.portA := rfl
@[simp] theorem State.freeEngine_portB (s : State) (i : Nat) : (s.freeEngine i).portB = s.portB := rfl
@[simp] theorem State.freeEngine_conduct (s : State) (i : Nat) : (s.freeEngine i).conduct = s.conduct := rfl
@[simp] theorem State.freeEngine_auth (s : State) (i : Nat) : (s.freeEngine i).auth = s.auth := rfl
@[simp] theorem State.freeEngine_scratch (s : State) (i : Nat) : (s.freeEngine i).scratch = s.scratch := rfl
@[simp] theorem State.freeEngine_hatch (s : State) (i : Nat) : (s.freeEngine i).hatch = s.hatch := rfl
@[simp] theorem State.freeEngine_sideband (s : State) (i : Nat) : (s.freeEngine i).sideband = s.sideband := rfl
@[simp] theorem State.freeEngine_image (s : State) (i : Nat) : (s.freeEngine i).image = s.image := rfl

/-! ### State.modXIsland -/

@[simp] theorem State.modXIsland_now (s : State) (i : Nat) (f : XIsland → XIsland) : (s.modXIsland i f).now = s.now := rfl
@[simp] theorem State.modXIsland_free (s : State) (i : Nat) (f : XIsland → XIsland) : (s.modXIsland i f).free = s.free := rfl
@[simp] theorem State.modXIsland_pending (s : State) (i : Nat) (f : XIsland → XIsland) : (s.modXIsland i f).pending = s.pending := rfl
@[simp] theorem State.modXIsland_out (s : State) (i : Nat) (f : XIsland → XIsland) : (s.modXIsland i f).out = s.out := rfl
@[simp] theorem State.modXIsland_held (s : State) (i : Nat) (f : XIsland → XIsland) : (s.modXIsland i f).held = s.held := rfl
@[simp] theorem State.modXIsland_dur (s : State) (i : Nat) (f : XIsland → XIsland) : (s.modXIsland i f).dur = s.dur := rfl
@[simp] theorem State.modXIsland_mram (s : State) (i : Nat) (f : XIsland → XIsland) : (s.modXIsland i f).mram = s.mram := rfl
@[simp] theorem State.modXIsland_durab (s : State) (i : Nat) (f : XIsland → XIsland) : (s.modXIsland i f).durab = s.durab := rfl
@[simp] theorem State.modXIsland_nv (s : State) (i : Nat) (f : XIsland → XIsland) : (s.modXIsland i f).nv = s.nv := rfl
@[simp] theorem State.modXIsland_keeper (s : State) (i : Nat) (f : XIsland → XIsland) : (s.modXIsland i f).keeper = s.keeper := rfl
@[simp] theorem State.modXIsland_power (s : State) (i : Nat) (f : XIsland → XIsland) : (s.modXIsland i f).power = s.power := rfl
@[simp] theorem State.modXIsland_dap (s : State) (i : Nat) (f : XIsland → XIsland) : (s.modXIsland i f).dap = s.dap := rfl
@[simp] theorem State.modXIsland_fabric (s : State) (i : Nat) (f : XIsland → XIsland) : (s.modXIsland i f).fabric = s.fabric := rfl
@[simp] theorem State.modXIsland_wired (s : State) (i : Nat) (f : XIsland → XIsland) : (s.modXIsland i f).wired = s.wired := rfl
@[simp] theorem State.modXIsland_queues (s : State) (i : Nat) (f : XIsland → XIsland) : (s.modXIsland i f).queues = s.queues := rfl
@[simp] theorem State.modXIsland_ledger (s : State) (i : Nat) (f : XIsland → XIsland) : (s.modXIsland i f).ledger = s.ledger := rfl
@[simp] theorem State.modXIsland_portA (s : State) (i : Nat) (f : XIsland → XIsland) : (s.modXIsland i f).portA = s.portA := rfl
@[simp] theorem State.modXIsland_portB (s : State) (i : Nat) (f : XIsland → XIsland) : (s.modXIsland i f).portB = s.portB := rfl
@[simp] theorem State.modXIsland_conduct (s : State) (i : Nat) (f : XIsland → XIsland) : (s.modXIsland i f).conduct = s.conduct := rfl
@[simp] theorem State.modXIsland_auth (s : State) (i : Nat) (f : XIsland → XIsland) : (s.modXIsland i f).auth = s.auth := rfl
@[simp] theorem State.modXIsland_scratch (s : State) (i : Nat) (f : XIsland → XIsland) : (s.modXIsland i f).scratch = s.scratch := rfl
@[simp] theorem State.modXIsland_hatch (s : State) (i : Nat) (f : XIsland → XIsland) : (s.modXIsland i f).hatch = s.hatch := rfl
@[simp] theorem State.modXIsland_sideband (s : State) (i : Nat) (f : XIsland → XIsland) : (s.modXIsland i f).sideband = s.sideband := rfl
@[simp] theorem State.modXIsland_image (s : State) (i : Nat) (f : XIsland → XIsland) : (s.modXIsland i f).image = s.image := rfl

/-! ### State.modLane -/

@[simp] theorem State.modLane_now (s : State) (n : Nat) (f : Lane → Lane) : (s.modLane n f).now = s.now := rfl
@[simp] theorem State.modLane_free (s : State) (n : Nat) (f : Lane → Lane) : (s.modLane n f).free = s.free := rfl
@[simp] theorem State.modLane_pending (s : State) (n : Nat) (f : Lane → Lane) : (s.modLane n f).pending = s.pending := rfl
@[simp] theorem State.modLane_out (s : State) (n : Nat) (f : Lane → Lane) : (s.modLane n f).out = s.out := rfl
@[simp] theorem State.modLane_held (s : State) (n : Nat) (f : Lane → Lane) : (s.modLane n f).held = s.held := rfl
@[simp] theorem State.modLane_dur (s : State) (n : Nat) (f : Lane → Lane) : (s.modLane n f).dur = s.dur := rfl
@[simp] theorem State.modLane_mram (s : State) (n : Nat) (f : Lane → Lane) : (s.modLane n f).mram = s.mram := rfl
@[simp] theorem State.modLane_durab (s : State) (n : Nat) (f : Lane → Lane) : (s.modLane n f).durab = s.durab := rfl
@[simp] theorem State.modLane_nv (s : State) (n : Nat) (f : Lane → Lane) : (s.modLane n f).nv = s.nv := rfl
@[simp] theorem State.modLane_keeper (s : State) (n : Nat) (f : Lane → Lane) : (s.modLane n f).keeper = s.keeper := rfl
@[simp] theorem State.modLane_power (s : State) (n : Nat) (f : Lane → Lane) : (s.modLane n f).power = s.power := rfl
@[simp] theorem State.modLane_dap (s : State) (n : Nat) (f : Lane → Lane) : (s.modLane n f).dap = s.dap := rfl
@[simp] theorem State.modLane_fabric (s : State) (n : Nat) (f : Lane → Lane) : (s.modLane n f).fabric = s.fabric := rfl
@[simp] theorem State.modLane_queues (s : State) (n : Nat) (f : Lane → Lane) : (s.modLane n f).queues = s.queues := rfl
@[simp] theorem State.modLane_xlate (s : State) (n : Nat) (f : Lane → Lane) : (s.modLane n f).xlate = s.xlate := rfl
@[simp] theorem State.modLane_ledger (s : State) (n : Nat) (f : Lane → Lane) : (s.modLane n f).ledger = s.ledger := rfl
@[simp] theorem State.modLane_portA (s : State) (n : Nat) (f : Lane → Lane) : (s.modLane n f).portA = s.portA := rfl
@[simp] theorem State.modLane_portB (s : State) (n : Nat) (f : Lane → Lane) : (s.modLane n f).portB = s.portB := rfl
@[simp] theorem State.modLane_conduct (s : State) (n : Nat) (f : Lane → Lane) : (s.modLane n f).conduct = s.conduct := rfl
@[simp] theorem State.modLane_auth (s : State) (n : Nat) (f : Lane → Lane) : (s.modLane n f).auth = s.auth := rfl
@[simp] theorem State.modLane_scratch (s : State) (n : Nat) (f : Lane → Lane) : (s.modLane n f).scratch = s.scratch := rfl
@[simp] theorem State.modLane_hatch (s : State) (n : Nat) (f : Lane → Lane) : (s.modLane n f).hatch = s.hatch := rfl
@[simp] theorem State.modLane_sideband (s : State) (n : Nat) (f : Lane → Lane) : (s.modLane n f).sideband = s.sideband := rfl
@[simp] theorem State.modLane_image (s : State) (n : Nat) (f : Lane → Lane) : (s.modLane n f).image = s.image := rfl

/-! ### State.restartFilter -/

@[simp] theorem State.restartFilter_now (s : State) (p : Nat) : (s.restartFilter p).now = s.now := rfl
@[simp] theorem State.restartFilter_free (s : State) (p : Nat) : (s.restartFilter p).free = s.free := rfl
@[simp] theorem State.restartFilter_pending (s : State) (p : Nat) : (s.restartFilter p).pending = s.pending := rfl
@[simp] theorem State.restartFilter_out (s : State) (p : Nat) : (s.restartFilter p).out = s.out := rfl
@[simp] theorem State.restartFilter_held (s : State) (p : Nat) : (s.restartFilter p).held = s.held := rfl
@[simp] theorem State.restartFilter_dur (s : State) (p : Nat) : (s.restartFilter p).dur = s.dur := rfl
@[simp] theorem State.restartFilter_mram (s : State) (p : Nat) : (s.restartFilter p).mram = s.mram := rfl
@[simp] theorem State.restartFilter_durab (s : State) (p : Nat) : (s.restartFilter p).durab = s.durab := rfl
@[simp] theorem State.restartFilter_nv (s : State) (p : Nat) : (s.restartFilter p).nv = s.nv := rfl
@[simp] theorem State.restartFilter_keeper (s : State) (p : Nat) : (s.restartFilter p).keeper = s.keeper := rfl
@[simp] theorem State.restartFilter_power (s : State) (p : Nat) : (s.restartFilter p).power = s.power := rfl
@[simp] theorem State.restartFilter_dap (s : State) (p : Nat) : (s.restartFilter p).dap = s.dap := rfl
@[simp] theorem State.restartFilter_fabric (s : State) (p : Nat) : (s.restartFilter p).fabric = s.fabric := rfl
@[simp] theorem State.restartFilter_queues (s : State) (p : Nat) : (s.restartFilter p).queues = s.queues := rfl
@[simp] theorem State.restartFilter_xlate (s : State) (p : Nat) : (s.restartFilter p).xlate = s.xlate := rfl
@[simp] theorem State.restartFilter_ledger (s : State) (p : Nat) : (s.restartFilter p).ledger = s.ledger := rfl
@[simp] theorem State.restartFilter_portA (s : State) (p : Nat) : (s.restartFilter p).portA = s.portA := rfl
@[simp] theorem State.restartFilter_portB (s : State) (p : Nat) : (s.restartFilter p).portB = s.portB := rfl
@[simp] theorem State.restartFilter_conduct (s : State) (p : Nat) : (s.restartFilter p).conduct = s.conduct := rfl
@[simp] theorem State.restartFilter_auth (s : State) (p : Nat) : (s.restartFilter p).auth = s.auth := rfl
@[simp] theorem State.restartFilter_scratch (s : State) (p : Nat) : (s.restartFilter p).scratch = s.scratch := rfl
@[simp] theorem State.restartFilter_hatch (s : State) (p : Nat) : (s.restartFilter p).hatch = s.hatch := rfl
@[simp] theorem State.restartFilter_sideband (s : State) (p : Nat) : (s.restartFilter p).sideband = s.sideband := rfl
@[simp] theorem State.restartFilter_image (s : State) (p : Nat) : (s.restartFilter p).image = s.image := rfl

/-! ### State.arrive -/

@[simp] theorem State.arrive_now (s : State) (g : Nat) (x : Sent Event) : (s.arrive g x).now = s.now := rfl
@[simp] theorem State.arrive_free (s : State) (g : Nat) (x : Sent Event) : (s.arrive g x).free = s.free := rfl
@[simp] theorem State.arrive_pending (s : State) (g : Nat) (x : Sent Event) : (s.arrive g x).pending = s.pending := rfl
@[simp] theorem State.arrive_out (s : State) (g : Nat) (x : Sent Event) : (s.arrive g x).out = s.out := rfl
@[simp] theorem State.arrive_held (s : State) (g : Nat) (x : Sent Event) : (s.arrive g x).held = s.held := rfl
@[simp] theorem State.arrive_dur (s : State) (g : Nat) (x : Sent Event) : (s.arrive g x).dur = s.dur := rfl
@[simp] theorem State.arrive_mram (s : State) (g : Nat) (x : Sent Event) : (s.arrive g x).mram = s.mram := rfl
@[simp] theorem State.arrive_durab (s : State) (g : Nat) (x : Sent Event) : (s.arrive g x).durab = s.durab := rfl
@[simp] theorem State.arrive_nv (s : State) (g : Nat) (x : Sent Event) : (s.arrive g x).nv = s.nv := rfl
@[simp] theorem State.arrive_keeper (s : State) (g : Nat) (x : Sent Event) : (s.arrive g x).keeper = s.keeper := rfl
@[simp] theorem State.arrive_power (s : State) (g : Nat) (x : Sent Event) : (s.arrive g x).power = s.power := rfl
@[simp] theorem State.arrive_dap (s : State) (g : Nat) (x : Sent Event) : (s.arrive g x).dap = s.dap := rfl
@[simp] theorem State.arrive_wired (s : State) (g : Nat) (x : Sent Event) : (s.arrive g x).wired = s.wired := rfl
@[simp] theorem State.arrive_queues (s : State) (g : Nat) (x : Sent Event) : (s.arrive g x).queues = s.queues := rfl
@[simp] theorem State.arrive_xlate (s : State) (g : Nat) (x : Sent Event) : (s.arrive g x).xlate = s.xlate := rfl
@[simp] theorem State.arrive_ledger (s : State) (g : Nat) (x : Sent Event) : (s.arrive g x).ledger = s.ledger := rfl
@[simp] theorem State.arrive_portA (s : State) (g : Nat) (x : Sent Event) : (s.arrive g x).portA = s.portA := rfl
@[simp] theorem State.arrive_portB (s : State) (g : Nat) (x : Sent Event) : (s.arrive g x).portB = s.portB := rfl
@[simp] theorem State.arrive_conduct (s : State) (g : Nat) (x : Sent Event) : (s.arrive g x).conduct = s.conduct := rfl
@[simp] theorem State.arrive_auth (s : State) (g : Nat) (x : Sent Event) : (s.arrive g x).auth = s.auth := rfl
@[simp] theorem State.arrive_scratch (s : State) (g : Nat) (x : Sent Event) : (s.arrive g x).scratch = s.scratch := rfl
@[simp] theorem State.arrive_hatch (s : State) (g : Nat) (x : Sent Event) : (s.arrive g x).hatch = s.hatch := rfl
@[simp] theorem State.arrive_sideband (s : State) (g : Nat) (x : Sent Event) : (s.arrive g x).sideband = s.sideband := rfl
@[simp] theorem State.arrive_image (s : State) (g : Nat) (x : Sent Event) : (s.arrive g x).image = s.image := rfl

/-! ### State.enqueue -/

@[simp] theorem State.enqueue_now (s : State) (g : Nat) (e : Event) : (s.enqueue g e).now = s.now := rfl
@[simp] theorem State.enqueue_free (s : State) (g : Nat) (e : Event) : (s.enqueue g e).free = s.free := rfl
@[simp] theorem State.enqueue_pending (s : State) (g : Nat) (e : Event) : (s.enqueue g e).pending = s.pending := rfl
@[simp] theorem State.enqueue_out (s : State) (g : Nat) (e : Event) : (s.enqueue g e).out = s.out := rfl
@[simp] theorem State.enqueue_held (s : State) (g : Nat) (e : Event) : (s.enqueue g e).held = s.held := rfl
@[simp] theorem State.enqueue_dur (s : State) (g : Nat) (e : Event) : (s.enqueue g e).dur = s.dur := rfl
@[simp] theorem State.enqueue_mram (s : State) (g : Nat) (e : Event) : (s.enqueue g e).mram = s.mram := rfl
@[simp] theorem State.enqueue_durab (s : State) (g : Nat) (e : Event) : (s.enqueue g e).durab = s.durab := rfl
@[simp] theorem State.enqueue_nv (s : State) (g : Nat) (e : Event) : (s.enqueue g e).nv = s.nv := rfl
@[simp] theorem State.enqueue_keeper (s : State) (g : Nat) (e : Event) : (s.enqueue g e).keeper = s.keeper := rfl
@[simp] theorem State.enqueue_power (s : State) (g : Nat) (e : Event) : (s.enqueue g e).power = s.power := rfl
@[simp] theorem State.enqueue_dap (s : State) (g : Nat) (e : Event) : (s.enqueue g e).dap = s.dap := rfl
@[simp] theorem State.enqueue_wired (s : State) (g : Nat) (e : Event) : (s.enqueue g e).wired = s.wired := rfl
@[simp] theorem State.enqueue_queues (s : State) (g : Nat) (e : Event) : (s.enqueue g e).queues = s.queues := rfl
@[simp] theorem State.enqueue_xlate (s : State) (g : Nat) (e : Event) : (s.enqueue g e).xlate = s.xlate := rfl
@[simp] theorem State.enqueue_ledger (s : State) (g : Nat) (e : Event) : (s.enqueue g e).ledger = s.ledger := rfl
@[simp] theorem State.enqueue_portA (s : State) (g : Nat) (e : Event) : (s.enqueue g e).portA = s.portA := rfl
@[simp] theorem State.enqueue_portB (s : State) (g : Nat) (e : Event) : (s.enqueue g e).portB = s.portB := rfl
@[simp] theorem State.enqueue_conduct (s : State) (g : Nat) (e : Event) : (s.enqueue g e).conduct = s.conduct := rfl
@[simp] theorem State.enqueue_auth (s : State) (g : Nat) (e : Event) : (s.enqueue g e).auth = s.auth := rfl
@[simp] theorem State.enqueue_scratch (s : State) (g : Nat) (e : Event) : (s.enqueue g e).scratch = s.scratch := rfl
@[simp] theorem State.enqueue_hatch (s : State) (g : Nat) (e : Event) : (s.enqueue g e).hatch = s.hatch := rfl
@[simp] theorem State.enqueue_sideband (s : State) (g : Nat) (e : Event) : (s.enqueue g e).sideband = s.sideband := rfl
@[simp] theorem State.enqueue_image (s : State) (g : Nat) (e : Event) : (s.enqueue g e).image = s.image := rfl

/-! ### State.submit -/

@[simp] theorem State.submit_now (s : State) (i g : Nat) (e : Event) : (s.submit i g e).now = s.now := by unfold State.submit; split <;> rfl
@[simp] theorem State.submit_free (s : State) (i g : Nat) (e : Event) : (s.submit i g e).free = s.free := by unfold State.submit; split <;> rfl
@[simp] theorem State.submit_pending (s : State) (i g : Nat) (e : Event) : (s.submit i g e).pending = s.pending := by unfold State.submit; split <;> rfl
@[simp] theorem State.submit_out (s : State) (i g : Nat) (e : Event) : (s.submit i g e).out = s.out := by unfold State.submit; split <;> rfl
@[simp] theorem State.submit_held (s : State) (i g : Nat) (e : Event) : (s.submit i g e).held = s.held := by unfold State.submit; split <;> rfl
@[simp] theorem State.submit_dur (s : State) (i g : Nat) (e : Event) : (s.submit i g e).dur = s.dur := by unfold State.submit; split <;> rfl
@[simp] theorem State.submit_mram (s : State) (i g : Nat) (e : Event) : (s.submit i g e).mram = s.mram := by unfold State.submit; split <;> rfl
@[simp] theorem State.submit_durab (s : State) (i g : Nat) (e : Event) : (s.submit i g e).durab = s.durab := by unfold State.submit; split <;> rfl
@[simp] theorem State.submit_nv (s : State) (i g : Nat) (e : Event) : (s.submit i g e).nv = s.nv := by unfold State.submit; split <;> rfl
@[simp] theorem State.submit_keeper (s : State) (i g : Nat) (e : Event) : (s.submit i g e).keeper = s.keeper := by unfold State.submit; split <;> rfl
@[simp] theorem State.submit_power (s : State) (i g : Nat) (e : Event) : (s.submit i g e).power = s.power := by unfold State.submit; split <;> rfl
@[simp] theorem State.submit_dap (s : State) (i g : Nat) (e : Event) : (s.submit i g e).dap = s.dap := by unfold State.submit; split <;> rfl
@[simp] theorem State.submit_wired (s : State) (i g : Nat) (e : Event) : (s.submit i g e).wired = s.wired := by unfold State.submit; split <;> rfl
@[simp] theorem State.submit_queues (s : State) (i g : Nat) (e : Event) : (s.submit i g e).queues = s.queues := by unfold State.submit; split <;> rfl
@[simp] theorem State.submit_xlate (s : State) (i g : Nat) (e : Event) : (s.submit i g e).xlate = s.xlate := by unfold State.submit; split <;> rfl
@[simp] theorem State.submit_ledger (s : State) (i g : Nat) (e : Event) : (s.submit i g e).ledger = s.ledger := by unfold State.submit; split <;> rfl
@[simp] theorem State.submit_portA (s : State) (i g : Nat) (e : Event) : (s.submit i g e).portA = s.portA := by unfold State.submit; split <;> rfl
@[simp] theorem State.submit_portB (s : State) (i g : Nat) (e : Event) : (s.submit i g e).portB = s.portB := by unfold State.submit; split <;> rfl
@[simp] theorem State.submit_conduct (s : State) (i g : Nat) (e : Event) : (s.submit i g e).conduct = s.conduct := by unfold State.submit; split <;> rfl
@[simp] theorem State.submit_auth (s : State) (i g : Nat) (e : Event) : (s.submit i g e).auth = s.auth := by unfold State.submit; split <;> rfl
@[simp] theorem State.submit_scratch (s : State) (i g : Nat) (e : Event) : (s.submit i g e).scratch = s.scratch := by unfold State.submit; split <;> rfl
@[simp] theorem State.submit_hatch (s : State) (i g : Nat) (e : Event) : (s.submit i g e).hatch = s.hatch := by unfold State.submit; split <;> rfl
@[simp] theorem State.submit_sideband (s : State) (i g : Nat) (e : Event) : (s.submit i g e).sideband = s.sideband := by unfold State.submit; split <;> rfl
@[simp] theorem State.submit_image (s : State) (i g : Nat) (e : Event) : (s.submit i g e).image = s.image := by unfold State.submit; split <;> rfl

/-! ### State.submitNext -/

@[simp] theorem State.submitNext_now (s : State) (i g : Nat) : (s.submitNext i g).now = s.now := by unfold State.submitNext; split <;> rfl
@[simp] theorem State.submitNext_free (s : State) (i g : Nat) : (s.submitNext i g).free = s.free := by unfold State.submitNext; split <;> rfl
@[simp] theorem State.submitNext_pending (s : State) (i g : Nat) : (s.submitNext i g).pending = s.pending := by unfold State.submitNext; split <;> rfl
@[simp] theorem State.submitNext_out (s : State) (i g : Nat) : (s.submitNext i g).out = s.out := by unfold State.submitNext; split <;> rfl
@[simp] theorem State.submitNext_held (s : State) (i g : Nat) : (s.submitNext i g).held = s.held := by unfold State.submitNext; split <;> rfl
@[simp] theorem State.submitNext_dur (s : State) (i g : Nat) : (s.submitNext i g).dur = s.dur := by unfold State.submitNext; split <;> rfl
@[simp] theorem State.submitNext_mram (s : State) (i g : Nat) : (s.submitNext i g).mram = s.mram := by unfold State.submitNext; split <;> rfl
@[simp] theorem State.submitNext_durab (s : State) (i g : Nat) : (s.submitNext i g).durab = s.durab := by unfold State.submitNext; split <;> rfl
@[simp] theorem State.submitNext_nv (s : State) (i g : Nat) : (s.submitNext i g).nv = s.nv := by unfold State.submitNext; split <;> rfl
@[simp] theorem State.submitNext_keeper (s : State) (i g : Nat) : (s.submitNext i g).keeper = s.keeper := by unfold State.submitNext; split <;> rfl
@[simp] theorem State.submitNext_power (s : State) (i g : Nat) : (s.submitNext i g).power = s.power := by unfold State.submitNext; split <;> rfl
@[simp] theorem State.submitNext_dap (s : State) (i g : Nat) : (s.submitNext i g).dap = s.dap := by unfold State.submitNext; split <;> rfl
@[simp] theorem State.submitNext_wired (s : State) (i g : Nat) : (s.submitNext i g).wired = s.wired := by unfold State.submitNext; split <;> rfl
@[simp] theorem State.submitNext_queues (s : State) (i g : Nat) : (s.submitNext i g).queues = s.queues := by unfold State.submitNext; split <;> rfl
@[simp] theorem State.submitNext_xlate (s : State) (i g : Nat) : (s.submitNext i g).xlate = s.xlate := by unfold State.submitNext; split <;> rfl
@[simp] theorem State.submitNext_ledger (s : State) (i g : Nat) : (s.submitNext i g).ledger = s.ledger := by unfold State.submitNext; split <;> rfl
@[simp] theorem State.submitNext_portA (s : State) (i g : Nat) : (s.submitNext i g).portA = s.portA := by unfold State.submitNext; split <;> rfl
@[simp] theorem State.submitNext_portB (s : State) (i g : Nat) : (s.submitNext i g).portB = s.portB := by unfold State.submitNext; split <;> rfl
@[simp] theorem State.submitNext_conduct (s : State) (i g : Nat) : (s.submitNext i g).conduct = s.conduct := by unfold State.submitNext; split <;> rfl
@[simp] theorem State.submitNext_auth (s : State) (i g : Nat) : (s.submitNext i g).auth = s.auth := by unfold State.submitNext; split <;> rfl
@[simp] theorem State.submitNext_scratch (s : State) (i g : Nat) : (s.submitNext i g).scratch = s.scratch := by unfold State.submitNext; split <;> rfl
@[simp] theorem State.submitNext_hatch (s : State) (i g : Nat) : (s.submitNext i g).hatch = s.hatch := by unfold State.submitNext; split <;> rfl
@[simp] theorem State.submitNext_sideband (s : State) (i g : Nat) : (s.submitNext i g).sideband = s.sideband := by unfold State.submitNext; split <;> rfl
@[simp] theorem State.submitNext_image (s : State) (i g : Nat) : (s.submitNext i g).image = s.image := by unfold State.submitNext; split <;> rfl

/-! ### State.raiseFrom -/

@[simp] theorem State.raiseFrom_now (s : State) (i sn : Nat) : (s.raiseFrom i sn).now = s.now := by simp [State.raiseFrom]
@[simp] theorem State.raiseFrom_free (s : State) (i sn : Nat) : (s.raiseFrom i sn).free = s.free := by simp [State.raiseFrom]
@[simp] theorem State.raiseFrom_pending (s : State) (i sn : Nat) : (s.raiseFrom i sn).pending = s.pending := by simp [State.raiseFrom]
@[simp] theorem State.raiseFrom_out (s : State) (i sn : Nat) : (s.raiseFrom i sn).out = s.out := by simp [State.raiseFrom]
@[simp] theorem State.raiseFrom_held (s : State) (i sn : Nat) : (s.raiseFrom i sn).held = s.held := by simp [State.raiseFrom]
@[simp] theorem State.raiseFrom_dur (s : State) (i sn : Nat) : (s.raiseFrom i sn).dur = s.dur := by simp [State.raiseFrom]
@[simp] theorem State.raiseFrom_mram (s : State) (i sn : Nat) : (s.raiseFrom i sn).mram = s.mram := by simp [State.raiseFrom]
@[simp] theorem State.raiseFrom_durab (s : State) (i sn : Nat) : (s.raiseFrom i sn).durab = s.durab := by simp [State.raiseFrom]
@[simp] theorem State.raiseFrom_nv (s : State) (i sn : Nat) : (s.raiseFrom i sn).nv = s.nv := by simp [State.raiseFrom]
@[simp] theorem State.raiseFrom_keeper (s : State) (i sn : Nat) : (s.raiseFrom i sn).keeper = s.keeper := by simp [State.raiseFrom]
@[simp] theorem State.raiseFrom_power (s : State) (i sn : Nat) : (s.raiseFrom i sn).power = s.power := by simp [State.raiseFrom]
@[simp] theorem State.raiseFrom_dap (s : State) (i sn : Nat) : (s.raiseFrom i sn).dap = s.dap := by simp [State.raiseFrom]
@[simp] theorem State.raiseFrom_wired (s : State) (i sn : Nat) : (s.raiseFrom i sn).wired = s.wired := by simp [State.raiseFrom]
@[simp] theorem State.raiseFrom_queues (s : State) (i sn : Nat) : (s.raiseFrom i sn).queues = s.queues := by simp [State.raiseFrom]
@[simp] theorem State.raiseFrom_xlate (s : State) (i sn : Nat) : (s.raiseFrom i sn).xlate = s.xlate := by simp [State.raiseFrom]
@[simp] theorem State.raiseFrom_ledger (s : State) (i sn : Nat) : (s.raiseFrom i sn).ledger = s.ledger := by simp [State.raiseFrom]
@[simp] theorem State.raiseFrom_portA (s : State) (i sn : Nat) : (s.raiseFrom i sn).portA = s.portA := by simp [State.raiseFrom]
@[simp] theorem State.raiseFrom_portB (s : State) (i sn : Nat) : (s.raiseFrom i sn).portB = s.portB := by simp [State.raiseFrom]
@[simp] theorem State.raiseFrom_conduct (s : State) (i sn : Nat) : (s.raiseFrom i sn).conduct = s.conduct := by simp [State.raiseFrom]
@[simp] theorem State.raiseFrom_auth (s : State) (i sn : Nat) : (s.raiseFrom i sn).auth = s.auth := by simp [State.raiseFrom]
@[simp] theorem State.raiseFrom_scratch (s : State) (i sn : Nat) : (s.raiseFrom i sn).scratch = s.scratch := by simp [State.raiseFrom]
@[simp] theorem State.raiseFrom_hatch (s : State) (i sn : Nat) : (s.raiseFrom i sn).hatch = s.hatch := by simp [State.raiseFrom]
@[simp] theorem State.raiseFrom_sideband (s : State) (i sn : Nat) : (s.raiseFrom i sn).sideband = s.sideband := by simp [State.raiseFrom]
@[simp] theorem State.raiseFrom_image (s : State) (i sn : Nat) : (s.raiseFrom i sn).image = s.image := by simp [State.raiseFrom]

/-! ### State.raise -/

@[simp] theorem State.raise_now (s : State) (sn : Nat) : (s.raise sn).now = s.now := by simp [State.raise]
@[simp] theorem State.raise_free (s : State) (sn : Nat) : (s.raise sn).free = s.free := by simp [State.raise]
@[simp] theorem State.raise_pending (s : State) (sn : Nat) : (s.raise sn).pending = s.pending := by simp [State.raise]
@[simp] theorem State.raise_out (s : State) (sn : Nat) : (s.raise sn).out = s.out := by simp [State.raise]
@[simp] theorem State.raise_held (s : State) (sn : Nat) : (s.raise sn).held = s.held := by simp [State.raise]
@[simp] theorem State.raise_dur (s : State) (sn : Nat) : (s.raise sn).dur = s.dur := by simp [State.raise]
@[simp] theorem State.raise_mram (s : State) (sn : Nat) : (s.raise sn).mram = s.mram := by simp [State.raise]
@[simp] theorem State.raise_durab (s : State) (sn : Nat) : (s.raise sn).durab = s.durab := by simp [State.raise]
@[simp] theorem State.raise_nv (s : State) (sn : Nat) : (s.raise sn).nv = s.nv := by simp [State.raise]
@[simp] theorem State.raise_keeper (s : State) (sn : Nat) : (s.raise sn).keeper = s.keeper := by simp [State.raise]
@[simp] theorem State.raise_power (s : State) (sn : Nat) : (s.raise sn).power = s.power := by simp [State.raise]
@[simp] theorem State.raise_dap (s : State) (sn : Nat) : (s.raise sn).dap = s.dap := by simp [State.raise]
@[simp] theorem State.raise_wired (s : State) (sn : Nat) : (s.raise sn).wired = s.wired := by simp [State.raise]
@[simp] theorem State.raise_queues (s : State) (sn : Nat) : (s.raise sn).queues = s.queues := by simp [State.raise]
@[simp] theorem State.raise_xlate (s : State) (sn : Nat) : (s.raise sn).xlate = s.xlate := by simp [State.raise]
@[simp] theorem State.raise_ledger (s : State) (sn : Nat) : (s.raise sn).ledger = s.ledger := by simp [State.raise]
@[simp] theorem State.raise_portA (s : State) (sn : Nat) : (s.raise sn).portA = s.portA := by simp [State.raise]
@[simp] theorem State.raise_portB (s : State) (sn : Nat) : (s.raise sn).portB = s.portB := by simp [State.raise]
@[simp] theorem State.raise_conduct (s : State) (sn : Nat) : (s.raise sn).conduct = s.conduct := by simp [State.raise]
@[simp] theorem State.raise_auth (s : State) (sn : Nat) : (s.raise sn).auth = s.auth := by simp [State.raise]
@[simp] theorem State.raise_scratch (s : State) (sn : Nat) : (s.raise sn).scratch = s.scratch := by simp [State.raise]
@[simp] theorem State.raise_hatch (s : State) (sn : Nat) : (s.raise sn).hatch = s.hatch := by simp [State.raise]
@[simp] theorem State.raise_sideband (s : State) (sn : Nat) : (s.raise sn).sideband = s.sideband := by simp [State.raise]
@[simp] theorem State.raise_image (s : State) (sn : Nat) : (s.raise sn).image = s.image := by simp [State.raise]

/-! ### State.notifyRank -/

@[simp] theorem State.notifyRank_now (s : State) (sn tn : Nat) (n : Notify) : (s.notifyRank sn tn n).now = s.now := rfl
@[simp] theorem State.notifyRank_free (s : State) (sn tn : Nat) (n : Notify) : (s.notifyRank sn tn n).free = s.free := rfl
@[simp] theorem State.notifyRank_pending (s : State) (sn tn : Nat) (n : Notify) : (s.notifyRank sn tn n).pending = s.pending := rfl
@[simp] theorem State.notifyRank_out (s : State) (sn tn : Nat) (n : Notify) : (s.notifyRank sn tn n).out = s.out := rfl
@[simp] theorem State.notifyRank_held (s : State) (sn tn : Nat) (n : Notify) : (s.notifyRank sn tn n).held = s.held := rfl
@[simp] theorem State.notifyRank_dur (s : State) (sn tn : Nat) (n : Notify) : (s.notifyRank sn tn n).dur = s.dur := rfl
@[simp] theorem State.notifyRank_mram (s : State) (sn tn : Nat) (n : Notify) : (s.notifyRank sn tn n).mram = s.mram := rfl
@[simp] theorem State.notifyRank_durab (s : State) (sn tn : Nat) (n : Notify) : (s.notifyRank sn tn n).durab = s.durab := rfl
@[simp] theorem State.notifyRank_nv (s : State) (sn tn : Nat) (n : Notify) : (s.notifyRank sn tn n).nv = s.nv := rfl
@[simp] theorem State.notifyRank_keeper (s : State) (sn tn : Nat) (n : Notify) : (s.notifyRank sn tn n).keeper = s.keeper := rfl
@[simp] theorem State.notifyRank_power (s : State) (sn tn : Nat) (n : Notify) : (s.notifyRank sn tn n).power = s.power := rfl
@[simp] theorem State.notifyRank_dap (s : State) (sn tn : Nat) (n : Notify) : (s.notifyRank sn tn n).dap = s.dap := rfl
@[simp] theorem State.notifyRank_wired (s : State) (sn tn : Nat) (n : Notify) : (s.notifyRank sn tn n).wired = s.wired := rfl
@[simp] theorem State.notifyRank_queues (s : State) (sn tn : Nat) (n : Notify) : (s.notifyRank sn tn n).queues = s.queues := rfl
@[simp] theorem State.notifyRank_xlate (s : State) (sn tn : Nat) (n : Notify) : (s.notifyRank sn tn n).xlate = s.xlate := rfl
@[simp] theorem State.notifyRank_ledger (s : State) (sn tn : Nat) (n : Notify) : (s.notifyRank sn tn n).ledger = s.ledger := rfl
@[simp] theorem State.notifyRank_portA (s : State) (sn tn : Nat) (n : Notify) : (s.notifyRank sn tn n).portA = s.portA := rfl
@[simp] theorem State.notifyRank_portB (s : State) (sn tn : Nat) (n : Notify) : (s.notifyRank sn tn n).portB = s.portB := rfl
@[simp] theorem State.notifyRank_conduct (s : State) (sn tn : Nat) (n : Notify) : (s.notifyRank sn tn n).conduct = s.conduct := rfl
@[simp] theorem State.notifyRank_auth (s : State) (sn tn : Nat) (n : Notify) : (s.notifyRank sn tn n).auth = s.auth := rfl
@[simp] theorem State.notifyRank_scratch (s : State) (sn tn : Nat) (n : Notify) : (s.notifyRank sn tn n).scratch = s.scratch := rfl
@[simp] theorem State.notifyRank_hatch (s : State) (sn tn : Nat) (n : Notify) : (s.notifyRank sn tn n).hatch = s.hatch := rfl
@[simp] theorem State.notifyRank_sideband (s : State) (sn tn : Nat) (n : Notify) : (s.notifyRank sn tn n).sideband = s.sideband := rfl
@[simp] theorem State.notifyRank_image (s : State) (sn tn : Nat) (n : Notify) : (s.notifyRank sn tn n).image = s.image := rfl

/-! ### State.notifyRoute -/

@[simp] theorem State.notifyRoute_now (s : State) (sn : Nat) (t : Option Nat) (c : Cls) (x : Option Cand) : (s.notifyRoute sn t c x).now = s.now := by cases t <;> rfl
@[simp] theorem State.notifyRoute_free (s : State) (sn : Nat) (t : Option Nat) (c : Cls) (x : Option Cand) : (s.notifyRoute sn t c x).free = s.free := by cases t <;> rfl
@[simp] theorem State.notifyRoute_pending (s : State) (sn : Nat) (t : Option Nat) (c : Cls) (x : Option Cand) : (s.notifyRoute sn t c x).pending = s.pending := by cases t <;> rfl
@[simp] theorem State.notifyRoute_out (s : State) (sn : Nat) (t : Option Nat) (c : Cls) (x : Option Cand) : (s.notifyRoute sn t c x).out = s.out := by cases t <;> rfl
@[simp] theorem State.notifyRoute_held (s : State) (sn : Nat) (t : Option Nat) (c : Cls) (x : Option Cand) : (s.notifyRoute sn t c x).held = s.held := by cases t <;> rfl
@[simp] theorem State.notifyRoute_dur (s : State) (sn : Nat) (t : Option Nat) (c : Cls) (x : Option Cand) : (s.notifyRoute sn t c x).dur = s.dur := by cases t <;> rfl
@[simp] theorem State.notifyRoute_mram (s : State) (sn : Nat) (t : Option Nat) (c : Cls) (x : Option Cand) : (s.notifyRoute sn t c x).mram = s.mram := by cases t <;> rfl
@[simp] theorem State.notifyRoute_durab (s : State) (sn : Nat) (t : Option Nat) (c : Cls) (x : Option Cand) : (s.notifyRoute sn t c x).durab = s.durab := by cases t <;> rfl
@[simp] theorem State.notifyRoute_nv (s : State) (sn : Nat) (t : Option Nat) (c : Cls) (x : Option Cand) : (s.notifyRoute sn t c x).nv = s.nv := by cases t <;> rfl
@[simp] theorem State.notifyRoute_keeper (s : State) (sn : Nat) (t : Option Nat) (c : Cls) (x : Option Cand) : (s.notifyRoute sn t c x).keeper = s.keeper := by cases t <;> rfl
@[simp] theorem State.notifyRoute_power (s : State) (sn : Nat) (t : Option Nat) (c : Cls) (x : Option Cand) : (s.notifyRoute sn t c x).power = s.power := by cases t <;> rfl
@[simp] theorem State.notifyRoute_dap (s : State) (sn : Nat) (t : Option Nat) (c : Cls) (x : Option Cand) : (s.notifyRoute sn t c x).dap = s.dap := by cases t <;> rfl
@[simp] theorem State.notifyRoute_wired (s : State) (sn : Nat) (t : Option Nat) (c : Cls) (x : Option Cand) : (s.notifyRoute sn t c x).wired = s.wired := by cases t <;> rfl
@[simp] theorem State.notifyRoute_queues (s : State) (sn : Nat) (t : Option Nat) (c : Cls) (x : Option Cand) : (s.notifyRoute sn t c x).queues = s.queues := by cases t <;> rfl
@[simp] theorem State.notifyRoute_xlate (s : State) (sn : Nat) (t : Option Nat) (c : Cls) (x : Option Cand) : (s.notifyRoute sn t c x).xlate = s.xlate := by cases t <;> rfl
@[simp] theorem State.notifyRoute_ledger (s : State) (sn : Nat) (t : Option Nat) (c : Cls) (x : Option Cand) : (s.notifyRoute sn t c x).ledger = s.ledger := by cases t <;> rfl
@[simp] theorem State.notifyRoute_portA (s : State) (sn : Nat) (t : Option Nat) (c : Cls) (x : Option Cand) : (s.notifyRoute sn t c x).portA = s.portA := by cases t <;> rfl
@[simp] theorem State.notifyRoute_portB (s : State) (sn : Nat) (t : Option Nat) (c : Cls) (x : Option Cand) : (s.notifyRoute sn t c x).portB = s.portB := by cases t <;> rfl
@[simp] theorem State.notifyRoute_conduct (s : State) (sn : Nat) (t : Option Nat) (c : Cls) (x : Option Cand) : (s.notifyRoute sn t c x).conduct = s.conduct := by cases t <;> rfl
@[simp] theorem State.notifyRoute_auth (s : State) (sn : Nat) (t : Option Nat) (c : Cls) (x : Option Cand) : (s.notifyRoute sn t c x).auth = s.auth := by cases t <;> rfl
@[simp] theorem State.notifyRoute_scratch (s : State) (sn : Nat) (t : Option Nat) (c : Cls) (x : Option Cand) : (s.notifyRoute sn t c x).scratch = s.scratch := by cases t <;> rfl
@[simp] theorem State.notifyRoute_hatch (s : State) (sn : Nat) (t : Option Nat) (c : Cls) (x : Option Cand) : (s.notifyRoute sn t c x).hatch = s.hatch := by cases t <;> rfl
@[simp] theorem State.notifyRoute_sideband (s : State) (sn : Nat) (t : Option Nat) (c : Cls) (x : Option Cand) : (s.notifyRoute sn t c x).sideband = s.sideband := by cases t <;> rfl
@[simp] theorem State.notifyRoute_image (s : State) (sn : Nat) (t : Option Nat) (c : Cls) (x : Option Cand) : (s.notifyRoute sn t c x).image = s.image := by cases t <;> rfl

/-! ### State.owe -/

@[simp] theorem State.owe_now (s : State) (tn : Nat) (c : Cls) : (s.owe tn c).now = s.now := rfl
@[simp] theorem State.owe_free (s : State) (tn : Nat) (c : Cls) : (s.owe tn c).free = s.free := rfl
@[simp] theorem State.owe_pending (s : State) (tn : Nat) (c : Cls) : (s.owe tn c).pending = s.pending := rfl
@[simp] theorem State.owe_out (s : State) (tn : Nat) (c : Cls) : (s.owe tn c).out = s.out := rfl
@[simp] theorem State.owe_held (s : State) (tn : Nat) (c : Cls) : (s.owe tn c).held = s.held := rfl
@[simp] theorem State.owe_dur (s : State) (tn : Nat) (c : Cls) : (s.owe tn c).dur = s.dur := rfl
@[simp] theorem State.owe_mram (s : State) (tn : Nat) (c : Cls) : (s.owe tn c).mram = s.mram := rfl
@[simp] theorem State.owe_durab (s : State) (tn : Nat) (c : Cls) : (s.owe tn c).durab = s.durab := rfl
@[simp] theorem State.owe_nv (s : State) (tn : Nat) (c : Cls) : (s.owe tn c).nv = s.nv := rfl
@[simp] theorem State.owe_keeper (s : State) (tn : Nat) (c : Cls) : (s.owe tn c).keeper = s.keeper := rfl
@[simp] theorem State.owe_power (s : State) (tn : Nat) (c : Cls) : (s.owe tn c).power = s.power := rfl
@[simp] theorem State.owe_dap (s : State) (tn : Nat) (c : Cls) : (s.owe tn c).dap = s.dap := rfl
@[simp] theorem State.owe_wired (s : State) (tn : Nat) (c : Cls) : (s.owe tn c).wired = s.wired := rfl
@[simp] theorem State.owe_queues (s : State) (tn : Nat) (c : Cls) : (s.owe tn c).queues = s.queues := rfl
@[simp] theorem State.owe_xlate (s : State) (tn : Nat) (c : Cls) : (s.owe tn c).xlate = s.xlate := rfl
@[simp] theorem State.owe_ledger (s : State) (tn : Nat) (c : Cls) : (s.owe tn c).ledger = s.ledger := rfl
@[simp] theorem State.owe_portA (s : State) (tn : Nat) (c : Cls) : (s.owe tn c).portA = s.portA := rfl
@[simp] theorem State.owe_portB (s : State) (tn : Nat) (c : Cls) : (s.owe tn c).portB = s.portB := rfl
@[simp] theorem State.owe_conduct (s : State) (tn : Nat) (c : Cls) : (s.owe tn c).conduct = s.conduct := rfl
@[simp] theorem State.owe_auth (s : State) (tn : Nat) (c : Cls) : (s.owe tn c).auth = s.auth := rfl
@[simp] theorem State.owe_scratch (s : State) (tn : Nat) (c : Cls) : (s.owe tn c).scratch = s.scratch := rfl
@[simp] theorem State.owe_hatch (s : State) (tn : Nat) (c : Cls) : (s.owe tn c).hatch = s.hatch := rfl
@[simp] theorem State.owe_sideband (s : State) (tn : Nat) (c : Cls) : (s.owe tn c).sideband = s.sideband := rfl
@[simp] theorem State.owe_image (s : State) (tn : Nat) (c : Cls) : (s.owe tn c).image = s.image := rfl

/-! ### State.mgmt -/

@[simp] theorem State.mgmt_now (s : State) (n : Nat) : (s.mgmt n).now = s.now := rfl
@[simp] theorem State.mgmt_free (s : State) (n : Nat) : (s.mgmt n).free = s.free := rfl
@[simp] theorem State.mgmt_pending (s : State) (n : Nat) : (s.mgmt n).pending = s.pending := rfl
@[simp] theorem State.mgmt_out (s : State) (n : Nat) : (s.mgmt n).out = s.out := rfl
@[simp] theorem State.mgmt_held (s : State) (n : Nat) : (s.mgmt n).held = s.held := rfl
@[simp] theorem State.mgmt_dur (s : State) (n : Nat) : (s.mgmt n).dur = s.dur := rfl
@[simp] theorem State.mgmt_mram (s : State) (n : Nat) : (s.mgmt n).mram = s.mram := rfl
@[simp] theorem State.mgmt_durab (s : State) (n : Nat) : (s.mgmt n).durab = s.durab := rfl
@[simp] theorem State.mgmt_nv (s : State) (n : Nat) : (s.mgmt n).nv = s.nv := rfl
@[simp] theorem State.mgmt_keeper (s : State) (n : Nat) : (s.mgmt n).keeper = s.keeper := rfl
@[simp] theorem State.mgmt_power (s : State) (n : Nat) : (s.mgmt n).power = s.power := rfl
@[simp] theorem State.mgmt_dap (s : State) (n : Nat) : (s.mgmt n).dap = s.dap := rfl
@[simp] theorem State.mgmt_fabric (s : State) (n : Nat) : (s.mgmt n).fabric = s.fabric := rfl
@[simp] theorem State.mgmt_wired (s : State) (n : Nat) : (s.mgmt n).wired = s.wired := rfl
@[simp] theorem State.mgmt_queues (s : State) (n : Nat) : (s.mgmt n).queues = s.queues := rfl
@[simp] theorem State.mgmt_xlate (s : State) (n : Nat) : (s.mgmt n).xlate = s.xlate := rfl
@[simp] theorem State.mgmt_ledger (s : State) (n : Nat) : (s.mgmt n).ledger = s.ledger := rfl
@[simp] theorem State.mgmt_conduct (s : State) (n : Nat) : (s.mgmt n).conduct = s.conduct := rfl
@[simp] theorem State.mgmt_auth (s : State) (n : Nat) : (s.mgmt n).auth = s.auth := rfl
@[simp] theorem State.mgmt_scratch (s : State) (n : Nat) : (s.mgmt n).scratch = s.scratch := rfl
@[simp] theorem State.mgmt_hatch (s : State) (n : Nat) : (s.mgmt n).hatch = s.hatch := rfl
@[simp] theorem State.mgmt_sideband (s : State) (n : Nat) : (s.mgmt n).sideband = s.sideband := rfl
@[simp] theorem State.mgmt_image (s : State) (n : Nat) : (s.mgmt n).image = s.image := rfl

/-! ### State.conductBit -/

@[simp] theorem State.conductBit_now (s : State) (r : Req) (n : Nat) : (s.conductBit r n).now = s.now := rfl
@[simp] theorem State.conductBit_free (s : State) (r : Req) (n : Nat) : (s.conductBit r n).free = s.free := rfl
@[simp] theorem State.conductBit_pending (s : State) (r : Req) (n : Nat) : (s.conductBit r n).pending = s.pending := rfl
@[simp] theorem State.conductBit_out (s : State) (r : Req) (n : Nat) : (s.conductBit r n).out = s.out := rfl
@[simp] theorem State.conductBit_held (s : State) (r : Req) (n : Nat) : (s.conductBit r n).held = s.held := rfl
@[simp] theorem State.conductBit_dur (s : State) (r : Req) (n : Nat) : (s.conductBit r n).dur = s.dur := rfl
@[simp] theorem State.conductBit_mram (s : State) (r : Req) (n : Nat) : (s.conductBit r n).mram = s.mram := rfl
@[simp] theorem State.conductBit_durab (s : State) (r : Req) (n : Nat) : (s.conductBit r n).durab = s.durab := rfl
@[simp] theorem State.conductBit_nv (s : State) (r : Req) (n : Nat) : (s.conductBit r n).nv = s.nv := rfl
@[simp] theorem State.conductBit_keeper (s : State) (r : Req) (n : Nat) : (s.conductBit r n).keeper = s.keeper := rfl
@[simp] theorem State.conductBit_power (s : State) (r : Req) (n : Nat) : (s.conductBit r n).power = s.power := rfl
@[simp] theorem State.conductBit_dap (s : State) (r : Req) (n : Nat) : (s.conductBit r n).dap = s.dap := rfl
@[simp] theorem State.conductBit_fabric (s : State) (r : Req) (n : Nat) : (s.conductBit r n).fabric = s.fabric := rfl
@[simp] theorem State.conductBit_wired (s : State) (r : Req) (n : Nat) : (s.conductBit r n).wired = s.wired := rfl
@[simp] theorem State.conductBit_queues (s : State) (r : Req) (n : Nat) : (s.conductBit r n).queues = s.queues := rfl
@[simp] theorem State.conductBit_xlate (s : State) (r : Req) (n : Nat) : (s.conductBit r n).xlate = s.xlate := rfl
@[simp] theorem State.conductBit_ledger (s : State) (r : Req) (n : Nat) : (s.conductBit r n).ledger = s.ledger := rfl
@[simp] theorem State.conductBit_portA (s : State) (r : Req) (n : Nat) : (s.conductBit r n).portA = s.portA := rfl
@[simp] theorem State.conductBit_portB (s : State) (r : Req) (n : Nat) : (s.conductBit r n).portB = s.portB := rfl
@[simp] theorem State.conductBit_auth (s : State) (r : Req) (n : Nat) : (s.conductBit r n).auth = s.auth := rfl
@[simp] theorem State.conductBit_scratch (s : State) (r : Req) (n : Nat) : (s.conductBit r n).scratch = s.scratch := rfl
@[simp] theorem State.conductBit_hatch (s : State) (r : Req) (n : Nat) : (s.conductBit r n).hatch = s.hatch := rfl
@[simp] theorem State.conductBit_sideband (s : State) (r : Req) (n : Nat) : (s.conductBit r n).sideband = s.sideband := rfl
@[simp] theorem State.conductBit_image (s : State) (r : Req) (n : Nat) : (s.conductBit r n).image = s.image := rfl

/-! ### State.clampedBy -/

@[simp] theorem State.clampedBy_now (s : State) (r : Req) (b : Bool) : (s.clampedBy r b).now = s.now := by cases b <;> rfl
@[simp] theorem State.clampedBy_free (s : State) (r : Req) (b : Bool) : (s.clampedBy r b).free = s.free := by cases b <;> rfl
@[simp] theorem State.clampedBy_pending (s : State) (r : Req) (b : Bool) : (s.clampedBy r b).pending = s.pending := by cases b <;> rfl
@[simp] theorem State.clampedBy_out (s : State) (r : Req) (b : Bool) : (s.clampedBy r b).out = s.out := by cases b <;> rfl
@[simp] theorem State.clampedBy_held (s : State) (r : Req) (b : Bool) : (s.clampedBy r b).held = s.held := by cases b <;> rfl
@[simp] theorem State.clampedBy_dur (s : State) (r : Req) (b : Bool) : (s.clampedBy r b).dur = s.dur := by cases b <;> rfl
@[simp] theorem State.clampedBy_mram (s : State) (r : Req) (b : Bool) : (s.clampedBy r b).mram = s.mram := by cases b <;> rfl
@[simp] theorem State.clampedBy_durab (s : State) (r : Req) (b : Bool) : (s.clampedBy r b).durab = s.durab := by cases b <;> rfl
@[simp] theorem State.clampedBy_nv (s : State) (r : Req) (b : Bool) : (s.clampedBy r b).nv = s.nv := by cases b <;> rfl
@[simp] theorem State.clampedBy_keeper (s : State) (r : Req) (b : Bool) : (s.clampedBy r b).keeper = s.keeper := by cases b <;> rfl
@[simp] theorem State.clampedBy_power (s : State) (r : Req) (b : Bool) : (s.clampedBy r b).power = s.power := by cases b <;> rfl
@[simp] theorem State.clampedBy_dap (s : State) (r : Req) (b : Bool) : (s.clampedBy r b).dap = s.dap := by cases b <;> rfl
@[simp] theorem State.clampedBy_fabric (s : State) (r : Req) (b : Bool) : (s.clampedBy r b).fabric = s.fabric := by cases b <;> rfl
@[simp] theorem State.clampedBy_wired (s : State) (r : Req) (b : Bool) : (s.clampedBy r b).wired = s.wired := by cases b <;> rfl
@[simp] theorem State.clampedBy_queues (s : State) (r : Req) (b : Bool) : (s.clampedBy r b).queues = s.queues := by cases b <;> rfl
@[simp] theorem State.clampedBy_xlate (s : State) (r : Req) (b : Bool) : (s.clampedBy r b).xlate = s.xlate := by cases b <;> rfl
@[simp] theorem State.clampedBy_ledger (s : State) (r : Req) (b : Bool) : (s.clampedBy r b).ledger = s.ledger := by cases b <;> rfl
@[simp] theorem State.clampedBy_portA (s : State) (r : Req) (b : Bool) : (s.clampedBy r b).portA = s.portA := by cases b <;> rfl
@[simp] theorem State.clampedBy_portB (s : State) (r : Req) (b : Bool) : (s.clampedBy r b).portB = s.portB := by cases b <;> rfl
@[simp] theorem State.clampedBy_auth (s : State) (r : Req) (b : Bool) : (s.clampedBy r b).auth = s.auth := by cases b <;> rfl
@[simp] theorem State.clampedBy_scratch (s : State) (r : Req) (b : Bool) : (s.clampedBy r b).scratch = s.scratch := by cases b <;> rfl
@[simp] theorem State.clampedBy_hatch (s : State) (r : Req) (b : Bool) : (s.clampedBy r b).hatch = s.hatch := by cases b <;> rfl
@[simp] theorem State.clampedBy_sideband (s : State) (r : Req) (b : Bool) : (s.clampedBy r b).sideband = s.sideband := by cases b <;> rfl
@[simp] theorem State.clampedBy_image (s : State) (r : Req) (b : Bool) : (s.clampedBy r b).image = s.image := by cases b <;> rfl

/-! ### State.modIsland -/

@[simp] theorem State.modIsland_now (s : State) (i : Nat) (f : IslandPower → IslandPower) : (s.modIsland i f).now = s.now := rfl
@[simp] theorem State.modIsland_free (s : State) (i : Nat) (f : IslandPower → IslandPower) : (s.modIsland i f).free = s.free := rfl
@[simp] theorem State.modIsland_pending (s : State) (i : Nat) (f : IslandPower → IslandPower) : (s.modIsland i f).pending = s.pending := rfl
@[simp] theorem State.modIsland_out (s : State) (i : Nat) (f : IslandPower → IslandPower) : (s.modIsland i f).out = s.out := rfl
@[simp] theorem State.modIsland_held (s : State) (i : Nat) (f : IslandPower → IslandPower) : (s.modIsland i f).held = s.held := rfl
@[simp] theorem State.modIsland_dur (s : State) (i : Nat) (f : IslandPower → IslandPower) : (s.modIsland i f).dur = s.dur := rfl
@[simp] theorem State.modIsland_mram (s : State) (i : Nat) (f : IslandPower → IslandPower) : (s.modIsland i f).mram = s.mram := rfl
@[simp] theorem State.modIsland_durab (s : State) (i : Nat) (f : IslandPower → IslandPower) : (s.modIsland i f).durab = s.durab := rfl
@[simp] theorem State.modIsland_nv (s : State) (i : Nat) (f : IslandPower → IslandPower) : (s.modIsland i f).nv = s.nv := rfl
@[simp] theorem State.modIsland_keeper (s : State) (i : Nat) (f : IslandPower → IslandPower) : (s.modIsland i f).keeper = s.keeper := rfl
@[simp] theorem State.modIsland_dap (s : State) (i : Nat) (f : IslandPower → IslandPower) : (s.modIsland i f).dap = s.dap := rfl
@[simp] theorem State.modIsland_fabric (s : State) (i : Nat) (f : IslandPower → IslandPower) : (s.modIsland i f).fabric = s.fabric := rfl
@[simp] theorem State.modIsland_wired (s : State) (i : Nat) (f : IslandPower → IslandPower) : (s.modIsland i f).wired = s.wired := rfl
@[simp] theorem State.modIsland_queues (s : State) (i : Nat) (f : IslandPower → IslandPower) : (s.modIsland i f).queues = s.queues := rfl
@[simp] theorem State.modIsland_xlate (s : State) (i : Nat) (f : IslandPower → IslandPower) : (s.modIsland i f).xlate = s.xlate := rfl
@[simp] theorem State.modIsland_ledger (s : State) (i : Nat) (f : IslandPower → IslandPower) : (s.modIsland i f).ledger = s.ledger := rfl
@[simp] theorem State.modIsland_portA (s : State) (i : Nat) (f : IslandPower → IslandPower) : (s.modIsland i f).portA = s.portA := rfl
@[simp] theorem State.modIsland_portB (s : State) (i : Nat) (f : IslandPower → IslandPower) : (s.modIsland i f).portB = s.portB := rfl
@[simp] theorem State.modIsland_conduct (s : State) (i : Nat) (f : IslandPower → IslandPower) : (s.modIsland i f).conduct = s.conduct := rfl
@[simp] theorem State.modIsland_auth (s : State) (i : Nat) (f : IslandPower → IslandPower) : (s.modIsland i f).auth = s.auth := rfl
@[simp] theorem State.modIsland_scratch (s : State) (i : Nat) (f : IslandPower → IslandPower) : (s.modIsland i f).scratch = s.scratch := rfl
@[simp] theorem State.modIsland_hatch (s : State) (i : Nat) (f : IslandPower → IslandPower) : (s.modIsland i f).hatch = s.hatch := rfl
@[simp] theorem State.modIsland_sideband (s : State) (i : Nat) (f : IslandPower → IslandPower) : (s.modIsland i f).sideband = s.sideband := rfl
@[simp] theorem State.modIsland_image (s : State) (i : Nat) (f : IslandPower → IslandPower) : (s.modIsland i f).image = s.image := rfl

/-! ### State.busy -/

@[simp] theorem State.busy_now (s : State) (i : Nat) : (s.busy i).now = s.now := rfl
@[simp] theorem State.busy_free (s : State) (i : Nat) : (s.busy i).free = s.free := rfl
@[simp] theorem State.busy_pending (s : State) (i : Nat) : (s.busy i).pending = s.pending := rfl
@[simp] theorem State.busy_out (s : State) (i : Nat) : (s.busy i).out = s.out := rfl
@[simp] theorem State.busy_held (s : State) (i : Nat) : (s.busy i).held = s.held := rfl
@[simp] theorem State.busy_dur (s : State) (i : Nat) : (s.busy i).dur = s.dur := rfl
@[simp] theorem State.busy_mram (s : State) (i : Nat) : (s.busy i).mram = s.mram := rfl
@[simp] theorem State.busy_durab (s : State) (i : Nat) : (s.busy i).durab = s.durab := rfl
@[simp] theorem State.busy_nv (s : State) (i : Nat) : (s.busy i).nv = s.nv := rfl
@[simp] theorem State.busy_keeper (s : State) (i : Nat) : (s.busy i).keeper = s.keeper := rfl
@[simp] theorem State.busy_dap (s : State) (i : Nat) : (s.busy i).dap = s.dap := rfl
@[simp] theorem State.busy_fabric (s : State) (i : Nat) : (s.busy i).fabric = s.fabric := rfl
@[simp] theorem State.busy_wired (s : State) (i : Nat) : (s.busy i).wired = s.wired := rfl
@[simp] theorem State.busy_queues (s : State) (i : Nat) : (s.busy i).queues = s.queues := rfl
@[simp] theorem State.busy_xlate (s : State) (i : Nat) : (s.busy i).xlate = s.xlate := rfl
@[simp] theorem State.busy_ledger (s : State) (i : Nat) : (s.busy i).ledger = s.ledger := rfl
@[simp] theorem State.busy_portA (s : State) (i : Nat) : (s.busy i).portA = s.portA := rfl
@[simp] theorem State.busy_portB (s : State) (i : Nat) : (s.busy i).portB = s.portB := rfl
@[simp] theorem State.busy_conduct (s : State) (i : Nat) : (s.busy i).conduct = s.conduct := rfl
@[simp] theorem State.busy_auth (s : State) (i : Nat) : (s.busy i).auth = s.auth := rfl
@[simp] theorem State.busy_scratch (s : State) (i : Nat) : (s.busy i).scratch = s.scratch := rfl
@[simp] theorem State.busy_hatch (s : State) (i : Nat) : (s.busy i).hatch = s.hatch := rfl
@[simp] theorem State.busy_sideband (s : State) (i : Nat) : (s.busy i).sideband = s.sideband := rfl
@[simp] theorem State.busy_image (s : State) (i : Nat) : (s.busy i).image = s.image := rfl

/-! ### State.wakeCause -/

@[simp] theorem State.wakeCause_now (s : State) (i : Nat) : (s.wakeCause i).now = s.now := by unfold State.wakeCause; split <;> rfl
@[simp] theorem State.wakeCause_free (s : State) (i : Nat) : (s.wakeCause i).free = s.free := by unfold State.wakeCause; split <;> rfl
@[simp] theorem State.wakeCause_pending (s : State) (i : Nat) : (s.wakeCause i).pending = s.pending := by unfold State.wakeCause; split <;> rfl
@[simp] theorem State.wakeCause_out (s : State) (i : Nat) : (s.wakeCause i).out = s.out := by unfold State.wakeCause; split <;> rfl
@[simp] theorem State.wakeCause_held (s : State) (i : Nat) : (s.wakeCause i).held = s.held := by unfold State.wakeCause; split <;> rfl
@[simp] theorem State.wakeCause_dur (s : State) (i : Nat) : (s.wakeCause i).dur = s.dur := by unfold State.wakeCause; split <;> rfl
@[simp] theorem State.wakeCause_mram (s : State) (i : Nat) : (s.wakeCause i).mram = s.mram := by unfold State.wakeCause; split <;> rfl
@[simp] theorem State.wakeCause_durab (s : State) (i : Nat) : (s.wakeCause i).durab = s.durab := by unfold State.wakeCause; split <;> rfl
@[simp] theorem State.wakeCause_nv (s : State) (i : Nat) : (s.wakeCause i).nv = s.nv := by unfold State.wakeCause; split <;> rfl
@[simp] theorem State.wakeCause_keeper (s : State) (i : Nat) : (s.wakeCause i).keeper = s.keeper := by unfold State.wakeCause; split <;> rfl
@[simp] theorem State.wakeCause_dap (s : State) (i : Nat) : (s.wakeCause i).dap = s.dap := by unfold State.wakeCause; split <;> rfl
@[simp] theorem State.wakeCause_fabric (s : State) (i : Nat) : (s.wakeCause i).fabric = s.fabric := by unfold State.wakeCause; split <;> rfl
@[simp] theorem State.wakeCause_wired (s : State) (i : Nat) : (s.wakeCause i).wired = s.wired := by unfold State.wakeCause; split <;> rfl
@[simp] theorem State.wakeCause_queues (s : State) (i : Nat) : (s.wakeCause i).queues = s.queues := by unfold State.wakeCause; split <;> rfl
@[simp] theorem State.wakeCause_xlate (s : State) (i : Nat) : (s.wakeCause i).xlate = s.xlate := by unfold State.wakeCause; split <;> rfl
@[simp] theorem State.wakeCause_ledger (s : State) (i : Nat) : (s.wakeCause i).ledger = s.ledger := by unfold State.wakeCause; split <;> rfl
@[simp] theorem State.wakeCause_portA (s : State) (i : Nat) : (s.wakeCause i).portA = s.portA := by unfold State.wakeCause; split <;> rfl
@[simp] theorem State.wakeCause_portB (s : State) (i : Nat) : (s.wakeCause i).portB = s.portB := by unfold State.wakeCause; split <;> rfl
@[simp] theorem State.wakeCause_conduct (s : State) (i : Nat) : (s.wakeCause i).conduct = s.conduct := by unfold State.wakeCause; split <;> rfl
@[simp] theorem State.wakeCause_auth (s : State) (i : Nat) : (s.wakeCause i).auth = s.auth := by unfold State.wakeCause; split <;> rfl
@[simp] theorem State.wakeCause_scratch (s : State) (i : Nat) : (s.wakeCause i).scratch = s.scratch := by unfold State.wakeCause; split <;> rfl
@[simp] theorem State.wakeCause_hatch (s : State) (i : Nat) : (s.wakeCause i).hatch = s.hatch := by unfold State.wakeCause; split <;> rfl
@[simp] theorem State.wakeCause_sideband (s : State) (i : Nat) : (s.wakeCause i).sideband = s.sideband := by unfold State.wakeCause; split <;> rfl
@[simp] theorem State.wakeCause_image (s : State) (i : Nat) : (s.wakeCause i).image = s.image := by unfold State.wakeCause; split <;> rfl

/-! ### State.wakeUp -/

@[simp] theorem State.wakeUp_now (s : State) (i : Nat) : (s.wakeUp i).now = s.now := by unfold State.wakeUp; split <;> rfl
@[simp] theorem State.wakeUp_free (s : State) (i : Nat) : (s.wakeUp i).free = s.free := by unfold State.wakeUp; split <;> rfl
@[simp] theorem State.wakeUp_pending (s : State) (i : Nat) : (s.wakeUp i).pending = s.pending := by unfold State.wakeUp; split <;> rfl
@[simp] theorem State.wakeUp_out (s : State) (i : Nat) : (s.wakeUp i).out = s.out := by unfold State.wakeUp; split <;> rfl
@[simp] theorem State.wakeUp_held (s : State) (i : Nat) : (s.wakeUp i).held = s.held := by unfold State.wakeUp; split <;> rfl
@[simp] theorem State.wakeUp_dur (s : State) (i : Nat) : (s.wakeUp i).dur = s.dur := by unfold State.wakeUp; split <;> rfl
@[simp] theorem State.wakeUp_mram (s : State) (i : Nat) : (s.wakeUp i).mram = s.mram := by unfold State.wakeUp; split <;> rfl
@[simp] theorem State.wakeUp_durab (s : State) (i : Nat) : (s.wakeUp i).durab = s.durab := by unfold State.wakeUp; split <;> rfl
@[simp] theorem State.wakeUp_nv (s : State) (i : Nat) : (s.wakeUp i).nv = s.nv := by unfold State.wakeUp; split <;> rfl
@[simp] theorem State.wakeUp_keeper (s : State) (i : Nat) : (s.wakeUp i).keeper = s.keeper := by unfold State.wakeUp; split <;> rfl
@[simp] theorem State.wakeUp_dap (s : State) (i : Nat) : (s.wakeUp i).dap = s.dap := by unfold State.wakeUp; split <;> rfl
@[simp] theorem State.wakeUp_fabric (s : State) (i : Nat) : (s.wakeUp i).fabric = s.fabric := by unfold State.wakeUp; split <;> rfl
@[simp] theorem State.wakeUp_wired (s : State) (i : Nat) : (s.wakeUp i).wired = s.wired := by unfold State.wakeUp; split <;> rfl
@[simp] theorem State.wakeUp_queues (s : State) (i : Nat) : (s.wakeUp i).queues = s.queues := by unfold State.wakeUp; split <;> rfl
@[simp] theorem State.wakeUp_xlate (s : State) (i : Nat) : (s.wakeUp i).xlate = s.xlate := by unfold State.wakeUp; split <;> rfl
@[simp] theorem State.wakeUp_ledger (s : State) (i : Nat) : (s.wakeUp i).ledger = s.ledger := by unfold State.wakeUp; split <;> rfl
@[simp] theorem State.wakeUp_portA (s : State) (i : Nat) : (s.wakeUp i).portA = s.portA := by unfold State.wakeUp; split <;> rfl
@[simp] theorem State.wakeUp_portB (s : State) (i : Nat) : (s.wakeUp i).portB = s.portB := by unfold State.wakeUp; split <;> rfl
@[simp] theorem State.wakeUp_conduct (s : State) (i : Nat) : (s.wakeUp i).conduct = s.conduct := by unfold State.wakeUp; split <;> rfl
@[simp] theorem State.wakeUp_auth (s : State) (i : Nat) : (s.wakeUp i).auth = s.auth := by unfold State.wakeUp; split <;> rfl
@[simp] theorem State.wakeUp_scratch (s : State) (i : Nat) : (s.wakeUp i).scratch = s.scratch := by unfold State.wakeUp; split <;> rfl
@[simp] theorem State.wakeUp_hatch (s : State) (i : Nat) : (s.wakeUp i).hatch = s.hatch := by unfold State.wakeUp; split <;> rfl
@[simp] theorem State.wakeUp_sideband (s : State) (i : Nat) : (s.wakeUp i).sideband = s.sideband := by unfold State.wakeUp; split <;> rfl
@[simp] theorem State.wakeUp_image (s : State) (i : Nat) : (s.wakeUp i).image = s.image := by unfold State.wakeUp; split <;> rfl

/-! ### State.modPort -/

@[simp] theorem State.modPort_now (s : State) (p : Port) (f : PortState → PortState) : (s.modPort p f).now = s.now := by cases p <;> rfl
@[simp] theorem State.modPort_free (s : State) (p : Port) (f : PortState → PortState) : (s.modPort p f).free = s.free := by cases p <;> rfl
@[simp] theorem State.modPort_pending (s : State) (p : Port) (f : PortState → PortState) : (s.modPort p f).pending = s.pending := by cases p <;> rfl
@[simp] theorem State.modPort_out (s : State) (p : Port) (f : PortState → PortState) : (s.modPort p f).out = s.out := by cases p <;> rfl
@[simp] theorem State.modPort_held (s : State) (p : Port) (f : PortState → PortState) : (s.modPort p f).held = s.held := by cases p <;> rfl
@[simp] theorem State.modPort_dur (s : State) (p : Port) (f : PortState → PortState) : (s.modPort p f).dur = s.dur := by cases p <;> rfl
@[simp] theorem State.modPort_mram (s : State) (p : Port) (f : PortState → PortState) : (s.modPort p f).mram = s.mram := by cases p <;> rfl
@[simp] theorem State.modPort_durab (s : State) (p : Port) (f : PortState → PortState) : (s.modPort p f).durab = s.durab := by cases p <;> rfl
@[simp] theorem State.modPort_nv (s : State) (p : Port) (f : PortState → PortState) : (s.modPort p f).nv = s.nv := by cases p <;> rfl
@[simp] theorem State.modPort_keeper (s : State) (p : Port) (f : PortState → PortState) : (s.modPort p f).keeper = s.keeper := by cases p <;> rfl
@[simp] theorem State.modPort_power (s : State) (p : Port) (f : PortState → PortState) : (s.modPort p f).power = s.power := by cases p <;> rfl
@[simp] theorem State.modPort_dap (s : State) (p : Port) (f : PortState → PortState) : (s.modPort p f).dap = s.dap := by cases p <;> rfl
@[simp] theorem State.modPort_fabric (s : State) (p : Port) (f : PortState → PortState) : (s.modPort p f).fabric = s.fabric := by cases p <;> rfl
@[simp] theorem State.modPort_wired (s : State) (p : Port) (f : PortState → PortState) : (s.modPort p f).wired = s.wired := by cases p <;> rfl
@[simp] theorem State.modPort_queues (s : State) (p : Port) (f : PortState → PortState) : (s.modPort p f).queues = s.queues := by cases p <;> rfl
@[simp] theorem State.modPort_xlate (s : State) (p : Port) (f : PortState → PortState) : (s.modPort p f).xlate = s.xlate := by cases p <;> rfl
@[simp] theorem State.modPort_ledger (s : State) (p : Port) (f : PortState → PortState) : (s.modPort p f).ledger = s.ledger := by cases p <;> rfl
@[simp] theorem State.modPort_conduct (s : State) (p : Port) (f : PortState → PortState) : (s.modPort p f).conduct = s.conduct := by cases p <;> rfl
@[simp] theorem State.modPort_auth (s : State) (p : Port) (f : PortState → PortState) : (s.modPort p f).auth = s.auth := by cases p <;> rfl
@[simp] theorem State.modPort_scratch (s : State) (p : Port) (f : PortState → PortState) : (s.modPort p f).scratch = s.scratch := by cases p <;> rfl
@[simp] theorem State.modPort_hatch (s : State) (p : Port) (f : PortState → PortState) : (s.modPort p f).hatch = s.hatch := by cases p <;> rfl
@[simp] theorem State.modPort_sideband (s : State) (p : Port) (f : PortState → PortState) : (s.modPort p f).sideband = s.sideband := by cases p <;> rfl
@[simp] theorem State.modPort_image (s : State) (p : Port) (f : PortState → PortState) : (s.modPort p f).image = s.image := by cases p <;> rfl

/-- A port just changed. -/
@[simp] theorem State.modPort_port (s : State) (p : Port) (f : PortState → PortState) :
    (s.modPort p f).port p = f (s.port p) := by cases p <;> rfl

/-- The other port than the one just changed. -/
@[simp] theorem State.modPort_other (s : State) (p : Port) (f : PortState → PortState) :
    (s.modPort p f).port p.other = s.port p.other := by cases p <;> rfl

/-! ### State.passToLink -/

@[simp] theorem State.passToLink_now (s : State) (p : Port) (r : LinkReq) : (s.passToLink p r).now = s.now := by cases p <;> rfl
@[simp] theorem State.passToLink_free (s : State) (p : Port) (r : LinkReq) : (s.passToLink p r).free = s.free := by cases p <;> rfl
@[simp] theorem State.passToLink_pending (s : State) (p : Port) (r : LinkReq) : (s.passToLink p r).pending = s.pending := by cases p <;> rfl
@[simp] theorem State.passToLink_out (s : State) (p : Port) (r : LinkReq) : (s.passToLink p r).out = s.out := by cases p <;> rfl
@[simp] theorem State.passToLink_held (s : State) (p : Port) (r : LinkReq) : (s.passToLink p r).held = s.held := by cases p <;> rfl
@[simp] theorem State.passToLink_dur (s : State) (p : Port) (r : LinkReq) : (s.passToLink p r).dur = s.dur := by cases p <;> rfl
@[simp] theorem State.passToLink_mram (s : State) (p : Port) (r : LinkReq) : (s.passToLink p r).mram = s.mram := by cases p <;> rfl
@[simp] theorem State.passToLink_durab (s : State) (p : Port) (r : LinkReq) : (s.passToLink p r).durab = s.durab := by cases p <;> rfl
@[simp] theorem State.passToLink_nv (s : State) (p : Port) (r : LinkReq) : (s.passToLink p r).nv = s.nv := by cases p <;> rfl
@[simp] theorem State.passToLink_keeper (s : State) (p : Port) (r : LinkReq) : (s.passToLink p r).keeper = s.keeper := by cases p <;> rfl
@[simp] theorem State.passToLink_power (s : State) (p : Port) (r : LinkReq) : (s.passToLink p r).power = s.power := by cases p <;> rfl
@[simp] theorem State.passToLink_dap (s : State) (p : Port) (r : LinkReq) : (s.passToLink p r).dap = s.dap := by cases p <;> rfl
@[simp] theorem State.passToLink_fabric (s : State) (p : Port) (r : LinkReq) : (s.passToLink p r).fabric = s.fabric := by cases p <;> rfl
@[simp] theorem State.passToLink_wired (s : State) (p : Port) (r : LinkReq) : (s.passToLink p r).wired = s.wired := by cases p <;> rfl
@[simp] theorem State.passToLink_queues (s : State) (p : Port) (r : LinkReq) : (s.passToLink p r).queues = s.queues := by cases p <;> rfl
@[simp] theorem State.passToLink_xlate (s : State) (p : Port) (r : LinkReq) : (s.passToLink p r).xlate = s.xlate := by cases p <;> rfl
@[simp] theorem State.passToLink_ledger (s : State) (p : Port) (r : LinkReq) : (s.passToLink p r).ledger = s.ledger := by cases p <;> rfl
@[simp] theorem State.passToLink_conduct (s : State) (p : Port) (r : LinkReq) : (s.passToLink p r).conduct = s.conduct := by cases p <;> rfl
@[simp] theorem State.passToLink_auth (s : State) (p : Port) (r : LinkReq) : (s.passToLink p r).auth = s.auth := by cases p <;> rfl
@[simp] theorem State.passToLink_scratch (s : State) (p : Port) (r : LinkReq) : (s.passToLink p r).scratch = s.scratch := by cases p <;> rfl
@[simp] theorem State.passToLink_hatch (s : State) (p : Port) (r : LinkReq) : (s.passToLink p r).hatch = s.hatch := by cases p <;> rfl
@[simp] theorem State.passToLink_sideband (s : State) (p : Port) (r : LinkReq) : (s.passToLink p r).sideband = s.sideband := by cases p <;> rfl
@[simp] theorem State.passToLink_image (s : State) (p : Port) (r : LinkReq) : (s.passToLink p r).image = s.image := by cases p <;> rfl

/-! ### State.hold -/

@[simp] theorem State.hold_held (s : State) (r : Req) (a : Access) : (s.hold r a).held = s.held ++ [(r, a)] := rfl
@[simp] theorem State.hold_now (s : State) (r : Req) (a : Access) : (s.hold r a).now = s.now := rfl
@[simp] theorem State.hold_free (s : State) (r : Req) (a : Access) : (s.hold r a).free = s.free := rfl
@[simp] theorem State.hold_pending (s : State) (r : Req) (a : Access) : (s.hold r a).pending = s.pending := rfl
@[simp] theorem State.hold_out (s : State) (r : Req) (a : Access) : (s.hold r a).out = s.out := rfl
@[simp] theorem State.hold_dur (s : State) (r : Req) (a : Access) : (s.hold r a).dur = s.dur := rfl
@[simp] theorem State.hold_mram (s : State) (r : Req) (a : Access) : (s.hold r a).mram = s.mram := rfl
@[simp] theorem State.hold_durab (s : State) (r : Req) (a : Access) : (s.hold r a).durab = s.durab := rfl
@[simp] theorem State.hold_nv (s : State) (r : Req) (a : Access) : (s.hold r a).nv = s.nv := rfl
@[simp] theorem State.hold_keeper (s : State) (r : Req) (a : Access) : (s.hold r a).keeper = s.keeper := rfl
@[simp] theorem State.hold_power (s : State) (r : Req) (a : Access) : (s.hold r a).power = s.power := rfl
@[simp] theorem State.hold_dap (s : State) (r : Req) (a : Access) : (s.hold r a).dap = s.dap := rfl
@[simp] theorem State.hold_fabric (s : State) (r : Req) (a : Access) : (s.hold r a).fabric = s.fabric := rfl
@[simp] theorem State.hold_wired (s : State) (r : Req) (a : Access) : (s.hold r a).wired = s.wired := rfl
@[simp] theorem State.hold_queues (s : State) (r : Req) (a : Access) : (s.hold r a).queues = s.queues := rfl
@[simp] theorem State.hold_xlate (s : State) (r : Req) (a : Access) : (s.hold r a).xlate = s.xlate := rfl
@[simp] theorem State.hold_ledger (s : State) (r : Req) (a : Access) : (s.hold r a).ledger = s.ledger := rfl
@[simp] theorem State.hold_portA (s : State) (r : Req) (a : Access) : (s.hold r a).portA = s.portA := rfl
@[simp] theorem State.hold_portB (s : State) (r : Req) (a : Access) : (s.hold r a).portB = s.portB := rfl
@[simp] theorem State.hold_conduct (s : State) (r : Req) (a : Access) : (s.hold r a).conduct = s.conduct := rfl
@[simp] theorem State.hold_auth (s : State) (r : Req) (a : Access) : (s.hold r a).auth = s.auth := rfl
@[simp] theorem State.hold_scratch (s : State) (r : Req) (a : Access) : (s.hold r a).scratch = s.scratch := rfl
@[simp] theorem State.hold_hatch (s : State) (r : Req) (a : Access) : (s.hold r a).hatch = s.hatch := rfl
@[simp] theorem State.hold_sideband (s : State) (r : Req) (a : Access) : (s.hold r a).sideband = s.sideband := rfl
@[simp] theorem State.hold_image (s : State) (r : Req) (a : Access) : (s.hold r a).image = s.image := rfl

/-! ### State.answerRead -/

@[simp] theorem State.answerRead_now (s : State) (r : Reader) (v : Word) : (s.answerRead r v).now = s.now := by unfold State.answerRead; split <;> rfl
@[simp] theorem State.answerRead_free (s : State) (r : Reader) (v : Word) : (s.answerRead r v).free = s.free := by unfold State.answerRead; split <;> rfl
@[simp] theorem State.answerRead_pending (s : State) (r : Reader) (v : Word) : (s.answerRead r v).pending = s.pending := by unfold State.answerRead; split <;> rfl
@[simp] theorem State.answerRead_held (s : State) (r : Reader) (v : Word) : (s.answerRead r v).held = s.held := by unfold State.answerRead; split <;> rfl
@[simp] theorem State.answerRead_dur (s : State) (r : Reader) (v : Word) : (s.answerRead r v).dur = s.dur := by unfold State.answerRead; split <;> rfl
@[simp] theorem State.answerRead_mram (s : State) (r : Reader) (v : Word) : (s.answerRead r v).mram = s.mram := by unfold State.answerRead; split <;> rfl
@[simp] theorem State.answerRead_durab (s : State) (r : Reader) (v : Word) : (s.answerRead r v).durab = s.durab := by unfold State.answerRead; split <;> rfl
@[simp] theorem State.answerRead_nv (s : State) (r : Reader) (v : Word) : (s.answerRead r v).nv = s.nv := by unfold State.answerRead; split <;> rfl
@[simp] theorem State.answerRead_keeper (s : State) (r : Reader) (v : Word) : (s.answerRead r v).keeper = s.keeper := by unfold State.answerRead; split <;> rfl
@[simp] theorem State.answerRead_power (s : State) (r : Reader) (v : Word) : (s.answerRead r v).power = s.power := by unfold State.answerRead; split <;> rfl
@[simp] theorem State.answerRead_dap (s : State) (r : Reader) (v : Word) : (s.answerRead r v).dap = s.dap := by unfold State.answerRead; split <;> rfl
@[simp] theorem State.answerRead_fabric (s : State) (r : Reader) (v : Word) : (s.answerRead r v).fabric = s.fabric := by unfold State.answerRead; split <;> rfl
@[simp] theorem State.answerRead_wired (s : State) (r : Reader) (v : Word) : (s.answerRead r v).wired = s.wired := by unfold State.answerRead; split <;> rfl
@[simp] theorem State.answerRead_queues (s : State) (r : Reader) (v : Word) : (s.answerRead r v).queues = s.queues := by unfold State.answerRead; split <;> rfl
@[simp] theorem State.answerRead_xlate (s : State) (r : Reader) (v : Word) : (s.answerRead r v).xlate = s.xlate := by unfold State.answerRead; split <;> rfl
@[simp] theorem State.answerRead_ledger (s : State) (r : Reader) (v : Word) : (s.answerRead r v).ledger = s.ledger := by unfold State.answerRead; split <;> rfl
@[simp] theorem State.answerRead_portA (s : State) (r : Reader) (v : Word) : (s.answerRead r v).portA = s.portA := by unfold State.answerRead; split <;> rfl
@[simp] theorem State.answerRead_portB (s : State) (r : Reader) (v : Word) : (s.answerRead r v).portB = s.portB := by unfold State.answerRead; split <;> rfl
@[simp] theorem State.answerRead_conduct (s : State) (r : Reader) (v : Word) : (s.answerRead r v).conduct = s.conduct := by unfold State.answerRead; split <;> rfl
@[simp] theorem State.answerRead_auth (s : State) (r : Reader) (v : Word) : (s.answerRead r v).auth = s.auth := by unfold State.answerRead; split <;> rfl
@[simp] theorem State.answerRead_scratch (s : State) (r : Reader) (v : Word) : (s.answerRead r v).scratch = s.scratch := by unfold State.answerRead; split <;> rfl
@[simp] theorem State.answerRead_hatch (s : State) (r : Reader) (v : Word) : (s.answerRead r v).hatch = s.hatch := by unfold State.answerRead; split <;> rfl
@[simp] theorem State.answerRead_sideband (s : State) (r : Reader) (v : Word) : (s.answerRead r v).sideband = s.sideband := by unfold State.answerRead; split <;> rfl
@[simp] theorem State.answerRead_image (s : State) (r : Reader) (v : Word) : (s.answerRead r v).image = s.image := by unfold State.answerRead; split <;> rfl

/-! ### State.modLedger -/

@[simp] theorem State.modLedger_ledger (s : State) (f : Ledger → Ledger) : (s.modLedger f).ledger = f s.ledger := rfl
@[simp] theorem State.modLedger_now (s : State) (f : Ledger → Ledger) : (s.modLedger f).now = s.now := rfl
@[simp] theorem State.modLedger_free (s : State) (f : Ledger → Ledger) : (s.modLedger f).free = s.free := rfl
@[simp] theorem State.modLedger_pending (s : State) (f : Ledger → Ledger) : (s.modLedger f).pending = s.pending := rfl
@[simp] theorem State.modLedger_out (s : State) (f : Ledger → Ledger) : (s.modLedger f).out = s.out := rfl
@[simp] theorem State.modLedger_held (s : State) (f : Ledger → Ledger) : (s.modLedger f).held = s.held := rfl
@[simp] theorem State.modLedger_dur (s : State) (f : Ledger → Ledger) : (s.modLedger f).dur = s.dur := rfl
@[simp] theorem State.modLedger_mram (s : State) (f : Ledger → Ledger) : (s.modLedger f).mram = s.mram := rfl
@[simp] theorem State.modLedger_durab (s : State) (f : Ledger → Ledger) : (s.modLedger f).durab = s.durab := rfl
@[simp] theorem State.modLedger_nv (s : State) (f : Ledger → Ledger) : (s.modLedger f).nv = s.nv := rfl
@[simp] theorem State.modLedger_keeper (s : State) (f : Ledger → Ledger) : (s.modLedger f).keeper = s.keeper := rfl
@[simp] theorem State.modLedger_power (s : State) (f : Ledger → Ledger) : (s.modLedger f).power = s.power := rfl
@[simp] theorem State.modLedger_dap (s : State) (f : Ledger → Ledger) : (s.modLedger f).dap = s.dap := rfl
@[simp] theorem State.modLedger_fabric (s : State) (f : Ledger → Ledger) : (s.modLedger f).fabric = s.fabric := rfl
@[simp] theorem State.modLedger_wired (s : State) (f : Ledger → Ledger) : (s.modLedger f).wired = s.wired := rfl
@[simp] theorem State.modLedger_queues (s : State) (f : Ledger → Ledger) : (s.modLedger f).queues = s.queues := rfl
@[simp] theorem State.modLedger_xlate (s : State) (f : Ledger → Ledger) : (s.modLedger f).xlate = s.xlate := rfl
@[simp] theorem State.modLedger_portA (s : State) (f : Ledger → Ledger) : (s.modLedger f).portA = s.portA := rfl
@[simp] theorem State.modLedger_portB (s : State) (f : Ledger → Ledger) : (s.modLedger f).portB = s.portB := rfl
@[simp] theorem State.modLedger_conduct (s : State) (f : Ledger → Ledger) : (s.modLedger f).conduct = s.conduct := rfl
@[simp] theorem State.modLedger_auth (s : State) (f : Ledger → Ledger) : (s.modLedger f).auth = s.auth := rfl
@[simp] theorem State.modLedger_scratch (s : State) (f : Ledger → Ledger) : (s.modLedger f).scratch = s.scratch := rfl
@[simp] theorem State.modLedger_hatch (s : State) (f : Ledger → Ledger) : (s.modLedger f).hatch = s.hatch := rfl
@[simp] theorem State.modLedger_sideband (s : State) (f : Ledger → Ledger) : (s.modLedger f).sideband = s.sideband := rfl
@[simp] theorem State.modLedger_image (s : State) (f : Ledger → Ledger) : (s.modLedger f).image = s.image := rfl

/-! ### State.modHatch -/

@[simp] theorem State.modHatch_hatch (s : State) (f : Hatch → Hatch) : (s.modHatch f).hatch = f s.hatch := rfl
@[simp] theorem State.modHatch_now (s : State) (f : Hatch → Hatch) : (s.modHatch f).now = s.now := rfl
@[simp] theorem State.modHatch_free (s : State) (f : Hatch → Hatch) : (s.modHatch f).free = s.free := rfl
@[simp] theorem State.modHatch_pending (s : State) (f : Hatch → Hatch) : (s.modHatch f).pending = s.pending := rfl
@[simp] theorem State.modHatch_out (s : State) (f : Hatch → Hatch) : (s.modHatch f).out = s.out := rfl
@[simp] theorem State.modHatch_held (s : State) (f : Hatch → Hatch) : (s.modHatch f).held = s.held := rfl
@[simp] theorem State.modHatch_dur (s : State) (f : Hatch → Hatch) : (s.modHatch f).dur = s.dur := rfl
@[simp] theorem State.modHatch_mram (s : State) (f : Hatch → Hatch) : (s.modHatch f).mram = s.mram := rfl
@[simp] theorem State.modHatch_durab (s : State) (f : Hatch → Hatch) : (s.modHatch f).durab = s.durab := rfl
@[simp] theorem State.modHatch_nv (s : State) (f : Hatch → Hatch) : (s.modHatch f).nv = s.nv := rfl
@[simp] theorem State.modHatch_keeper (s : State) (f : Hatch → Hatch) : (s.modHatch f).keeper = s.keeper := rfl
@[simp] theorem State.modHatch_power (s : State) (f : Hatch → Hatch) : (s.modHatch f).power = s.power := rfl
@[simp] theorem State.modHatch_dap (s : State) (f : Hatch → Hatch) : (s.modHatch f).dap = s.dap := rfl
@[simp] theorem State.modHatch_fabric (s : State) (f : Hatch → Hatch) : (s.modHatch f).fabric = s.fabric := rfl
@[simp] theorem State.modHatch_wired (s : State) (f : Hatch → Hatch) : (s.modHatch f).wired = s.wired := rfl
@[simp] theorem State.modHatch_queues (s : State) (f : Hatch → Hatch) : (s.modHatch f).queues = s.queues := rfl
@[simp] theorem State.modHatch_xlate (s : State) (f : Hatch → Hatch) : (s.modHatch f).xlate = s.xlate := rfl
@[simp] theorem State.modHatch_ledger (s : State) (f : Hatch → Hatch) : (s.modHatch f).ledger = s.ledger := rfl
@[simp] theorem State.modHatch_portA (s : State) (f : Hatch → Hatch) : (s.modHatch f).portA = s.portA := rfl
@[simp] theorem State.modHatch_portB (s : State) (f : Hatch → Hatch) : (s.modHatch f).portB = s.portB := rfl
@[simp] theorem State.modHatch_conduct (s : State) (f : Hatch → Hatch) : (s.modHatch f).conduct = s.conduct := rfl
@[simp] theorem State.modHatch_auth (s : State) (f : Hatch → Hatch) : (s.modHatch f).auth = s.auth := rfl
@[simp] theorem State.modHatch_scratch (s : State) (f : Hatch → Hatch) : (s.modHatch f).scratch = s.scratch := rfl
@[simp] theorem State.modHatch_sideband (s : State) (f : Hatch → Hatch) : (s.modHatch f).sideband = s.sideband := rfl
@[simp] theorem State.modHatch_image (s : State) (f : Hatch → Hatch) : (s.modHatch f).image = s.image := rfl

/-! ### State.modAuth -/

@[simp] theorem State.modAuth_auth (s : State) (r : Req) (f : Auth → Auth) : (s.modAuth r f).auth = s.auth.set r (f (s.auth.get r)) := rfl
@[simp] theorem State.modAuth_now (s : State) (r : Req) (f : Auth → Auth) : (s.modAuth r f).now = s.now := rfl
@[simp] theorem State.modAuth_free (s : State) (r : Req) (f : Auth → Auth) : (s.modAuth r f).free = s.free := rfl
@[simp] theorem State.modAuth_pending (s : State) (r : Req) (f : Auth → Auth) : (s.modAuth r f).pending = s.pending := rfl
@[simp] theorem State.modAuth_out (s : State) (r : Req) (f : Auth → Auth) : (s.modAuth r f).out = s.out := rfl
@[simp] theorem State.modAuth_held (s : State) (r : Req) (f : Auth → Auth) : (s.modAuth r f).held = s.held := rfl
@[simp] theorem State.modAuth_dur (s : State) (r : Req) (f : Auth → Auth) : (s.modAuth r f).dur = s.dur := rfl
@[simp] theorem State.modAuth_mram (s : State) (r : Req) (f : Auth → Auth) : (s.modAuth r f).mram = s.mram := rfl
@[simp] theorem State.modAuth_durab (s : State) (r : Req) (f : Auth → Auth) : (s.modAuth r f).durab = s.durab := rfl
@[simp] theorem State.modAuth_nv (s : State) (r : Req) (f : Auth → Auth) : (s.modAuth r f).nv = s.nv := rfl
@[simp] theorem State.modAuth_keeper (s : State) (r : Req) (f : Auth → Auth) : (s.modAuth r f).keeper = s.keeper := rfl
@[simp] theorem State.modAuth_power (s : State) (r : Req) (f : Auth → Auth) : (s.modAuth r f).power = s.power := rfl
@[simp] theorem State.modAuth_dap (s : State) (r : Req) (f : Auth → Auth) : (s.modAuth r f).dap = s.dap := rfl
@[simp] theorem State.modAuth_fabric (s : State) (r : Req) (f : Auth → Auth) : (s.modAuth r f).fabric = s.fabric := rfl
@[simp] theorem State.modAuth_wired (s : State) (r : Req) (f : Auth → Auth) : (s.modAuth r f).wired = s.wired := rfl
@[simp] theorem State.modAuth_queues (s : State) (r : Req) (f : Auth → Auth) : (s.modAuth r f).queues = s.queues := rfl
@[simp] theorem State.modAuth_xlate (s : State) (r : Req) (f : Auth → Auth) : (s.modAuth r f).xlate = s.xlate := rfl
@[simp] theorem State.modAuth_ledger (s : State) (r : Req) (f : Auth → Auth) : (s.modAuth r f).ledger = s.ledger := rfl
@[simp] theorem State.modAuth_portA (s : State) (r : Req) (f : Auth → Auth) : (s.modAuth r f).portA = s.portA := rfl
@[simp] theorem State.modAuth_portB (s : State) (r : Req) (f : Auth → Auth) : (s.modAuth r f).portB = s.portB := rfl
@[simp] theorem State.modAuth_conduct (s : State) (r : Req) (f : Auth → Auth) : (s.modAuth r f).conduct = s.conduct := rfl
@[simp] theorem State.modAuth_scratch (s : State) (r : Req) (f : Auth → Auth) : (s.modAuth r f).scratch = s.scratch := rfl
@[simp] theorem State.modAuth_hatch (s : State) (r : Req) (f : Auth → Auth) : (s.modAuth r f).hatch = s.hatch := rfl
@[simp] theorem State.modAuth_sideband (s : State) (r : Req) (f : Auth → Auth) : (s.modAuth r f).sideband = s.sideband := rfl
@[simp] theorem State.modAuth_image (s : State) (r : Req) (f : Auth → Auth) : (s.modAuth r f).image = s.image := rfl

/-! ### State.modSb -/

@[simp] theorem State.modSb_sideband (s : State) (f : Sideband → Sideband) : (s.modSb f).sideband = f s.sideband := rfl
@[simp] theorem State.modSb_now (s : State) (f : Sideband → Sideband) : (s.modSb f).now = s.now := rfl
@[simp] theorem State.modSb_free (s : State) (f : Sideband → Sideband) : (s.modSb f).free = s.free := rfl
@[simp] theorem State.modSb_pending (s : State) (f : Sideband → Sideband) : (s.modSb f).pending = s.pending := rfl
@[simp] theorem State.modSb_out (s : State) (f : Sideband → Sideband) : (s.modSb f).out = s.out := rfl
@[simp] theorem State.modSb_held (s : State) (f : Sideband → Sideband) : (s.modSb f).held = s.held := rfl
@[simp] theorem State.modSb_dur (s : State) (f : Sideband → Sideband) : (s.modSb f).dur = s.dur := rfl
@[simp] theorem State.modSb_mram (s : State) (f : Sideband → Sideband) : (s.modSb f).mram = s.mram := rfl
@[simp] theorem State.modSb_durab (s : State) (f : Sideband → Sideband) : (s.modSb f).durab = s.durab := rfl
@[simp] theorem State.modSb_nv (s : State) (f : Sideband → Sideband) : (s.modSb f).nv = s.nv := rfl
@[simp] theorem State.modSb_keeper (s : State) (f : Sideband → Sideband) : (s.modSb f).keeper = s.keeper := rfl
@[simp] theorem State.modSb_power (s : State) (f : Sideband → Sideband) : (s.modSb f).power = s.power := rfl
@[simp] theorem State.modSb_dap (s : State) (f : Sideband → Sideband) : (s.modSb f).dap = s.dap := rfl
@[simp] theorem State.modSb_fabric (s : State) (f : Sideband → Sideband) : (s.modSb f).fabric = s.fabric := rfl
@[simp] theorem State.modSb_wired (s : State) (f : Sideband → Sideband) : (s.modSb f).wired = s.wired := rfl
@[simp] theorem State.modSb_queues (s : State) (f : Sideband → Sideband) : (s.modSb f).queues = s.queues := rfl
@[simp] theorem State.modSb_xlate (s : State) (f : Sideband → Sideband) : (s.modSb f).xlate = s.xlate := rfl
@[simp] theorem State.modSb_ledger (s : State) (f : Sideband → Sideband) : (s.modSb f).ledger = s.ledger := rfl
@[simp] theorem State.modSb_portA (s : State) (f : Sideband → Sideband) : (s.modSb f).portA = s.portA := rfl
@[simp] theorem State.modSb_portB (s : State) (f : Sideband → Sideband) : (s.modSb f).portB = s.portB := rfl
@[simp] theorem State.modSb_conduct (s : State) (f : Sideband → Sideband) : (s.modSb f).conduct = s.conduct := rfl
@[simp] theorem State.modSb_auth (s : State) (f : Sideband → Sideband) : (s.modSb f).auth = s.auth := rfl
@[simp] theorem State.modSb_scratch (s : State) (f : Sideband → Sideband) : (s.modSb f).scratch = s.scratch := rfl
@[simp] theorem State.modSb_hatch (s : State) (f : Sideband → Sideband) : (s.modSb f).hatch = s.hatch := rfl
@[simp] theorem State.modSb_image (s : State) (f : Sideband → Sideband) : (s.modSb f).image = s.image := rfl

/-! ### Reads through a Per3 -/

@[simp] theorem Per3.get_set {α : Type} (x : Per3 α) (r : Req) (v : α) : (x.set r v).get r = v := by cases r <;> rfl

/-- Another requester's copy than the one just set. -/
theorem Per3.get_set_other {α : Type} (x : Per3 α) (r q : Req) (v : α) (h : q ≠ r) : (x.set r v).get q = x.get q := by
  cases r <;> cases q <;> first | rfl | exact absurd rfl h

@[simp] theorem Per3.get_all {α : Type} (x : Per3 α) (f : α → α) (r : Req) : (x.all f).get r = f (x.get r) := by
  cases r <;> rfl

end Sys2Proof.Machine
end

