-- ==== Sys2Proof/Tests/Slice0.lean ====
section
/-!
SUPPORT. Tests. The ill-formed terms that each check of WellFormed refuses; the manual's worked examples and
tables, each test's source in its comment; and for every statement with hypotheses a state and operands that
meet them.
-/

namespace Sys2Proof.Tests

open Sys2Proof Sys2Proof.Machine

set_option Elab.async false

/-! ### States to test on -/

/-- What a command leaves behind. -/
def after (c : Instr) (s : State) : State :=
  match exec c s with
  | .next t => t
  | _ => s

/-- A port whose link is up and which may issue. -/
def openPort : PortState :=
  { PortState.initial with linkUp := true, perst := false, ready := true, busMaster := true }

/-- The core runs in P1, ready, both links up, the Shutter open, nothing configured. -/
def live : State :=
  { State.reset with
    keeper := { Keeper.initial with
      vddCore := true, vddio := true, strapsSampled := true, pgood := true, pstate := .p1, rdy := true,
      serving := true, romChecked := true }
    portA := openPort
    portB := openPort
    fabric := { Fabric.initial with shutter := false }
    wired := { Wired.initial with sampling := true } }

/-- Off, with supplies and PGOOD: the Keeper may release the core. -/
def off : State := { State.reset with keeper := { Keeper.initial with strapsSampled := true, pgood := true } }

/-- A source in `live`. -/
def withSource (sn : Nat) (r : Source) : State := { live with dur := { live.dur with sources := [(sn, r)] } }

/-- A target in a state. -/
def withTarget (tn : Nat) (t : Target) (s : State) : State := { s with dur := { s.dur with targets := [(tn, t)] } }

/-- A slot of a Delivery island in a state. -/
def withSlot (tn : Nat) (c : Cls) (d : DSlot) (s : State) : State :=
  { s with fabric := { s.fabric with dslots := [(tkey tn c, d)] } }

/-- A queue with its volatile part in a state. -/
def withQueue (q : Nat) (d : Queue) (v : QVol) (s : State) : State :=
  { s with dur := { s.dur with queues := [(q, d)] }, queues := { s.queues with vol := [(q, v)] } }

/-- A RUNNING queue 0 that has taken one item of an entry. -/
def serving (it : Item) : State :=
  withQueue 0 { Queue.initial with items := [it], prod := 1, take := 1 } { QVol.initial with state := .running } live

/-- An entry of 64 bytes: its KIND, its FLAGS, its bytes from 16 on. -/
def entryOf (kind flags : Byte) (rest : List Byte) : List Byte :=
  bytesAt ([kind, flags] ++ List.replicate 14 0 ++ rest) 0 64

/-- A Sill frame of chips: Manchester cells of the bits after SYNC (WS.4). -/
def frameOf (bits80 : List Bool) : SillFrame :=
  { sync := 0xF0F09966, cells := bits80.map fun b => (!b, b), nextSync := some 96 }

/-- A posted write of whole bytes. -/
def wholeWrite (off : Nat) (data : List Byte) : HostWrite :=
  { offset := off, data := data, enables := List.replicate data.length true }

/-- A slot written without a retry; a Storm and a boot without losses. -/
def calmCheck : WriteCheck := { retries := 0, failed := false, uncorrectable := false }
def calmStorm : StormInput :=
  { vhold10mV := 1198, retries := [], failed := [], captureUs := 900, ending := .complete }
def calmBoot : BootInput :=
  { supplies := true, reference := true, vholdMv := 12000, storeBadA := false, storeBadB := false, badPlaces := [],
    benignBytes := 0, conflict := false, errors := [] }

/-! ### Each check of WellFormed refuses an ill-formed term -/

theorem test_wf_refuses :
    (Instr.islandDoze ⟨.gather, 64⟩).wf = false ∧ (Instr.cutToken ⟨.keeper, 1⟩).wf = false ∧
    (Instr.letterboxSingleWrite .a 0 { offset := 0, data := [0, 0], enables := [true] }).wf = false ∧
    (Instr.registerWrite .a .bar0 { offset := 0, data := [], enables := [] }).wf = false ∧
    (Instr.hostReadComplete 0 (.data [])).wf = false ∧
    (Instr.ringFetchComplete 0 65536 .poisoned).wf = false ∧
    (Instr.hostReadTimeout (.ringFetch 0 65536)).wf = false ∧
    (Instr.sillFrame 0 { frameOf [] with nextSync := some 0 }).wf = false ∧
    (Instr.pwrfail { calmStorm with failed := [32 * 16384] }).wf = false ∧
    (Instr.keeperRelease { calmBoot with errors := [⟨32 * 16384, 0, true⟩] }).wf = false ∧
    (Instr.rcRead .a .bar0 0 0).wf = false ∧ (Instr.rcRead .a .bar0 0 65).wf = false ∧
    (Instr.mctpMessage { dest := 0, src := 0, tag := 0, slave := 0, packets := [] }).wf = false ∧
    (Instr.imageStageData .linkA []).wf = false ∧ (Instr.sourceConfigWrite .linkA 0 []).wf = false ∧
    (Instr.lineConfigWrite .linkA 0 []).wf = false ∧ (Instr.laneControlWrite .linkA 0 []).wf = false ∧
    (Instr.invalidateRange .linkA []).wf = false ∧ (Instr.bar4Read .a 0 0).wf = false ∧
    (Instr.bar4Read .a 0 4097).wf = false ∧ (Instr.mirrorWrite 0 (32 * 16384) calmCheck).wf = false := by decide +kernel

theorem test_wf_accepts :
    (Instr.islandDoze ⟨.gather, 63⟩).wf = true ∧ (Instr.cutToken ⟨.keeper, 0⟩).wf = true ∧
    (Instr.registerWrite .a .bar0 (wholeWrite 0 [1, 2, 3, 4])).wf = true ∧
    (Instr.ringFetchComplete 0 65535 .poisoned).wf = true ∧ (Instr.mirrorWrite 0 (32 * 16384 - 1) calmCheck).wf = true ∧
    (Instr.bar4Read .a 0 4096).wf = true ∧ (Instr.rcRead .a .bar0 3 64).wf = true := by decide +kernel

/-! ### The block's edges -/

/-- No row of the table gives bits, so no word spells a command. -/
theorem test_no_word_spells_a_command : decodeTableWord 16 0x1234 = none := by decide +kernel

/-- The command at the front runs first; SYNC reads as 0 (R94). -/
theorem test_step_front : step { live with pending := [.syncRead .a, .syncRead .b] } =
    exec (.syncRead .a) { live with pending := [.syncRead .b] } ∧ (after (.syncRead .a) live).out = [.readWord .a 0] :=
  ⟨rfl, by decide +kernel⟩

/-! ### The manual's worked examples -/

/-- Example IH-1: SN 0x00_1A3C enters at Gather island 21 and lies in Store bank 11. -/
theorem test_example_ih1 : gatherOf 0x1A3C = 21 ∧ bankOf 0x1A3C = 11 := by decide +kernel

/-- Example DL-1: SN 0x10_1305 enters at Gather island 8 and lies in Store bank 24. -/
theorem test_example_dl1_places : gatherOf 0x101305 = 8 ∧ bankOf 0x101305 = 24 := by decide +kernel

/-- Example SC-1: lane 12, line 40 is SN 0x10_0528. -/
theorem test_example_sc1 : lineSn 12 40 = 0x100528 := by decide +kernel

/-- The bits of a list of bytes, most significant first. -/
def msbBits (bs : List Byte) : List Bool := bs.flatMap fun b => (List.range 8).map fun i => b.getLsbD (7 - i)

/-- The frame of Example WS-1: SEQ 0x37, 64 line bits with ones at t = 27 and t = 64, CRC 0xD3 (cells from 16 on). -/
def exampleFrame : SillFrame :=
  frameOf (msbBits [0x37, 0x10, 0x00, 0x00, 0x00, 0x00, 0x80, 0x00, 0x00, 0xD3])

/-- Lane 12 as Example WS-1 finds it: LOCKED, SEQ 0x36 applied, line 3 high. -/
def lane12 : State :=
  { live with
    wired := { live.wired with lanes := [(12, { Lane.initial with
      state := .locked, lastSeq := 0x36, held := 8, fromOff := false })] }
    dur := { live.dur with lanes := [(12, { LaneCfg.initial with enable := true })] } }

/-- Example WS-1: the frame passes its CRC and reads SEQ 0x37; a flipped line bit fails it. -/
theorem test_example_ws1_crc : crcPasses (frameCells false exampleFrame) = true ∧
    seqOf (frameCells false exampleFrame) = some 0x37 ∧
    crcPasses (frameCells false (frameOf (msbBits [0x37, 0x10, 0, 0, 0, 0, 0x80, 0, 1, 0xD3]))) = false := by decide +kernel

/-- Example WS-1: line 40 and line 3 are high, SEQ 0x37 is the last applied. -/
theorem test_example_ws1_applied : let t := after (.sillFrame 12 exampleFrame) lane12
    (t.lane 12).held = BitVec.ofNat 64 (2 ^ 40 + 8) ∧ (t.lane 12).lastSeq = 0x37 := by decide +kernel

/-- TN 1234 of Example DL-1: Room 1, port A, its Normal Pane at IOVA 0x7F20_4D00, its wake write. -/
def tn1234 : Target :=
  { Target.initial with
    room := 1, enable := true, paneEnN := true, paneN := 0x7F204D00, wakeNAddr := 0x3E0000123400,
    wakeNData := 0x4D2, thrN := 200 }

/-- The offer of SN 0x10_1305 that Delivery island 19 holds in Example DL-1. -/
def offer1305 : OfferData := { sn := 0x101305, priority := 16, room := 1, noteLost := false, note := none }

/-- Example DL-1 at step 10: the offer is held, SEQ stands at 0x411, the Pane's page is latched. -/
def dl1 : State := withSlot 1234 .normal
  { DSlot.initial with offer := some offer1305, seq := 0x411, latch := some { page := 0x7F204, frame := 0x99 } }
  (withTarget 1234 tn1234 live)

/-- Example DL-1, steps 10 to 12: SEQ becomes 0x412; the Pane write and then the wake write are issued (Table DL-11). -/
theorem test_example_dl1_delivery : (after (.outboundIssue .a) (after (.deliver 1234 .normal) dl1)).out =
    [.memWrite .a 0x99D00 ([0x05, 0x13, 0x10, 0x00, 0x12, 0x04, 0x00, 0x00, 0x10, 0x01] ++ List.replicate 54 0),
     .memWrite .a 0x3E0000123400 [0xD2, 0x04, 0x00, 0x00]] := by decide +kernel

/-- Example DL-1 at step 14: the bank has accepted the claim of the delivered offer. -/
def dl1Claimed : State :=
  let s := withSlot 1234 .normal { DSlot.initial with
    offer := some offer1305, seq := 0x412, stage := .issued true, claiming := some (Reader.whole .a) }
    (withTarget 1234 tn1234 live)
  { s with fabric := { s.fabric with selectQ := [(19, [⟨idRank 4, 0, .answer 1234 .normal 0x101305 true false 7⟩])] } }

/-- Example DL-1, step 14: the claim read returns 0xC210_1305, and the slot holds the source. -/
theorem test_example_dl1_claim : (after (.claimAnswer 19) dl1Claimed).out = [.readWord .a 0xC2101305] ∧
    ((after (.claimAnswer 19) dl1Claimed).dslot 1234 .normal).holding = some 0x101305 := by decide +kernel

/-- A Pending Normal source of TN 17 with its priority, AGE and Room, where 65,535 claims have been counted. -/
def rival (sn priority age room : Nat) : Nat × Source :=
  (sn, { Source.initial with
    state := .pending, target := some 17, priority := priority, room := room, ageBase := 65535 - age })

/-- Example PK-1, where Rank island 0 knows of its sources. -/
def pk1 (sources : List (Nat × Source)) : State :=
  { live with
    dur := { live.dur with
      sources := sources
      targets := [(17, { Target.initial with room := 1, thrN := 200, thrF := 16 })]
      claims := [(tkey 17 .normal, 65535)]
      g := { live.dur.g with reach := setAt live.dur.g.reach 0 3 } }
    fabric := { live.fabric with view := [(tkey 17 .normal, sources.map fun p => (p.1, candOf p.2))] } }

/-- Example PK-1: the source of AGE 65,535 first; without it SN 0x00_0212, by AGE over SN 0x00_0211. -/
theorem test_example_pk1 :
    (firstEligible (pk1 [rival 0x211 64 12 1, rival 0x212 64 30 1, rival 0x400 220 40 1, rival 0x500 180 65535 1,
      rival 0x100031 96 5 0]) 17 .normal).map Prod.fst = some 0x500 ∧
    (firstEligible (pk1 [rival 0x211 64 13 1, rival 0x212 64 31 1, rival 0x400 220 41 1, rival 0x100031 96 6 0])
      17 .normal).map Prod.fst = some 0x212 ∧
    firstEligible (pk1 [rival 0x400 220 41 1]) 17 .normal = none := by decide +kernel

/-- The note write of Example LB-2: bytes 0-3 are 3C 1A 00 00, bytes 16-31 the record. -/
def lb2Write (off : Nat) (sn : Byte) : HostWrite :=
  wholeWrite off ([sn, 0x1A, 0, 0] ++ List.replicate 12 0 ++ List.replicate 16 0xAA)

/-- Example LB-2's appliance: LetterboxRoomEnable is 0x0002, SN 0x00_1A3C is Active in Room 1 with one note. -/
def lb2 : State :=
  let s := withSource 0x1A3C { Source.initial with
    state := .active, room := 1, target := some 2345, holder := some (2345, .normal), notes := [List.replicate 16 1] }
  { s with dur := { s.dur with g := { s.dur.g with roomEnable := 2 } } }

/-- Example LB-2: the double write enters through Gather island 21 with its note; offset 0x9000 lies in Room 0's window,
so that write counts RoomClosed and records REASON 3, ROOM 0, SN 0x00_1A3D and OFFSET 0x9000. -/
theorem test_example_lb2 :
    (after (.letterboxDoubleWrite .a 7 (lb2Write 0x9100 0x3C)) lb2).portA.staging =
      [{ gather := 21, event := .letterbox .a 7 0x9100 0x1A3C 1 (some (List.replicate 16 0xAA)) }] ∧
    (let t := after (.letterboxDoubleWrite .a 7 (lb2Write 0x9000 0x3D)) lb2
     t.portA.roomClosed = 1 ∧ t.portA.staging = [] ∧
       t.conduct.sb.lastReject = ⟨true, .a, 3, 0, 0x1A3D, 7, 0x9000⟩ ∧
       t.fabric.gatherQ = [(gatherOf 0x101040, [⟨idLink .a, 0, .raise 0x101040⟩])]) := by decide +kernel

/-- Example WQ-1: QUEUE_CONFIG 0x0000_010A is a ring of 1,024 entries of Room 1. -/
theorem test_example_wq1_config : let t := after (.queueConfigWrite .linkA 5 0x10A) live
    (t.queue 5).sizeLog2 = 10 ∧ (t.queue 5).room = 1 ∧ (t.queue 5).modeC = false := by decide +kernel

/-- Example WQ-1: CONS 0x3F0, PROD 0x3FE; PROD 0x001 is accepted; 1,024 is not less than the ring size (R411). -/
theorem test_example_wq1_prod :
    let d := { Queue.initial with sizeLog2 := 10, room := 1, cons := 0x3F0, prod := 0x3FE, take := 0x3FE }
    prodAccepts d 1 = true ∧ prodAccepts d 1024 = false ∧ prodAccepts d 0x3F0 = false := by decide +kernel

/-- Example TF-1: the completion image 01 04 00 00 and RESULT 0x0140_2A80 in bytes 4 to 15 of the entry. -/
theorem test_example_tf1_image :
    let it := Item.taken 0 (entryOf 6 8 [0x40, 0x2A, 0x40, 0x01, 0x40, 0, 5]) 0
    bytesAt (completionBytes it { code := 1, result := leBytes 4 0x1402A80 ++ leBytes 4 0, step := 4 }) 4 12 =
      [0x01, 0x04, 0x00, 0x00, 0x80, 0x2A, 0x40, 0x01, 0x00, 0x00, 0x00, 0x00] := by decide +kernel

/-- Example WI-1: the record 3C 1A 00 01 BD 01 00 00 routes SN 0x00_1A3C to TN 445, and 12 01 11 02 00 00 20 00 sets
the priority of SN 0x11_0112 to 32. -/
theorem test_example_wi1 :
    (decodeRecord [0x3C, 0x1A, 0, 1, 0xBD, 1, 0, 0]).1 =
      { sn := 0x1A3C, target := some (some 445), priority := none, cls := none, room := none, mask := none } ∧
    (decodeRecord [0x12, 1, 0x11, 2, 0, 0, 0x20, 0]).1 =
      { sn := 0x110112, target := none, priority := some 32, cls := none, room := none, mask := none } := by decide +kernel

/-- Example CN-1: the sideband holds the Hatch, its READ done; the ownership timeout frees it and logs FORMER_OWNER 3,
OPCODE 1, APPLIED 1, CAUSE 2 in every copy. -/
theorem test_example_cn1 :
    let t := after .hatchTimeout { live with hatch := { Hatch.initial with
      owner := some .sideband, opcode := 1, valid := true, applied := true, timerFrom := 1500 } }
    t.hatch.owner = none ∧ t.now = 1500 + 10000000 ∧
      t.conduct.a.abortLog = { valid := true, former := 3, opcode := 1, applied := true, cause := 2 } ∧
      t.conduct.sb.abortLog = t.conduct.a.abortLog := by decide +kernel

/-- A Mirpiral request of endpoint 8 to endpoint 0x1D. -/
def mirReq (inst : Byte) (command : Nat) (body : List Byte) : MirReq :=
  { dest := 0x1D, src := 8, tag := 0, slave := 0, keep := false, inst := inst, version := 0x10, command := command,
    bodyLen := body.length, body := body, arrived := 0 }

/-- The sideband executes a request. -/
def asking (q : MirReq) (s : State) : State :=
  { s with sideband := { Sideband.initial with eid := 0x1D, current := some q } }

/-- Example DS-1: the SET of SidebandHatchWait to 0 ends OK_CLAMPED (0x01); it holds 1, and the sideband's copy shows
CLAMPED. -/
theorem test_example_ds1 :
    let q := mirReq 0x2A 2 [0x20, 0x01, 0x02, 0, 0, 0, 2, 0, 0]
    let t := hatchComplete (mirHatch q 2 (asking q live))
    t.dur.g.sbHatchWait = 1 ∧ t.hatch.code = 1 ∧ t.conduct.sb.status.getLsbD 0 = true ∧ t.conduct.a.status = 0 := by
  decide +kernel

/-- A Mirpiral DESCRIBE of an object in the Sealed appliance. -/
def describing (object : List Byte) : State :=
  asking (mirReq 0x31 4 (object ++ [0, 0, 0])) { live with nv := { live.nv with sec := .sealed } }

/-- Example DC-1: DirtyBudget is RW for every requester, a U8 of 1 to 8; OwnerKey reads only, an OCT64. -/
theorem test_example_dc1 :
    ((after .describe (describing [0x00, 0x70, 1])).sideband.responses.map fun p => p.bytes.drop 12) =
      [[0x00, 0x70, 0x01, 0, 0, 0, 0x02, 0x01, 0x3F, 0x00, 0xFF, 0, 0, 0, 1, 0, 0, 0, 0, 0, 0, 0, 8, 0, 0, 0, 0, 0, 0,
        0]] ∧
    ((after .describe (describing [0x00, 0x90, 1])).sideband.responses.map fun p => p.bytes.drop 12) =
      [[0x00, 0x90, 0x01, 0, 0, 0, 0x0C, 0x40, 0x15, 0x02, 0xFF, 0, 0, 0] ++ List.replicate 16 0] := by decide +kernel

/-- Example SD-1: 0x12_0000_7004 writes DAP_ADDR, a PEEK of LEDGER_STATUS returns the OR of the copies (0x8), and one
of BAR4 in Sealed returns zero. -/
theorem test_example_sd1 :
    let s := { live with
      nv := { live.nv with sec := .sealed }
      dap := { live.dap with tap := .hydap, grant := 1 }
      ledger := { live.ledger with status := ⟨0, 0, 4⟩, mem := [(0x1402A40, 0x55)] } }
    let t := after .peek (after (.hydapAccess 0x1200007004) s)
    let u := after .peek (after (.hydapAccess 0x1281402A40) t)
    t.dap.data = 8 ∧ t.dap.capStatus = 0 ∧ u.dap.data = 0 := by decide +kernel

/-! ### Tables and rules of the manual -/

/-- Table CN-7: ID_PART reads 0x4096. -/
theorem test_id_part : (after (.rcRead .a .bar0 0 4) live).out = [.readWord .a 0x4096] := by decide +kernel

/-- Table SD-14: IDCODE is 0x2409_6A6B. -/
theorem test_idcode : (after .idcode live).out = [.tdo 32 0x24096A6B] := by decide +kernel

/-- R346 and Table DL-13: the Shutter closes and opens. -/
theorem test_shutter : (after (.shutterClose .linkA) live).fabric.shutter = true ∧
    (after (.shutterOpen .linkB) { live with fabric := .initial }).fabric.shutter = false := by decide +kernel

/-- R103: THRESHOLD 300 clamps to 256 with CLAMPED in the writer's copy. -/
theorem test_threshold_clamps : let t := after (.thresholdWrite .linkA 5 .normal 300) live
    (t.tgt 5).thrN = 256 ∧ t.conduct.a.status = 1 ∧ t.conduct.b.status = 0 := by decide +kernel

/-- Table PK-3: RAISE, an event that goes through Gather island G(SN), makes an Idle source Pending; WITHDRAW makes a
Pending one Idle. -/
theorem test_raise_withdraw :
    ((after (.stateUpdate 3) (after (.raise .linkA 0x42) live)).src 0x42).state = .pending ∧
    ((after (.withdraw .linkA 0x42) (withSource 0x42 { Source.initial with state := .pending })).src 0x42).state =
      .idle := by decide +kernel

/-- Table DL-5: an EOI of an SN that does not exist is an error of reason 1, of an Idle slot one of reason 3. -/
theorem test_eoi_errors :
    (after (.eoi .a 9 .normal 0x200000) live).conduct.b.eoiError.reason = 1 ∧
    (after (.eoi .a 9 .normal 0x42) live).conduct.b.eoiError.reason = 3 ∧
    (after (.eoi .a 9 .normal 0x42) live).fabric.eoiErrors = 1 := by decide +kernel

/-- R108: a partial write is counted with reason PARTIAL (Table CN-4) and writes nothing. -/
theorem test_partial_write :
    let t := after (.registerWrite .a .bar0 { offset := 0x18, data := [1, 2, 3, 4], enables := [true, true, true, false] })
      live
    t.scratch = 0 ∧ t.conduct.a.ignCount = 1 ∧ t.conduct.a.ignLast.reason = 5 := by decide +kernel

/-- R116: Deadbolts are only set. -/
theorem test_deadbolt_sticks : (after (.deadboltSet .linkA 0) (after (.deadboltSet .linkA 2) live)).keeper.deadbolts = 2 :=
  by decide +kernel

/-- Table WI-2: an entry of KIND 0 ends with BAD_KIND (3) at step 0. -/
theorem test_bad_kind :
    ((after (.engineServe 0) (serving (Item.taken 0 (entryOf 0 0 []) 0))).queue 0).items.map (fun it => it.ending) =
      [some { code := 3, result := List.replicate 8 0, step := 0 }] := by decide +kernel

/-- R488: TIMER_ARM of timer 7 by 5 µs; its expiry raises SN 0x10_1207. -/
theorem test_timer : let t := after (.timerArm 0) (serving (Item.taken 0 (entryOf 4 0 [7, 0, 0, 0, 5, 0, 0, 0]) 0))
    mget Timer.off t.dur.timers 7 = { due := 5000, period := none } ∧
      (after (.timerExpiry 7) t).fabric.gatherQ = [(gatherOf 0x101207, [⟨idQueue 0, 0, .raise 0x101207⟩])] := by
  decide +kernel

/-- R559, R562: a BAR4 write is read back, across a line's end. -/
theorem test_ledger_roundtrip :
    (after (.bar4Read .b 62 4) (after (.bar4Write .a (wholeWrite 62 [1, 2, 3, 4])) live)).out =
      [.readBytes .b [1, 2, 3, 4] false] := by decide +kernel

/-- R566: beyond the 64 MiB window a read is an Unsupported Request. -/
theorem test_ledger_window : (after (.bar4Read .a 0x3FFFFFF 2) live).out = [.unsupportedRequest .a] := by decide +kernel

/-- Table SD-2: SET_STATE from Provisioning to Sealed is not listed (AuthResult 5). -/
theorem test_transition_refused : ((after (.setState .linkA 2) live).auth.get .linkA).result = 5 := by decide +kernel

/-- R723, R724: a tamper with TamperAction 1 locks down, closes the Ledger and starts its zeroization. -/
theorem test_tamper :
    let t := after (.tamper false) { live with
      nv := { live.nv with tamperEnable := 1 }, ledger := { live.ledger with mem := [(0, 7)] } }
    t.nv.sec = .lockdown ∧ t.ledger.closed = true ∧ (after .zeroizeDone t).ledger.mem = [] := by decide +kernel

/-- R613, R620: with MirrorEnable 1 to 0 and back, the epoch advances and all four places hold its root. -/
theorem test_mirror : let t := after (.mirrorEnable .linkA) (after (.mirrorDisable .linkA) live)
    t.dur.g.epoch = 2 ∧ (t.mram.a0.map fun p => p.head.epoch) = some 2 ∧
    (t.mram.b1.map fun p => p.head.epoch) = some 2 := by decide +kernel

set_option maxRecDepth 100000 in
/-- A start from Off (R776, R779, R650): release, ROM match, recovery complete give RDY. -/
theorem test_start : let t := after .recoveryComplete (after (.bootRomVerify true) (after (.keeperRelease calmBoot) off))
    t.keeper.rdy = true ∧ t.keeper.pstate = .p1 ∧ t.keeper.restoreKind = .mirrorStart := by decide +kernel

set_option maxRecDepth 100000 in
/-- R630, Table DU-2: a Storm ends in P4 with a root of KIND 1 and the next epoch. -/
theorem test_storm :
    let t := after (.pwrfail calmStorm) live
    t.keeper.pstate = .p4 ∧ (t.mram.a0.map fun p => (p.head.kind, p.head.epoch)) = some (RootKind.storm, 2) := by
  decide +kernel

/-- CRC-32C of the ASCII digits 1 to 9 is 0xE306_9283 (the published check value). -/
theorem test_crc32c : crc32c [0x31, 0x32, 0x33, 0x34, 0x35, 0x36, 0x37, 0x38, 0x39] = 0xE3069283 := by decide +kernel

set_option maxRecDepth 100000 in
/-- SHA-384 of "abc" (the published example, its first and last eight bytes). -/
theorem test_sha384 : (sha384 [0x61, 0x62, 0x63]).take 8 = [0xCB, 0x00, 0x75, 0x3F, 0x45, 0xA3, 0x5E, 0x8B] ∧
    (sha384 [0x61, 0x62, 0x63]).drop 40 = [0x58, 0xBA, 0xEC, 0xA1, 0x34, 0xC8, 0x25, 0xA7] := by decide +kernel

/-! ### Witnesses: for each statement, states and operands that meet the hypotheses of each of its clauses

A hypothesis that a structure's field equality or a Boolean states stands here as it stands there. -/

/-- A state with no dirty line has room to dirty one. -/
theorem room_of_clean (s : State) (h : s.durab.dirty = []) (k : s.durab.owed = []) (b : 0 < s.dur.g.dirtyBudget) :
    roomToDirty s := by
  intro l
  have : ¬ quota s ≤ 0 := by unfold quota; omega
  simp [throttled, bankDirty, dirtyLines, h, k, this]

theorem live_has_room : roomToDirty live := room_of_clean _ rfl rfl (show 0 < 6 by decide)

theorem live_waits_for_nothing : nothingWaits live := ⟨rfl, rfl, rfl, rfl⟩

/-- A Ledger that holds a byte. -/
def stored : State := { live with ledger := { live.ledger with mem := [(5, 7)] } }

theorem witness_StepRunsTheFrontCommand : live.pending = [] ∧ nothingWaits live ∧ live.image.state ≠ .applying :=
  ⟨rfl, live_waits_for_nothing, by decide +kernel⟩

theorem witness_StoresStayCanonical : (∃ t, step stored = .next t) ∧ Memory.wf stored.ledger.mem = true ∧
    Memory.wf stored.image.buffer = true := ⟨⟨_, rfl⟩, by decide +kernel, by decide +kernel⟩

/-- The part has left Provisioning; and a record of another transition is under way. -/
theorem witness_ProvisioningIsLeftForGood :
    (∃ t, step { live with nv := { NvStore.initial with sec := .openState } } = .next t) ∧
    ({ NvStore.initial with sec := .openState } : NvStore).left ∧
    ({ NvStore.initial with sec := .openState, recording := some (.linkA, .sealed, false) } : NvStore).left :=
  ⟨⟨_, rfl⟩, ⟨by decide, by intro r t c h; cases h⟩, ⟨by decide, by intro r t c h; cases h; decide⟩⟩

theorem witness_QuietCommandsKeepTheStores :
    (Instr.scanEnter.quiet = true ∧ Instr.scanEnter.resumes = false ∧ ∃ t, exec .scanEnter live = .next t) ∧
    (Instr.rootCommit.quiet = true ∧ Instr.rootCommit.resumes = true ∧ nothingWaits live ∧
      ∃ t, exec .rootCommit live = .next t) := ⟨⟨rfl, rfl, _, rfl⟩, rfl, rfl, live_waits_for_nothing, _, rfl⟩

theorem witness_InputsSetTheirFields :
    (State.reset.keeper.vddAux = true ∧ State.reset.keeper.pgood = false) ∧
    (let s := { State.reset with now := 1000000 }
     s.keeper.vddAux = true ∧ s.keeper.strapsSampled = false ∧ s.keeper.auxAt + 1000000 ≤ s.now) ∧
    (live.keeper.vddAux = true ∧ live.inRun = true) ∧
    (let s := { off with keeper := { off.keeper with vddio := true } }
     s.powered = false ∧ s.keeper.vddio = true) ∧
    (∀ p, live.powered = true ∧ (live.port p).ready = true ∧ live.extestHeld = false ∧
      configAnswers live p = true ∧ (live.port p).linkUp = true) := by
  refine ⟨by decide +kernel, by decide +kernel, by decide +kernel, by decide +kernel, ?_⟩
  intro p; cases p <;> decide +kernel

theorem witness_SupplyLossKeepsRootsAndLedger : stored.keeper.vddCore = true ∧ stored.powered = true ∧
    stored.ledger.inbox = [] := by decide +kernel

theorem witness_DiscardStopsWithoutARoot :
    (stored.keeper.ramStopped = false ∧ stored.keeper.vddAux = true ∧ stored.keeper.pstate ≠ .p4) ∧
    (∀ r, mgmtServes stored = true ∧ reqReaches stored r = true ∧
      judgeWrite stored r false .keeperReset 0 (1 :: leBytes 2 0x4B52 ++ [0]) = none) := by
  refine ⟨by decide +kernel, ?_⟩
  intro r; cases r <;> decide +kernel

theorem witness_StormEndsInOff :
    (live.inRun = true ∧ live.keeper.ramStopped = false ∧ live.keeper.vddAux = true ∧ live.keeper.pwrfail = false ∧
      live.keeper.lockStopped = false) ∧
    (∀ r, mgmtServes live = true ∧ reqReaches live r = true ∧
      judgeWrite live r false .keeperReset 0 (0 :: leBytes 2 0x4B52 ++ [0]) = none) := by
  refine ⟨by decide +kernel, ?_⟩
  intro r; cases r <;> decide +kernel

theorem witness_ReleaseEntersRecovery : mayRelease calmBoot off = true ∧
    (let s := { off with keeper := { off.keeper with stormEndAt := some 0 } }
     mayRelease calmBoot s = true ∧ s.keeper.stormEndAt.isSome = true) := by decide +kernel

theorem witness_StartIsCompleted :
    (∀ kind ∈ [RootKind.recovery, .mirrorStart],
      let s := { live with keeper := { live.keeper with
        pstate := .p5, restoring := true, rdy := false, restoreKind := kind } }
      s.keeper.pstate = .p5 ∧ s.keeper.restoring = true ∧ s.keeper.lockStopped = false ∧
        s.keeper.restoreKind = kind ∧ s.dur.g.mirrorEnable = true) ∧
    (let s := { live with keeper := { live.keeper with romChecked := false, serving := false, rdy := false } }
     s.powered = true ∧ s.keeper.romChecked = false ∧ s.keeper.ramStopped = false ∧ s.keeper.vddCore = true) := by
  decide +kernel

theorem witness_PortResetClearsThePort : live.powered = true ∧ live.portA.linkUp = true ∧ live.portB.linkUp = true :=
  by decide +kernel

/-- Port A has a request to issue and has waited for credits for exactly 100 µs. -/
def waitingA : State :=
  { live with portA := { openPort with out := [.ringFetch 0 0 64], creditWait := 100000 } }

/-- Island 3 lost its lock at 40 ns, and now its 10 µs are all but over; with an access that waits for it. -/
def unlocked (held : List (Req × Access)) : State :=
  { live with now := 10040, held := held, power := { live.power with lockLost := [(3, 41)] } }

/-- Island n at a level, idle, with PowerCeiling 2. -/
def sleeping (n : Nat) (level : Level) (waking : Bool) : State :=
  { live with
    power := { live.power with islands := [(n, { level := level, lastBusy := 0, waking := waking, wakeAt := 0 })] }
    dur := { live.dur with g := { live.dur.g with ceiling := 2 } } }

theorem witness_WaitsAndClockLossAreSeen :
    (waitingA.portA.out ≠ [] ∧ waitingA.portA.canIssue = true ∧ waitingA.portA.creditWait ≤ 100000) ∧
    (islandId ⟨.gather, 63⟩ = some 63 ∧ live.powered = true ∧ mget 0 live.power.lockLost 63 = 0 ∧
      (live.island 63).level ≠ .retained) ∧
    (((sleeping 63 .retained false).island 63).level = .retained ∧
      ((sleeping 63 .retained false).island 63).waking = false ∧ (sleeping 63 .retained false).powered = true) ∧
    (∀ held ∈ [[], [(Req.linkA, Access.read .bar0 0 0 4)]],
      islandId ⟨.gather, 3⟩ = some 3 ∧ (unlocked held).powered = true ∧
        mget 0 (unlocked held).power.lockLost 3 ≠ 0 ∧ (unlocked held).now ≤ mget 0 (unlocked held).power.lockLost 3 + 9999 ∧
        (unlocked held).xlate.heldFaults = [] ∧ (unlocked held).ledger.stream = [] ∧
        (unlocked held).ledger.reads = [] ∧ (unlocked held).keeper.lockStopped = false ∧ (unlocked held).held = held) ∧
    nothingWaits (unlocked []) := by
  refine ⟨?_, ?_, ?_, ?_, rfl, rfl, rfl, rfl⟩ <;> decide +kernel

theorem witness_PinsAskAsConfigured :
    (islandsReady live [idGather (gatherOf (0x100000 + 511))] = true ∧ live.wiredLive = true ∧
      live.pinValue 511 ≠ true) ∧
    (∀ r ∈ [Req.linkA, .linkB, .sideband],
      (dictOpen live r (objIslands (.pinConfig 511) 0) = true ∧
        judgeWrite live r false (.pinConfig 511) 0 (bytesAt [3, 1] 0 4) = none) ∧
      (dictOpen live r [idGather 0] = true ∧
        judgeWrite live r false (.lineConfig 0 0) 0 (bytesAt [3] 0 4) = none) ∧
      (dictOpen live r [idGather 55] = true ∧
        judgeWrite live r false (.laneControl 55) 0 (bytesAt [1, 2, 2, 0] 0 8) = none)) ∧ roomToDirty live := by
  refine ⟨by decide +kernel, by decide +kernel, live_has_room⟩

theorem witness_LanesTakeFramesAndTimeOut :
    (islandsReady lane12 [idGather 12] = true ∧ lane12.wiredLive = true ∧ (lane12.lane 12).state = .locked ∧
      (lane12.lane 12).pendingCtl = none ∧ (lane12.laneCfg 12).invert = false ∧ isSync exampleFrame.sync = true ∧
      exampleFrame.nextSync = some 96 ∧
      (frameCells false exampleFrame).all Option.isSome = true ∧ crcPasses (frameCells false exampleFrame) = true ∧
      seqOf (frameCells false exampleFrame) = some 0x37) ∧
    ((0x37 + 256 - (lane12.lane 12).lastSeq) % 256 = 1 ∧ (lane12.laneCfg 12).stalePolicy = 0) ∧
    (((after (.sillFrame 12 exampleFrame) lane12).lane 12).state = .locked ∧
      (0x37 + 256 - ((after (.sillFrame 12 exampleFrame) lane12).lane 12).lastSeq) % 256 = 0) := by decide +kernel

/-- A Letterbox write of Room 1's window for an SN. -/
def boxWrite (sn : Nat) (note : Bool) : HostWrite :=
  wholeWrite (if note then 0x9100 else 0x8100) (leBytes 4 sn ++ List.replicate (if note then 28 else 0) 0)

/-- An entry for Gather island 21 is staged at port A behind one for another island, and 15 stand in its FIFO. -/
def stagedA : State :=
  let e : Event := .letterbox .a 0 0x8100 0x1A3C 1 none
  { live with
    portA := { openPort with staging := [{ gather := 20, event := e }, { gather := 21, event := e }] }
    fabric := { live.fabric with gatherQ := [(21, List.replicate 15 ⟨idLink .a, 0, e⟩)] } }

theorem witness_LetterboxMessagesAreTaken :
    (live.powered = true ∧ linkHolds live .a = false ∧ live.portA.linkUp = true ∧ live.keeper.rdy = true ∧
      live.portA.staging.length < 256) ∧
    (let s := { live with power := { live.power with lockLost := [(idLink .a, 1)] } }
     s.powered = true ∧ s.portA.linkUp = true ∧ s.keeper.rdy = true ∧ linkHolds s .a = true) ∧
    (∀ note ∈ [false, true],
      letterboxPage (boxWrite 0xFFFFF note).offset = some note ∧
      HostWrite.isWhole (boxWrite 0xFFFFF note) (if note then 32 else 4) = true ∧
      fieldAt (boxWrite 0xFFFFF note).data 0 3 < 0x100000 ∧
      live.dur.g.roomEnable.getLsbD (bits (boxWrite 0xFFFFF note).offset 11 8) = true ∧
      HostWrite.isWhole (boxWrite 0x100000 note) (if note then 32 else 4) = true ∧
      0x100000 ≤ fieldAt (boxWrite 0x100000 note).data 0 3 ∧
      HostWrite.isEmpty (wholeWrite (boxWrite 0 note).offset [0, 0]) = false ∧
      HostWrite.isWhole (wholeWrite (boxWrite 0 note).offset [0, 0]) (if note then 32 else 4) = false) ∧
    ({ live with dur := { live.dur with g := { live.dur.g with roomEnable := 1 } } }).dur.g.roomEnable.getLsbD 1 = false ∧
    (islandsReady stagedA [idLink .a, idGather 21] = true ∧ intakeUsed stagedA .a 21 < 16 ∧
      (takeFirst (fun e => e.gather == 21) stagedA.portA.staging).isSome = true) := by decide +kernel

/-- An event waits at Gather island 21 for SN 0x00_1A3C, which is in a state, in Room 1. -/
def updating (e : Event) (st : SrcState) : State :=
  let s := withSource 0x1A3C { Source.initial with state := st, room := 1 }
  { s with fabric := { s.fabric with gatherQ := [(21, [⟨idLink .a, 0, e⟩])] } }

theorem witness_StateUpdateFollowsTheSourceTable :
    ∀ e ∈ [Event.raise 0x1A3C, .letterbox .a 0 0x8000 0x1A3C 0 none, .letterbox .a 0 0x8100 0x1A3C 1 none,
      .wired 0x1A3C false true], ∀ st ∈ [SrcState.idle, .pending, .active],
    let s := updating e st
    s.gathered 21 = [⟨idLink .a, 0, e⟩] ∧ appliedNext s 21 ⟨idLink .a, 0, e⟩ ∧
    islandsReady s [idGather 21, idBank (bankOf e.sn)] = true ∧ (s.src 0x1A3C).state = st ∧ (s.src 0x1A3C).room = 1 ∧
    (∀ r < 16, notifyUsed s (bankOf e.sn) r ≤ 29) := by
  unfold appliedNext; decide +kernel

theorem witness_updates_have_room (e : Event) (st : SrcState) :
    roomToDirty (updating e st) ∧ nothingWaits (updating e st) :=
  ⟨room_of_clean _ rfl rfl (show 0 < 6 by decide), rfl, rfl, rfl, rfl⟩

/-- A transfer waits on Rank island 0's Notify channel, in the state of Example PK-1 with a slot of TN 17. -/
def ranking (n : Notify) (slot : RankSlot) (sources : List (Nat × Source)) : State :=
  let s := pk1 sources
  { s with fabric := { s.fabric with notifyQ := [(0, [⟨idBank 17, 0, n⟩])], rank := [(tkey 17 .normal, slot)] } }

theorem witness_SelectionOffersTheFirst :
    let first := fun (s : State) => (firstEligible s 17 .normal).map Prod.fst
    let one := [rival 0x211 64 12 1]
    let change := Notify.change 17 .normal 0x400 none
    let learned := fun (s : State) => learn 17 .normal 0x400 none s
    (∀ s ∈ [ranking change .empty one, ranking change .empty [], ranking change (.holding 1) one,
        ranking change (.offered 0x211) one, ranking change (.offered 1) one, ranking change (.offered 1) [],
        ranking (.done 17 .normal 1) (.holding 1) [], ranking (.answer 17 .normal 1 true false 0) (.offered 1) []],
      islandsReady s [idRank 0] = true ∧ (mget [] s.fabric.notifyQ 0).length = 1 ∧ mget [] s.fabric.due 0 = [] ∧
        selectUsed s 17 ≤ 6) ∧
    (ranking change .empty one).rankSlot 17 .normal = .empty ∧
    first (learned (ranking change .empty one)) = some 0x211 ∧ first (learned (ranking change .empty [])) = none ∧
    (ranking change (.holding 1) one).rankSlot 17 .normal = .holding 1 ∧
    (ranking change (.offered 0x211) one).rankSlot 17 .normal = .offered 0x211 ∧
    (offeredStill (learned (ranking change (.offered 0x211) one)) 17 .normal 0x211).isSome = true ∧
    first (learned (ranking change (.offered 1) one)) = some 0x211 ∧
    offeredStill (learned (ranking change (.offered 1) one)) 17 .normal 1 = none ∧
    (let s := { live with fabric := { live.fabric with due := [(0, [(17, .normal)])] } }
     islandsReady s [idRank 0] = true ∧ mget [] s.fabric.due 0 = [(17, .normal)] ∧ selectUsed s 17 ≤ 6) := by
  decide +kernel

theorem witness_RoutingIsWritten : ∀ r ∈ [Req.linkA, .linkB, .sideband],
    (dictOpen live r [idBank (bankOf 0x1013FF)] = true ∧ snExists 0x1013FF = true) ∧
    (judgeWrite live r false .sourceControl 0x1013FF [1] = none ∧
      sentBy idManagement (live.gathered (gatherOf 0x1013FF)) < 4) ∧
    judgeWrite live r false .sourceControl 0x1013FF [2] = none ∧
    (judgeWrite live r false .sourceConfig 0x42 (bytesAt [0x11, 0, 7, 1, 0] 0 8) = none ∧ isIpi 0x42 = false) ∧
    (dictOpen live r [idDelivery 63] = true ∧ judgeWrite live r false .targetRoom 4095 [1] = none ∧
      (live.tgt 4095).room ≠ 1) ∧
    (judgeWrite live r false (.roomReach 15) 0 (leBytes 2 1) = none ∧
      (1 : BitVec 16) ||| BitVec.ofNat 16 (2 ^ 15) ≠ live.reach 15) := by decide +kernel

/-- The state that each clause on a source names: Idle, Pending, Active, Pending with a note; a record that leaves the
source as it is. -/
theorem witness_RoutingIsWritten_sources :
    (live.src 0x42).state = .idle ∧
    ((withSource 0x42 { Source.initial with state := .pending }).src 0x42).notes = [] ∧
    levelAsserted (withSource 0x42 { Source.initial with state := .pending }) 0x42
      ((withSource 0x42 { Source.initial with state := .pending }).src 0x42) = false ∧
    ((withSource 0x42 { Source.initial with state := .active }).src 0x42).state = .active ∧
    ((withSource 0x42 { Source.initial with state := .pending, notes := [[1]] }).src 0x42).notes ≠ [] ∧
    (let bs : List Byte := bytesAt [0xFF, 0xFF, 128, 0, 0] 0 8
     let x := live.src 0x42
     targetField (fieldAt bs 0 2) = x.target ∧ Cls.at (fieldAt bs 3 1) = x.cls ∧ fieldAt bs 2 1 = x.priority ∧
       fieldAt bs 4 1 = x.room) := by
  decide +kernel

/-- A transfer waits on Delivery island 19's Select channel. -/
def selecting (m : Select) (d : DSlot) : State :=
  let s := withSlot 1234 .normal d (withTarget 1234 tn1234 live)
  { s with fabric := { s.fabric with selectQ := [(19, [⟨idRank 4, 0, m⟩])] } }

theorem witness_OffersBecomeDescriptors :
    (∀ m ∈ [Select.select 1234 .normal offer1305, .retract 1234 .normal],
      islandsReady (selecting m .initial) [idDelivery 19] = true ∧
        mget [] (selecting m .initial).fabric.selectQ 19 = [⟨idRank 4, 0, m⟩]) ∧
    (islandsReady dl1 [idDelivery 19] = true ∧ (dl1.dslot 1234 .normal).offer = some offer1305 ∧
      (dl1.dslot 1234 .normal).stage = .waiting ∧ (dl1.dslot 1234 .normal).claiming = none ∧
      deliverable dl1 1234 .normal = true ∧ offerMasked dl1 1234 .normal = false ∧ paneWanted dl1 1234 .normal = true ∧
      (dl1.dslot 1234 .normal).latch = some { page := alignDown ((dl1.tgt 1234).pane .normal) 6 / 4096, frame := 0x99 }) ∧
    (let s := withSlot 4095 .fast { DSlot.initial with offer := some offer1305 }
       (withTarget 4095 { tn1234 with paneEnN := false } live)
     islandsReady s [idDelivery 63] = true ∧ deliverable s 4095 .fast = true ∧ paneWanted s 4095 .fast = false ∧
       offerMasked s 4095 .fast = false) ∧
    (islandsReady waitingA [idLink .a] = true ∧ waitingA.portA.canIssue = true ∧ waitingA.portA.out ≠ []) ∧
    nothingWaits waitingA := by
  refine ⟨?_, ?_, ?_, ?_, rfl, rfl, rfl, rfl⟩ <;> decide +kernel

/-- A claim request waits at bank 24 for SN 0x10_1305, Pending for TN 1234. -/
def banking (c : ClaimReq) (st : SrcState) : State :=
  let s := withSource 0x101305 { Source.initial with
    state := st, target := some 1234, room := 1, priority := 16,
    holder := if st = .active then some (1234, .normal) else none }
  let s := withTarget 1234 tn1234 { s with fabric := { s.fabric with claimQ := [(24, [⟨idDelivery 19, 0, c⟩])] } }
  { s with dur := { s.dur with g := { s.dur.g with reach := setAt s.dur.g.reach 1 3 } } }

/-- Example DL-1 at step 14, the bank having refused. -/
def dl1Refused : State :=
  { dl1Claimed with fabric := { dl1Claimed.fabric with
      selectQ := [(19, [⟨idRank 4, 0, .answer 1234 .normal 0x101305 false false 7⟩])] } }

theorem witness_ClaimsAreDecidedAtTheBank :
    (accessOpen dl1 .b [idDelivery 19] = true ∧ dl1.linkReaches .b 1 = true ∧
      (dl1.dslot 1234 .normal).claiming = none ∧ (dl1.dslot 1234 .normal).offer = some offer1305 ∧
      dl1.fabric.shutter = false ∧ (dl1.tgt 1234).enable = true) ∧
    ((live.dslot 1234 .normal).offer = none ∧ (live.tgt 1234).enable = false) ∧
    (dl1Claimed.dslot 1234 .normal).claiming.isSome = true ∧
    (let c := ClaimReq.claim 1234 .normal 0x101305 false
     mget [] (banking c .pending).fabric.claimQ 24 = [⟨idDelivery 19, 0, c⟩] ∧
       islandsReady (banking c .pending) [idBank 24] = true ∧
       claimAccepted (banking c .pending) 1234 .normal 0x101305 = true ∧
       claimAccepted (banking c .idle) 1234 .normal 0x101305 = false) ∧
    (∀ s ∈ [dl1Claimed, dl1Refused], islandsReady s [idRank 4, idDelivery 19] = true ∧
      (mget [] s.fabric.selectQ 19).length = 1 ∧
      (s.dslot 1234 .normal).offer = some offer1305 ∧ (s.dslot 1234 .normal).claiming = some (Reader.whole .a) ∧
      (s.dslot 1234 .normal).claimQ = [] ∧ s.portA.linkUp = true ∧ s.clocked (idLink .a) = true ∧
      (s.dslot 1234 .normal).stage = .issued true ∧ (s.dslot 1234 .normal).expired = false ∧
      (s.dslot 1234 .normal).heldSel = none ∧ (s.dslot 1234 .normal).descr = none) := by
  decide +kernel

theorem witness_banks_have_room (c : ClaimReq) (st : SrcState) : roomToDirty (banking c st) :=
  room_of_clean _ rfl rfl (show 0 < 6 by decide)

theorem witness_EoisAreJudgedAndComplete :
    (let c := ClaimReq.eoi 1234 .normal 0x101305
     mget [] (banking c .active).fabric.claimQ 24 = [⟨idDelivery 19, 0, c⟩] ∧
       islandsReady (banking c .active) [idBank 24] = true ∧
       heldBy (banking c .active) 1234 .normal 0x101305 = true ∧ 0x101305 ≠ warnSn (banking c .active) 1234 ∧
       (∀ r < 16, notifyUsed (banking c .active) 24 r ≤ 29) ∧
       heldBy (banking c .idle) 1234 .normal 0x101305 = false) ∧
    (let s := withSlot 1234 .normal { DSlot.initial with holding := some 0x101305 } (withTarget 1234 tn1234 live)
     postedOpen s .a [idDelivery 19] = true ∧ s.linkReaches .a 1 = true ∧
       (s.dslot 1234 .normal).holding = some (0x101305 % 2 ^ 24) ∧ (s.dslot 1234 .fast).holding ≠ some 5) := by
  decide +kernel

/-- A delivered class of TN 1234 whose watchdog runs over the source that it holds. -/
def timing : State :=
  let s := banking (.eoi 0 .normal 0) .active
  withSlot 1234 .normal { DSlot.initial with holding := some 0x101305, lastWake := some 3, wdog := some 4 } s

theorem witness_ClassTimersExpire : islandsReady timing [idDelivery 19, idBank (bankOf 0x101305)] = true ∧
    islandsReady timing [idDelivery 19] = true ∧
    (timing.dslot 1234 .normal).lastWake = some 3 ∧ (timing.dslot 1234 .normal).wdog = some 4 ∧
    heldSource timing 1234 .normal = some 0x101305 ∧ heldBy timing 1234 .normal 0x101305 = true ∧
    0x101305 ≠ warnSn timing 1234 := by decide +kernel

theorem witness_timing_has_room : roomToDirty timing := room_of_clean _ rfl rfl (show 0 < 6 by decide)

theorem witness_TargetsAreWrittenAndReset :
    (∀ r ∈ [Req.linkA, .linkB, .sideband],
      writeOpen live r [idDelivery 63] [idDelivery 63] = true ∧ linkMay live r (live.tgt 4095).room = true ∧
      (∀ c ∈ [Cls.normal, .fast],
        judgeWrite live r false (.threshold c) 4095 (valueBytes r (.threshold c) 9 257) = none ∧
        judgeWrite live r false (.louvre c) 4095 (valueBytes r (.louvre c) 16 0xFFFF) = none) ∧
      judgeWrite live r false .targetControl 4095 (valueBytes r .targetControl 5 31) = none) ∧
    (postedOpen live .a [idDelivery 63] = true ∧ live.linkReaches .a (live.tgt 4095).room = true ∧
      (live.dslot 4095 .normal).claiming = none ∧ (live.dslot 4095 .fast).claiming = none ∧
      (live.dur.targets.map Prod.fst).Pairwise (· < ·)) ∧ roomToDirty live := by
  refine ⟨by decide +kernel, by decide +kernel, live_has_room⟩

theorem witness_ShutterAndMask :
    (∀ r ∈ [Req.linkA, .linkB, .sideband], writeOpen live r [idManagement] [] = true ∧
      judgeWrite live r false .shutter 0 (valueBytes r .shutter 1 1) = none) ∧
    (postedOpen live .a [idManagement, idBank (bankOf 0x11FFFF)] = true ∧ snExists 0x11FFFF = true ∧
      live.mayTouch .linkA (live.src 0x11FFFF).room = true) ∧
    (dictOpen live .sideband (objIslands .sourceMask 0x11FFFF) = true ∧
      judgeWrite live .sideband false .sourceMask 0x11FFFF [BitVec.ofNat 8 (b2n true)] = none) ∧ roomToDirty live := by
  refine ⟨by decide +kernel, by decide +kernel, by decide +kernel, live_has_room⟩

theorem witness_ManagementEventsAreReadAndSignalled :
    postedOpen live .a [idManagement] = true ∧ readOpen live .a [idManagement] [2, 3, 8, 9] = true ∧
    ({ live with portA := { openPort with maskValid := true } }).portA.maskValid = true ∧
    (let s := { live with portA := { openPort with pba := true, msixMasked := false } }
     configAnswers s .a = true ∧ s.portA.pba = true ∧ s.portA.msixMasked = false ∧ s.portA.canIssue = true) := by
  decide +kernel

/-- CONDUCT_STATUS, a reserved location, and QUEUE_CONTROL 0 of a Room that the link reaches or does not. -/
theorem witness_RegisterReads :
    (live.powered = true ∧ live.portA.linkUp = true ∧ windowSize .bar0 < 2 ^ 20 - 3 + 4 ∧
      2 ^ 20 - 8 + 8 ≤ windowSize .bar0) ∧
    (readOpen live .a (regOwner .a .bar0 0x2000).2 [8, 9, 2] = true ∧ 0x2000 < windowSize .bar0 ∧
      regNow live .bar0 0x2000 = some (.object .conductStatus 0 0) ∧ regAllowed live .a .bar0 0x2000 = true) ∧
    (readOpen live .a (regOwner .a .bar0 0xFFFFC).2 [8, 9, 0xFF] = true ∧ 0xFFFFC < windowSize .bar0 ∧
      regNow live .bar0 0xFFFFC = none) ∧
    (let s := { live with dur := { live.dur with g := { live.dur.g with linkARooms := 2 } } }
     readOpen s .a (regOwner .a .bar0 0x10000).2 [8, 9, 0x10] = true ∧
       regNow s .bar0 0x10000 = some (.object (.queueControl 0) 0 2) ∧ regAllowed s .a .bar0 0x10000 = false) := by
  decide +kernel

/-- R90, R91: a read of bytes 1 and 2 of ID_PART, and a read of two registers. -/
theorem test_partial_and_wide_reads :
    (after (.rcRead .a .bar0 1 2) live).out = [.readBytes .a [0x40, 0x00] false] ∧
    (after (.rcRead .a .bar0 0 8) live).out.head? = some (.readWord .a 0x4096) ∧
    (after (.rcRead .a .bar0 0 8) live).out.length = 2 := by decide +kernel

theorem witness_DeadboltsAndCountersAreTheirs :
    (∀ r ∈ [Req.linkA, .linkB, .sideband], writeOpen live r [idManagement] [] = true ∧
      judgeWrite live r false .deadboltSet 0 (valueBytes r .deadboltSet 5 31) = none) ∧
    (4 % 8 = 2 ^ reqCode .sideband ∧ 1 % 8 = 2 ^ reqCode .linkA ∧ 2 % 8 ≠ 2 ^ reqCode .linkA) ∧
    postedOpen live .b [idManagement] = true := by decide +kernel

/-- The staging buffer of port A holds 256 entries. -/
def stalled : State :=
  let e : Staged := { gather := 0, event := .letterbox .a 0 0 0 0 none }
  { live with portA := { openPort with staging := List.replicate 256 e } }

/-- With 256 entries staged a posted write waits, and with 255 it takes place (R286). -/
theorem test_full_staging_buffer :
    (after (.registerWrite .a .bar0 (wholeWrite 0x18 [1, 2, 3, 4])) stalled).scratch = stalled.scratch ∧
    (after (.registerWrite .a .bar0 (wholeWrite 0x18 [1, 2, 3, 4]))
      { stalled with portA := { stalled.portA with staging := stalled.portA.staging.tail } }).scratch = 0x04030201 := by
  decide +kernel

theorem witness_WritesAreSplitJudgedAndCounted :
    (letterboxPage (wholeWrite 0xFFFFC [1, 2, 3, 4]).offset = none ∧
      HostWrite.isWhole (wholeWrite 0xFFFFC [1, 2, 3, 4]) 4 = true ∧ 0xFFFFC < windowSize .bar0) ∧
    (letterboxPage (wholeWrite 0xFFFF8 (List.replicate 8 1)).offset = none ∧ 0xFFFF8 + 8 ≤ windowSize .bar0) ∧
    (postedOpen live .a [idManagement] = true ∧ [false, false, false, false].all id = false) ∧
    judgeWrite live .linkA false .deadboltStatus 0 [0] = some 2 ∧
    (letterboxPage (wholeWrite 0x18 [1, 2, 3, 4]).offset = none ∧ stalled.keeper.rdy = true ∧
      stagingFull stalled .a = true) := by decide +kernel

/-- Port A owns the Hatch with tag 7. -/
def owned : State := { live with hatch := { Hatch.initial with owner := some .linkA, tag := 7 } }

theorem witness_HatchOwnership :
    (postedOpen live .a [idManagement] = true ∧ live.hatch.owner = none) ∧
    (postedOpen owned .a [idManagement] = true ∧ owned.hatch.owner = some .linkA ∧ owned.hatch.tag = 7 ∧
      owned.hatch.busy = false) ∧
    ({ owned with hatch := { owned.hatch with busy := true } }).hatch.busy = true ∧
    ¬ (owned.hatch.owner = some Port.b.req ∧ owned.hatch.tag = 7) := by decide +kernel

/-- The owner has named SidebandHatchWait, and its command's result waits. -/
def named : State := { owned with hatch := { owned.hatch with addr := 0x01200200, data := [9] } }

theorem witness_HatchCommandsAndResults :
    (postedOpen named .a [idManagement] = true ∧ named.hatch.valid = false ∧
      objAt (hatchIndex named.hatch) (hatchSub named.hatch) = some .sbHatchWait ∧
      (objIslands .sbHatchWait 0).all (fun i => named.clocked i && (named.island i).level == .awake) = true ∧
      mayRead named .linkA .sbHatchWait 0 = true ∧
      judgeWrite named .linkA false .sbHatchWait 0 (bytesAt (hatchBytes named.hatch) 0 2) = none) ∧
    (let s := { owned with hatch := { owned.hatch with
        busy := true
        result := some { code := 0, data := [1], length := 1, applied := true, notBefore := 9, readBack := none } } }
     mgmtServes s = true ∧ s.hatch.busy = true ∧ s.hatch.result.isSome = true ∧ s.hatch.releasing = false) ∧
    (mgmtServes owned = true ∧ owned.hatch.busy = false) := by decide +kernel

theorem witness_hatch_has_room : roomToDirty named := room_of_clean _ rfl rfl (show 0 < 6 by decide)

/-- Queue 255 in a state, with items. -/
def queued (st : QState) (items : List Item) : State :=
  withQueue 255 { Queue.initial with items := items, onchip := true } { QVol.initial with state := st } live

theorem witness_QueuesAreConfiguredAndEnabled :
    (postedOpen live .a [idQueue 15] = true ∧ live.linkReaches .a (live.queue 255).room = true ∧
      prodAccepts (live.queue 255) 15 = true ∧ prodAccepts (live.queue 255) 16 = false) ∧
    (∀ r ∈ [Req.linkA, .linkB, .sideband],
      writeOpen live r [idQueue 15] [idQueue 15] = true ∧ linkMay live r (live.queue 255).room = true ∧
      judgeWrite live r false (.queueConfig 255) 0 (valueBytes r (.queueConfig 255) 24 17) = none ∧
      (∀ st ∈ [QState.disabled, .draining, .stopped, .running],
        judgeWrite (queued st []) r false (.queueControl 255) 0
          (valueBytes r (.queueControl 255) 2 (1 + at1 true 1)) = none ∧
        judgeWrite (queued st []) r false (.queueControl 255) 0
          (valueBytes r (.queueControl 255) 2 (at1 true 1)) = none)) ∧
    ((queued .running [Item.taken 0 [] 0]).queue 255).items ≠ [] := by decide +kernel

theorem witness_QueueActionsAndEntryWindow :
    (∀ st ∈ [QState.disabled, .running, .stopped], postedOpen (queued st []) .b [idQueue 15] = true ∧
      (queued st []).linkReaches .b ((queued st []).queue 255).room = true ∧
      ((queued st []).qvol 255).state = st ∧ queueIdle (queued st []) 255 = true ∧
      ((queued st []).queue 255).onchip = true ∧
      readOpen (queued st []) .b [idQueue 15] [queueOffset 255 0x40 / 4096] = true) ∧
    queueIdle (queued .disabled [Item.taken 0 [] 0]) 255 = false := by decide +kernel

theorem witness_queued_has_room (st : QState) : roomToDirty (queued st []) :=
  room_of_clean _ rfl rfl (show 0 < 6 by decide)

/-- A fetch of slot 3 of queue 255 has been issued. -/
def fetching (dropped : Bool) : State :=
  withQueue 255 Queue.initial { QVol.initial with
    state := .running
    fetches := [{ slot := 3, owned := true, sent := true, dropped := dropped, readAt := some 0 }] } live

theorem witness_PollAndFetch : ∀ dropped ∈ [false, true],
    islandsReady (fetching dropped) [idQueue 15] = true ∧ ((fetching dropped).qvol 255).state = .running ∧
    ringReadWaits (fetching dropped) 255 3 <
      (((fetching dropped).qvol 255).fetches.filter fun f => f.slot == 3 && f.sent).length ∧
    takeFirst (fun f => f.slot == 3 && f.sent) ((fetching dropped).qvol 255).fetches =
      some ({ slot := 3, owned := true, sent := true, dropped := dropped, readAt := some 0 }, []) := by decide +kernel

/-- R441: a drain that ends while a dropped read is still under way sets the IDLE event only when that read has
returned. -/
theorem test_idle_waits_for_the_dropped_read :
    let t := after (.queueDisable .linkA 255 true) (fetching false)
    (t.qvol 255).state = .disabled ∧ ((t.qvol 255).event.get .linkA) = 0 ∧
    ((after (.ringFetchComplete 255 3 (.data [1])) t).qvol 255).event.get .linkA ≠ 0 := by decide +kernel

/-- Queue 0 has an entry to take; an item whose entry names nothing, or fails its check; an item that has ended. -/
def taking : State :=
  withQueue 0 { Queue.initial with prod := 1 } { QVol.initial with
    state := .running, window := [{ slot := 0, owned := true, bytes := entryOf 7 0 [], fault := none }] } live
def badEntry (kind : Byte) (arg : Byte) : Item := Item.taken 0 (entryOf kind 0 [0, arg]) 0
def ended (onchip : Bool) : State :=
  let e : Ending := { code := 0, result := leBytes 8 0, step := 1 }
  let s := withQueue 0 { Queue.initial with
    items := [{ Item.taken 0 (entryOf 7 0 []) 0 with ending := some e, issued := true }],
    onchip := onchip, prod := 1, take := 1, ringBase := 0x4000 } { QVol.initial with state := .running } live
  { s with
    dur := { s.dur with xlate := [(0, { XlateRoom.initial with enable := true })] }
    xlate := { s.xlate with islands := [(0, { XIsland.initial with leaf :=
      [{ room := 0, page := 4, target := 0x77000, big := false, r := true, w := true }] })] } }

theorem witness_ended_has_room (onchip : Bool) : roomToDirty (ended onchip) :=
  room_of_clean _ rfl rfl (show 0 < 6 by decide)

theorem serving_has_room (it : Item) : roomToDirty (serving it) := room_of_clean _ rfl rfl (show 0 < 6 by decide)

/-- What `serves` asks beside room in the banks, for queue 0. -/
def servesIn (s : State) (kind : Nat) (it : Item) : Bool :=
  islandsReady s (stepIslands s 0 it) && servedQueue s 0 == some 0 && nextStep s 0 == some it && it.kind == kind

/-- What `stepsOn` asks beside room in the banks, for queue 0. -/
def stepsIn (s : State) (kind : Nat) (it : Item) : Bool :=
  servesIn s kind it && it.wait == .nothing &&
    (it.step != 0 || ((entryCheck s 0 it).isNone && (!it.recovered || (lostProgress it.started).isNone)))

theorem serves_of_parts {s : State} {kind : Nat} {it : Item} (h : servesIn s kind it) (room : roomToDirty s) :
    serves s 0 kind it := by
  simp only [servesIn, Bool.and_eq_true, beq_iff_eq] at h
  exact ⟨h.1.1.1, room, h.1.1.2, h.1.2, h.2⟩

theorem stepsOn_of_parts {s : State} {kind : Nat} {it : Item} (h : stepsIn s kind it) (room : roomToDirty s) :
    stepsOn s 0 kind it := by
  simp only [stepsIn, Bool.and_eq_true, Bool.or_eq_true, beq_iff_eq, bne_iff_ne, Option.isNone_iff_eq_none,
    Bool.not_eq_true'] at h
  obtain ⟨⟨h, w⟩, f⟩ := h
  refine ⟨serves_of_parts h room, by simp [w], by intro b; simp [w], ?_⟩
  grind

/-- A power failure left a ROUTE_BATCH before its first step. -/
def leftBatch : Item := { Item.taken 0 (entryOf 2 0 []) 0 with recovered := true }

theorem witness_EngineServesAndCompletes :
    (islandsReady taking [idQueue 0] = true ∧ servedQueue taking 0 = some 0 ∧ nextStep taking 0 = none ∧
      ((taking.qvol 0).window.find? (fun f => f.slot == (taking.queue 0).take && f.owned)).isSome = true) ∧
    (∀ it ∈ [badEntry 0 0, badEntry 12 0, badEntry 4 2, leftBatch], servesIn (serving it) it.kind it ∧
      it.wait = .nothing) ∧
    ((badEntry 12 0).kind = 12 ∧ (badEntry 4 2).step = 0 ∧
      entryCheck (serving (badEntry 4 2)) 0 (badEntry 4 2) = some 0x10) ∧
    (entryCheck (serving leftBatch) 0 leftBatch = none ∧ (lostProgress leftBatch.started).isSome = true) ∧
    (∀ onchip ∈ [false, true], islandsReady (ended onchip) [idQueue 0] = true ∧
      ((ended onchip).qvol 0).state = .running ∧ ((ended onchip).queue 0).onchip = onchip ∧
      (((ended onchip).queue 0).items.map fun it => (it.held, it.wait, (itemEnding (ended onchip) 0 it).isSome)) =
        [(false, .nothing, true)]) ∧
    ((ended false).port ((ended false).queue 0).port).canIssue = true ∧
    (translate { room := 0, iova := ((ended false).queue 0).entryIova 0, write := true, use := .completion 0 0 } 64
      (begun (ended false) [idQueue 0])).2 = .hit 0x77000 ∧
    (({ ended false with portA := { openPort with busMaster := false } }).port .a).canIssue = false := by
  decide +kernel

/-- An item of queue 0 at a step, with a position. -/
def item (kind flags : Byte) (rest : List Byte) (step pos : Nat) : Item :=
  { Item.taken 0 (entryOf kind flags rest) 0 with step := step, pos := pos }

/-- Another Swing holds the staging area. -/
def contended (it : Item) : State :=
  { serving it with dur := { (serving it).dur with swing := { Swing.initial with owner := some (9, 0) } } }

/-- Eight bytes: the record that routes SN 5 to TN 7. -/
def routeRecord : List Byte := [5, 0, 0, 1, 7, 0, 0, 0]

theorem witness_RouteItemsStep :
    (let it := item 1 0 [0, 0, 1] 0 0
     stepsIn (serving it) 1 it) ∧
    (let it := item 1 0 [0, 2] 0 0
     stepsIn (serving it) 1 it ∧ it.step = 0 ∧ it.byte 17 = 2) ∧
    (let it := item 2 0 [] 0 0
     stepsIn (serving it) 2 it ∧ it.begun.count = 0) ∧
    (let it := item 2 0 [0, 0, 0, 0, 0, 0, 0, 0, 1] 0 0
     stepsIn (serving it) 2 it ∧ it.begun.count ≠ 0) ∧
    (let it := item 3 0 [] 0 0
     stepsIn (serving it) 3 it ∧ stagedSwing (serving it) = none ∧ it.begun.count = 0) ∧
    (let it := item 3 0 [0, 0, 0, 0, 0, 0, 0, 0, 1] 0 0
     stepsIn (serving it) 3 it ∧ stagedSwing (serving it) = none ∧ it.step = 0 ∧ it.begun.count ≠ 0 ∧
       (serving it).dur.swing.owner = none ∧
       stepsIn (contended it) 3 it ∧ stagedSwing (contended it) = none ∧
       (contended it).dur.swing.owner.isSome = true) ∧
    (let it := { item 3 0 [] 1 0 with count := 2 }
     stepsIn (serving it) 3 it ∧ stagedSwing (serving it) = none ∧ it.step = 1 ∧ it.count ≠ 0) ∧
    (let it := { item 3 0 [] 2 1 with count := 2 }
     stepsIn (serving it) 3 it ∧ stagedSwing (serving it) = none ∧ it.step = 2 ∧ it.pos < it.count) := by
  decide +kernel

/-- The data of its read has arrived for an item of queue 0, which holds its engine; and records out of order, refused
and not refused. -/
theorem witness_RouteItemsStep_data :
    (∀ kind ∈ [(1 : Byte), 2, 3],
      let it := { item kind 0 [0, 2] 1 0 with count := 1, wait := .arrived routeRecord }
      let s := { serving it with queues := { (serving it).queues with engine := [(0, (0, 0))] } }
      servesIn s it.kind it ∧ it.kind = kind.toNat ∧ stagedSwing s = none) ∧
    (let it := { item 2 0 [] 1 1 with count := 2, lastSn := some 4 }
     let s := serving it
     (s.queue 0).items.find? (fun it => it.slot == 0) = some it ∧ 4 < (decodeRecord routeRecord).1.sn ∧
       recordRefusal s (s.queue 0).room (decodeRecord routeRecord).1 (decodeRecord routeRecord).2 = none ∧
       recordRefusal s (s.queue 0).room (decodeRecord [0xFF, 0xFF, 0xFF, 1, 7, 0, 0, 0]).1
         (decodeRecord [0xFF, 0xFF, 0xFF, 1, 7, 0, 0, 0]).2 ≠ none ∧
       (decodeRecord [4, 0, 0, 1, 7, 0, 0, 0]).1.sn ≤ 4) := by
  decide +kernel

/-- A Swing of queue 0 whose records are staged, its engine held; a fold that runs. -/
def swinging : State :=
  let it := { item 3 0 [] 2 1 with count := 1 }
  let s := serving it
  let route : Route :=
    { sn := 5, target := some (some 7), priority := none, cls := none, room := none, mask := none }
  { s with
    dur := { s.dur with swing := { Swing.initial with owner := some (0, 0), staged := [route] } }
    queues := { s.queues with engine := [(0, (0, 0))] } }

theorem witness_SwingCommitsAtOneEpoch :
    ((stagedSwing swinging).map Prod.fst = some 0 ∧ servedQueue swinging 0 = some 0 ∧
      islandsReady swinging (idQueue 0 :: (List.range 32).map idBank) = true) ∧
    (let s := { live with dur := { live.dur with swing := { Swing.initial with folding := true } } }
     s.running = true ∧ s.dur.swing.folding = true) ∧ roomToDirty swinging := by
  refine ⟨by decide +kernel, by decide +kernel, room_of_clean _ rfl rfl (show 0 < 6 by decide)⟩

theorem witness_TimersRun :
    (let it := item 4 0 [255, 1] 0 0
     stepsIn (serving it) 4 it) ∧
    (let it := item 5 0 [255] 0 0
     stepsIn (serving it) 5 it) ∧
    (let s := { live with dur := { live.dur with timers := [(255, { due := 9, period := some 10 })] } }
     islandsReady s [idQueue 15] = true ∧ timerArmed s 255 = true ∧ s.durab.timersHeld = false) := by
  decide +kernel

/-- HOST_STORE of 8 bytes to IOVA 0x4000 through a cached leaf, at a port that may issue or not; behind an item. -/
def store8 : Item := item 8 0 [0, 0x40, 0, 0, 0, 0, 8] 0 0
def storing (busMaster : Bool) : State :=
  let q := { (ended false).queue 0 with items := [store8] }
  { ended false with
    dur := { (ended false).dur with queues := [(0, q)] }
    portA := { openPort with busMaster := busMaster } }
def storingBehind : State :=
  let first := { Item.taken 1 (entryOf 6 0 []) 0 with issued := true, wait := .pieces }
  withQueue 0 { Queue.initial with items := [first, store8], prod := 2, take := 2 }
    { QVol.initial with state := .running } live

theorem witness_MemoryItemsStep :
    (let it := item 6 0 [] 0 0
     stepsIn (serving it) 6 it ∧ appendLength it = 0) ∧
    (let it := item 6 4 [0, 0, 0, 0, 33] 0 0
     stepsIn (serving it) 6 it ∧ appendLength it = 32 ∧ it.step = 0 ∧ bit it.flags 2 = true) ∧
    (let it := item 6 4 [0, 0, 0, 0, 32] 1 32
     stepsIn (serving it) 6 it ∧ appendLength it ≠ 0 ∧ it.step ≠ 0 ∧ (serving it).ledger.closed = false) ∧
    (∀ scope ∈ [(0 : Byte), 1, 2, 3],
      let it := item 7 0 [scope] 0 0
      stepsIn (serving it) 7 it) ∧
    (let it := item 7 0 [1] 0 0
     stepGoesOn (serving it) 0 { it.begun with wait := .earlier } = true) ∧
    (let it := item 9 0 [] 0 0
     stepsIn (serving it) 9 it) := by
  decide +kernel

theorem witness_MemoryItemsStep_stores :
    (let it := item 8 0 [] 0 0
     stepsIn (serving it) 8 it ∧ storeLength it = 0) ∧
    (stepsIn storingBehind 8 store8 ∧ storeLength store8 ≠ 0 ∧ isHead storingBehind 0 store8 = false) ∧
    (stepsIn (storing true) 8 store8 ∧ isHead (storing true) 0 store8 = true ∧
       ((storing true).port ((storing true).queue 0).port).canIssue = true ∧
       (translate { room := ((storing true).queue 0).room, iova := fieldAt store8.entry 16 6, write := true,
                    use := .hostStore 0 store8.slot } (storeLength store8)
           ((itemBegun (storing true) 0 store8).modItem 0 store8.slot fun x => { x with step := 2 })).2 =
         .hit 0x77000) ∧
    (stepsIn (storing false) 8 store8 ∧ isHead (storing false) 0 store8 = true ∧
       ((storing false).port ((storing false).queue 0).port).canIssue = false) := by
  decide +kernel

theorem witness_RoomItemsStep :
    (let it := item 10 0 [0, 1, 0] 0 0
     stepsIn (serving it) 10 it ∧ reassignCount it = 0) ∧
    (let it := item 10 0 [0, 1, 1, 0, 0, 0, 0, 0, 9] 0 0
     stepsIn (serving it) 10 it ∧ it.byte 17 = it.byte 18) ∧
    (let it := item 10 0 [0, 1, 0, 0, 0, 0, 0, 0, 1, 2] 0 0
     stepsIn (serving it) 10 it ∧ reassignCount it ≠ 0 ∧ it.byte 17 ≠ it.byte 18 ∧ it.pos + 512 < reassignCount it) ∧
    (let it := item 10 0 [0, 1, 0, 0, 0, 0, 0, 0, 1] 0 0
     stepsIn (serving it) 10 it ∧ reassignCount it ≠ 0 ∧ it.byte 17 ≠ it.byte 18 ∧
       reassignCount it ≤ it.pos + 512) ∧
    (let it := item 11 0 [0, 1] 0 0
     stepsIn (serving it) 11 it ∧ it.byte 17 = 1 ∧ fieldAt it.entry 24 4 = 0) ∧
    (let it := item 11 0 [0, 0] 0 0
     stepsIn (serving it) 11 it ∧ it.byte 17 ≠ 1) := by
  decide +kernel

/-- An item that steps on in one of these states is one of which the statements on items speak. -/
theorem witness_items_step (it : Item) (kind : Nat) (h : stepsIn (serving it) kind it) :
    stepsOn (serving it) 0 kind it := stepsOn_of_parts h (serving_has_room it)

/-- The Fault Ledger one record short of full, and full. -/
def faulted (n : Nat) : State :=
  { live with dur := { live.dur with faults := { FaultLedger.initial with count := n } } }

theorem witness_FaultsAreRecordedAndConsumed :
    (faulted 4095).dur.faults.count < 4096 ∧ 4096 ≤ (faulted 4096).dur.faults.count ∧
    (faulted 4095).xlate.heldFaults = [] ∧
    (∀ r ∈ [Req.linkA, .linkB, .sideband], writeOpen (faulted 4096) r [idManagement] [] = true ∧
      judgeWrite (faulted 4096) r false .faultConsume 0 (valueBytes r .faultConsume 13 4097) = none ∧
      0 < leNat (valueBytes r .faultConsume 13 4097)) := by decide +kernel

theorem witness_faulted_has_room (n : Nat) : roomToDirty (faulted n) := room_of_clean _ rfl rfl (show 0 < 6 by decide)

/-- A record waits, and without a mirror no bank has a quota. -/
theorem witness_faults_wait (r : FaultRec) :
    let s := { live with xlate := { live.xlate with heldFaults := [r] },
                         dur := { live.dur with g := { live.dur.g with mirrorEnable := false } } }
    s.xlate.heldFaults ≠ [] ∧ heldBanks s (recordFault r s) = [] := by
  refine ⟨by simp, ?_⟩
  simp [heldBanks, throttled]

/-- Queue 0's item waits for a read; a walk of Translation island 1 awaits an entry of a level. -/
def reading : State := serving { item 2 0 [0, 0, 0, 0, 0, 0, 0, 0, 1] 1 0 with wait := .read, count := 1 }
def walking (level : Nat) : State :=
  let w : Walk := { id := 4, readAt := 0, req := { room := 1, iova := 0x4000, write := false, use := .itemRead 0 0 8 },
                    level := level, table := 0x1000, stale := false, dead := false }
  { live with xlate := { live.xlate with islands := [(1, { XIsland.initial with walks := [w], nextId := 5 })] } }

theorem witness_HostAndWalkReadsEnd :
    (islandsReady reading [idQueue 0] = true ∧ (readingItem reading 0).isSome = true ∧
      readIssued reading (.itemRead 0) = some (.a, 0) ∧
      (let x := (cleared reading).elapseTo (0 + (completionTimeout (reading.port .a).cto).1)
       islandsReady x [idQueue 0] = true ∧ (readingItem x 0).isSome = true ∧
         (x.queue 0).items.find? (fun it => it.wait == .readLost) = none)) ∧
    (readIssued (fetching false) (.ringFetch 255 3) = some (.a, 0) ∧
      (let x := (cleared (fetching false)).elapseTo (0 + (completionTimeout ((fetching false).port .a).cto).1)
       islandsReady x [idQueue 15] = true ∧
         ringReadWaits x 255 3 < ((x.qvol 255).fetches.filter fun f => f.slot == 3 && f.sent).length ∧
         takeFirst (fun f => f.slot == 3 && f.sent) (x.qvol 255).fetches =
           some ({ slot := 3, owned := true, sent := true, dropped := false, readAt := some 0 }, []))) ∧
    (∀ level ∈ [0, 2, 3], islandsReady (walking level) [idXlate 1] = true ∧
      (((walking level).xisland 1).walks.find? (fun w => w.id == 4)).isSome = true ∧
      ((walking level).xisland 1).walks.any (fun w => w.id == 4 && w.dead) = false ∧
      ((walking level).port ((walking level).xroom 1).walkPort).canIssue = true ∧
      readIssued (walking level) (.walkRead 1 4) = some (.a, 0) ∧
      (let x := (cleared (walking level)).elapseTo (0 + (completionTimeout ((walking level).port .a).cto).1)
       islandsReady x [idXlate 1] = true ∧ ((x.xisland 1).walks.find? (fun w => w.id == 4)).isSome = true)) ∧
    (bit (fieldAt [2, 0, 0, 0, 0, 0, 0, 0] 0 8) 0 = false ∧ bit (fieldAt [1, 0x10, 0, 0, 0, 0, 0, 0] 0 8) 0 = true) ∧
    (let it := { item 2 0 [] 1 0 with count := 1, wait := .arrived routeRecord }
     servesIn { serving it with queues := { (serving it).queues with engine := [(0, (0, 0))] } } it.kind it = true) := by
  decide +kernel

/-- A fence of Room 1: nothing waited for, an item's, and one whose walk goes on. -/
def fencing (walks : List (Nat × Nat)) (item : Option (Nat × Nat)) : State :=
  let it := { Item.taken 0 (entryOf 11 0 []) 0 with step := 2, issued := true, wait := .fence 1 }
  { serving it with xlate := { (walking 3).xlate with
      fences := [{ number := 1, room := 1, walks := walks, item := item }], issued := 1 } }

theorem witness_InvalidationsAreFenced :
    (postedOpen live .a [idManagement] = true ∧ live.linkReaches .a 15 = true ∧
      ({ live with dur := { live.dur with g := { live.dur.g with linkARooms := 1 } } }).linkReaches .a 15 = false) ∧
    (dictOpen live .linkB [] = true ∧
      judgeWrite live .linkB false .invalidateRange 0 (bytesAt [1, 0, 0x40, 0, 0, 0, 0, 0, 1] 0 12) = none) ∧
    (∀ s ∈ [fencing [] none, fencing [] (some (0, 0)), fencing [(1, 4)] none], islandsReady s [idXlate 1] = true) ∧
    (∀ f ∈ (fencing [] (some (0, 0))).xlate.fences, fenceReady (fencing [] (some (0, 0))) f = true) ∧
    ((((fencing [] (some (0, 0))).queue 0).items.find? (fun it => it.slot == 0 && it.kind == 11)).isSome = true) ∧
    (∀ f ∈ (fencing [(1, 4)] none).xlate.fences, fenceReady (fencing [(1, 4)] none) f = false) := by decide +kernel

/-- The Ledger not ready, closed, and out of the link's reach; with a halted island. -/
def notReady : State := { live with keeper := { live.keeper with rdy := false } }
def closedLedger : State := { live with ledger := { live.ledger with closed := true } }
def narrowLinks : State :=
  { live with dur := { live.dur with g := { live.dur.g with linkARooms := 2, linkBRooms := 2 } } }
def haltedLedger : State := { live with dap := { live.dap with halted := [idLedger 3] } }

theorem witness_LedgerIsReadAndWritten :
    (let h := wholeWrite (2 ^ 26 - 4) [1, 2, 3, 4]
     h.enables.any id = true ∧ h.offset + h.data.length ≤ 2 ^ 26 ∧ live.powered = true ∧ live.portB.linkUp = true ∧
       live.keeper.rdy = true ∧ live.ledger.closed = false ∧ reachesSegments live .b h.offset h.data.length = true ∧
       stagingFull live .b = false ∧ stalled.keeper.rdy = true ∧ stagingFull stalled .a = true ∧
       notReady.keeper.rdy = false ∧ closedLedger.ledger.closed = true ∧
       reachesSegments narrowLinks .b h.offset h.data.length = false ∧
       ({ h with enables := [false, false, false, false] }).enables.any id = false) ∧
    (2 ^ 26 < 2 ^ 26 - 1 + 2 ∧ 2 ^ 26 - 1 + 1 ≤ 2 ^ 26 ∧ live.running = true ∧ live.clocked (idLink .b) = true ∧
      live.clocked (idLedger ((2 ^ 26 - 1) / 4096 % 4)) = true ∧ live.ledger.stream = [] ∧ live.ledger.reads = []) ∧
    (idLedger ((2 ^ 26 - 1) / 4096 % 4) ∈ haltedLedger.dap.halted ∧ haltedLedger.keeper.rdy = true ∧
      reachesSegments haltedLedger .b (2 ^ 26 - 1) 1 = true) := by decide +kernel

/-- A piece stands in Ledger island 0. -/
def piecing : State :=
  let p : Piece := { id := 0, write := 0, port := .a, line := 0, data := [], enables := [], append := none, old := [],
                     oldBad := false }
  { live with ledger := { live.ledger with inbox := [p], nextPiece := 1 } }

theorem witness_PersistenceAndFence :
    (readOpen live .a [idLedger 0, idLedger 1, idLedger 2, idLedger 3] [7] = true ∧ live.ledger.stream = [] ∧
      live.ledger.inbox = [] ∧ live.ledger.fenceReads = [] ∧ live.ledger.reads = []) ∧
    (islandsReady piecing [idLedger 0] = true ∧ piecing.ledger.stream = [] ∧
      (takeFirst (fun x => ledgerIsland x.line == 0) piecing.ledger.inbox).isSome = true) := by decide +kernel

/-- Line 5 is backlogged for the host mirror of segment 0 in Room 0, whose page is cached. -/
def copying : State :=
  { ended false with
    dur := { (ended false).dur with g := { live.dur.g with hostMirror :=
      { enable := true, port := .a, room := 0, first := 0, count := 1, base := 0x4000 } } }
    ledger := { live.ledger with backlog := [5] } }

/-- Logical page 7 of island 3 stands on a worn physical page. -/
def worn : State := { live with ledger := { live.ledger with pageWrites := [(4352 * 3 + 7, 2 ^ 21)] } }

theorem witness_LedgerCopyAndWear :
    (islandsReady copying [idLedger 0] = true ∧ copying.dur.g.hostMirror.enable = true ∧
      (copying.port copying.dur.g.hostMirror.port).canIssue = true ∧
      copying.ledger.backlog.find? (fun l => ledgerIsland l == 0 && isCopied copying l &&
        decide (l ∉ copying.ledger.bad)) = some 5 ∧ 5 ∉ copying.ledger.copying ∧
      (translate { room := copying.dur.g.hostMirror.room, iova := copyIova copying.dur.g.hostMirror 5, write := true,
                   use := .ledgerCopy 0 5 } 64 (begun copying [idLedger 0])).2 = .hit (0x77000 + 320)) ∧
    (islandsReady live [idLedger 3] = true ∧ 0 < sparePages live.ledger 3 ∧ wornAgainst live.ledger 3 7 4096 = false) ∧
    (islandsReady worn [idLedger 3] = true ∧ wornAgainst worn.ledger 3 7 4096 = true) := by decide +kernel

set_option maxRecDepth 100000 in
/-- The first physical page after those of the logical pages is free. -/
theorem witness_LedgerCopyAndWear_page : pageFree live.ledger 3 4096 = true ∧ pageFree worn.ledger 3 4351 = true := by
  decide +kernel

/-- Line 9 of bank 4 is dirty; a checkpoint has cut every island but Store bank 4, and every island. -/
def dirtied : State := { live with durab := { live.durab with dirty := [⟨4, 9⟩] } }
def cutting (cut : List Nat) : State :=
  { dirtied with durab := { dirtied.durab with ckpt := some { image := live.dur, epoch := 2, cut := cut, covers := [] } } }

theorem witness_LinesAndCheckpointsAreWritten :
    (islandsReady dirtied [idMirror 1] = true ∧ dirtied.dur.g.mirrorEnable = true ∧ 4 * 16384 + 9 < 2 ^ 19 ∧
      (lineOf (4 * 16384 + 9)).bank / 4 = 1 ∧ lineOf (4 * 16384 + 9) ∈ dirtied.durab.dirty ∧
      lineOf (2 ^ 19 - 1) ∉ dirtied.durab.dirty ∧ (lineOf (2 ^ 19 - 1)).bank / 4 = 7 ∧
      islandsReady dirtied [idMirror 7] = true ∧ mget 32 dirtied.mram.spares 1 ≠ 0 ∧
      mget 32 ({ dirtied with mram := { dirtied.mram with spares := [(1, 0)] } }).mram.spares 1 = 0) ∧
    (live.running = true ∧ live.dur.g.autoCheckpoint ≠ 0 ∧ live.durab.ckpt = none ∧
      (cutting [211]).durab.ckpt.isSome = true) ∧
    (islandId ⟨.storeBank, 4⟩ = some 68 ∧ (cutting [211]).running = true ∧ (cutting [211]).clocked 68 = true ∧
      68 ∉ [211] ∧ (⟨4, 9⟩ : Line) ∈ (cutting [211]).durab.dirty ∧ 4 = 68 - 64) ∧
    (let s := cutting (List.range 212)
     s.running = true ∧ ((List.range 8).all fun k => s.clocked (idMirror k) && (s.island (idMirror k)).level == .awake) ∧
       (∀ n, n < 212 → n ∈ List.range 212) ∧ s.durab.ckptWanted = false ∧ s.keeper.scanWanted = false) := by
  decide +kernel

theorem witness_dirtied_waits_for_nothing : nothingWaits dirtied ∧ nothingWaits (cutting (List.range 212)) :=
  ⟨⟨rfl, rfl, rfl, rfl⟩, rfl, rfl, rfl, rfl⟩

/-- MirrorEnable 0. -/
def unmirrored : State :=
  { live with dur := { live.dur with g := { live.dur.g with mirrorEnable := false } } }

theorem witness_MirrorSwitches : ∀ r ∈ [Req.linkA, .linkB, .sideband],
    (dictOpen live r [] = true ∧ live.dur.g.mirrorEnable = true ∧
      judgeWrite live r false .mirrorEnable 0 [0] = none) ∧
    (dictOpen unmirrored r [] = true ∧ unmirrored.dur.g.mirrorEnable = false ∧
      judgeWrite unmirrored r false .mirrorEnable 0 [1] = none) ∧
    (∀ v ∈ [0, 9], writeOpen live r [idManagement] [] = true ∧
      judgeWrite live r false .dirtyBudget 0 (valueBytes r .dirtyBudget 4 v) = none) := by decide +kernel

theorem witness_WarningStartsTheBarrier : off.powered = false ∧ (live.powered = true ∧ live.running = true) ∧
    (let s := { live with keeper := { live.keeper with pstate := .p5 } }
     s.powered = true ∧ s.running = false) ∧
    (let t := after .pwrwarnAssert (withTarget 7 { Target.initial with warnMember := true, enable := true } live)
     flushWaiting t ≠ 0) := by decide +kernel

theorem witness_PowerFollowsCeilingAndIdleness :
    (∀ r ∈ [Req.linkA, .linkB, .sideband], ∀ v ∈ [0, 1, 2],
      writeOpen live r [idManagement] [] = true ∧ live.inRun = true ∧
      judgeWrite live r false .powerCeiling 0 (valueBytes r .powerCeiling 2 v) = none) ∧
    (islandId ⟨.gather, 63⟩ = some 63 ∧ live.running = true ∧ live.clocked 63 = true ∧ mayDoze .gather = true ∧
      live.dur.g.ceiling ≠ 0 ∧ (live.island 63).level = .awake ∧ islandIdle live ⟨.gather, 63⟩ = true) ∧
    (islandId ⟨.translation, 3⟩ = some 195 ∧ mayRetain .translation = true ∧
      (sleeping 195 .dozing false).dur.g.ceiling = 2 ∧ ((sleeping 195 .dozing false).island 195).level = .dozing ∧
      ((sleeping 195 .dozing false).island 195).waking = false ∧
      islandIdle (sleeping 195 .dozing false) ⟨.translation, 3⟩ = true ∧
      retainable (sleeping 195 .dozing false) ⟨.translation, 3⟩ = true) ∧
    (((sleeping 195 .retained true).island 195).waking = true ∧
      ((sleeping 195 .retained true).island 195).level ≠ .awake) := by decide +kernel

/-- A part in a security state, with a nonce of each requester. -/
def secured (sec : SecState) : State :=
  let a := { Auth.initial with nonce := some [1], nonceAt := 0 }
  { live with nv := { live.nv with sec := sec }, auth := ⟨a, a, a⟩ }

/-- An OwnerKey that is a point of P-384: the generator of the curve, compressed. -/
def pointKey : List Byte := [0x03,
    0xAA, 0x87, 0xCA, 0x22, 0xBE, 0x8B, 0x05, 0x37, 0x8E, 0xB1, 0xC7, 0x1E, 0xF3, 0x20, 0xAD, 0x74,
    0x6E, 0x1D, 0x3B, 0x62, 0x8B, 0xA7, 0x9B, 0x98, 0x59, 0xF7, 0x41, 0xE0, 0x82, 0x54, 0x2A, 0x38,
    0x55, 0x02, 0xF2, 0x5D, 0xBF, 0x55, 0x29, 0x6C, 0x3A, 0x54, 0x5E, 0x38, 0x72, 0x76, 0x0A, 0xB7]

set_option maxRecDepth 100000 in
theorem witness_owner_key : ownerKeyValid pointKey = true := by decide +kernel

theorem witness_AuthorizationAndTransitions : ∀ r ∈ [Req.linkA, .linkB, .sideband],
    (∀ sec ∈ [SecState.provisioning, .openState, .sealed, .lockdown],
      let s := secured sec
      dictOpen s r [] = true ∧ s.nv.recording = none ∧ (s.auth.get r).nonce = some [1] ∧
        judgeWrite s r false .authRequest 0 [1, 0, 0, 0] = none ∧
        judgeWrite s r false .authRequest 0 [0, 0, 0, 0] = none ∧
        (∀ arg ∈ [1, 2, 3], judgeWrite s r false .authRequest 0 [2, arg, 0, 0] = none)) ∧
    transition .sealed (SecState.at 2) = none ∧
    transition .provisioning (SecState.at 1) = some (true, false) ∧
    transition .openState (SecState.at 2) = some (false, false) ∧
    transition .lockdown (SecState.at 2) = some (true, true) ∧
    (let s := { live with nv := { live.nv with sec := .lockdown, recording := some (r, .sealed, true) } }
     s.keeper.vddAux = true ∧ s.keeper.serving = true) := by decide +kernel

theorem witness_TamperLocksDown :
    (∀ action ∈ [0, 1, 2],
      let s := { live with nv := { live.nv with tamperEnable := 3, tamperAction := action } }
      s.keeper.vddAux = true ∧ s.nv.tamperEnable.getLsbD 1 = true ∧ s.nv.tamperEnable.getLsbD 0 = true ∧
        s.keeper.zeroizing = false ∧ s.nv.zeroizePending = false ∧ s.inRun = true ∧ s.keeper.scan = false ∧
        s.ledger.stream = [] ∧ s.ledger.reads = []) ∧
    ({ live with keeper := { live.keeper with zeroizing := true } }).keeper.zeroizing = true ∧
    ({ live with keeper := { live.keeper with pstate := .p5 } }).inRun = false := by decide +kernel

/-- The debug port with HYDAP selected, in a security state with a grant and a halt selection. -/
def debugging (sec : SecState) (grant : Nat) (sel : BitVec 16) : State :=
  let s := secured sec
  { s with dap := { s.dap with tap := .hydap, grant := grant, haltSel := sel } }

theorem witness_DebugActsAsGranted :
    (∀ r ∈ [Req.linkA, .linkB, .sideband],
      dictOpen (debugging .sealed 0 0) r [] = true ∧
      judgeWrite (debugging .sealed 0 0) r false .authRequest 0 [3, 3, 0, 0] = none ∧
      levelUse .sealed 3 = .refused ∧ levelUse .openState 1 = .free ∧ levelUse .openState 3 = .granted ∧
      (debugging .sealed 0 0).dap.grant ≤ 3 ∧
      judgeWrite (debugging .openState 2 0) r false .authRequest 0 [3, 3, 0, 0] = none ∧
      judgeWrite (debugging .openState 2 0) r false .authRequest 0 [3, 1, 0, 0] = none ∧
      1 < (debugging .openState 2 0).dap.grant ∧ (debugging .openState 2 0).dap.grant ≤ 3) ∧
    (∀ sec ∈ [SecState.openState, .lockdown], tapLive (debugging sec 2 0) = true ∧
      (debugging sec 2 0).dap.tap = .hydap) ∧
    (dapCheck (debugging .lockdown 2 0) 2).isSome = true ∧ dapCheck (debugging .openState 2 0) 2 = none ∧
    haltTargets 0x0400 ≠ none ∧ haltTargets 0x000F = none ∧
    dapCheck (debugging .openState 0 0) 1 = none ∧ (dapCheck (debugging .lockdown 0 0) 1).isSome = true ∧
    (bit (0x0200000000 : BitVec 40).toNat 36 = false ∧ bit (0x1200007004 : BitVec 40).toNat 36 = true ∧
      bits (0x1200007004 : BitVec 40).toNat 35 32 = 2 ∧ bit (0x1600000001 : BitVec 40).toNat 36 = true ∧
      bits (0x1600000001 : BitVec 40).toNat 35 32 = 6) := by decide +kernel

theorem witness_ScanAndTap :
    (tapLive (debugging .openState 3 0) = true ∧ dapCheck (debugging .openState 3 0) 3 = none ∧
      (debugging .openState 3 0).dur.g.mirrorEnable = true ∧ (debugging .openState 3 0).keeper.scan = false) ∧
    (let s := { debugging .openState 3 0 with dur := unmirrored.dur }
     dapCheck s 3 = none ∧ s.dur.g.mirrorEnable = false) ∧
    (let s := { debugging .openState 3 0 with keeper := { live.keeper with scan := true } }
     tapLive s = true ∧ s.dap.tap = .hydap ∧ s.keeper.scan = true ∧ s.keeper.ramStopped = false ∧
       s.keeper.pstate ≠ .p4) ∧
    (live.keeper.pstate ≠ .p3 ∧ live.keeper.pstate ≠ .p5 ∧
      ({ live with keeper := { live.keeper with pstate := .p3 } }).keeper.pstate = .p3) := by decide +kernel

/-- The sideband with endpoint 0x1D in SMBus mode; in I3C mode without a dynamic address, and with one. -/
def endpoint : State :=
  { live with
    keeper := { live.keeper with straps := { live.keeper.straps with sbMode := true } }
    sideband := { Sideband.initial with eid := 0x1D } }
def unaddressed : State := { live with sideband := { Sideband.initial with eid := 0x1D } }
def addressed : State := { live with sideband := { Sideband.initial with eid := 0x1D, dynAddr := 0x20 } }

/-- A request of endpoint 8 for this one. -/
def from8 : MctpFrom := { dest := 0x1D, src := 8, tag := 0, slave := 0 }

/-- A vendor-defined request with Hysura's number, whatever it is. -/
def vendorBytes (rest : List Byte) : List Byte := [0x7F] ++ beBytes 4 Config.ianaNumber.toNat ++ rest

theorem witness_vendor_number (rest : List Byte) :
    beNat (bytesAt (vendorBytes rest) 1 4) = Config.ianaNumber.toNat := by
  have h := Config.ianaNumber.isLt
  simp only [vendorBytes, beBytes, leBytes, beNat, bytesAt]
  simp [leNat]
  omega

/-- A message of one packet, and one whose packet does not end it. -/
def messageOf (bytes : List Byte) (eom : Bool) : MctpMsg :=
  { dest := 0x1D, src := 8, tag := 0, slave := 0, packets := [{ som := true, eom := eom, seq := 0, payload := bytes }] }

theorem witness_ControlMessagesAreAnswered :
    (∀ s ∈ [endpoint, addressed], sbServes s = true ∧ accepts from8 true s = true ∧ accepts from8 false s = true ∧
      accepts { from8 with dest := 0x1E } false s = false) ∧
    (accepts from8 false unaddressed = false ∧ accepts { from8 with dest := 0 } true unaddressed = true) ∧
    ((1 : Byte) ≠ 0 ∧ (0xFE : Byte) ≠ 0xFF ∧ endpoint.sideband.eid ≠ 0xFE) ∧
    (MctpMsg.whole (messageOf [0x7F] false) = false ∧ fieldAt (messageOf [0x01] true).bytes 0 1 ∉ [0x00, 0x05, 0x7F]) ∧
    ((vendorBytes [0x10, 0x80]).length ≤ 1024 ∧ fieldAt (vendorBytes [0x10, 0x80]) 0 1 = 0x7F ∧
      MctpMsg.whole (messageOf (vendorBytes [0x10, 0x80]) true) = true ∧
      bit (fieldAt (vendorBytes [0x10, 0x80]) 6 1) 7 = true ∧ endpoint.sideband.waiting.length < 4) ∧
    4 ≤ ({ endpoint.sideband with waiting := List.replicate 4 (mirReq 0 1 []) }).waiting.length := by decide +kernel

/-- An undelivered response of two packets, of which some are sent, with retries, in SMBus mode or in I3C mode. -/
def answering (smbus : Bool) (sent retries : Nat) : State :=
  let p : Response := { dest := 8, src := 0x1D, tag := 0, slave := 0x10, bytes := List.replicate 70 0x7F,
                        mirpiral := true, keep := false }
  { addressed with
    keeper := { live.keeper with straps := { live.keeper.straps with sbMode := smbus } }
    sideband := { addressed.sideband with responses := [p], sent := sent, retries := retries } }

/-- R182: a response of 70 bytes goes out in packets of 64 and 6 bytes with the tag and without Tag Owner. -/
theorem test_packets :
    (after .responseDelivered (answering true 0 0)).out.map (fun o => match o with
      | .mctp _ _ _ owner p _ => (owner, p.som, p.eom, p.payload.length)
      | _ => (true, false, false, 0)) = [(false, true, false, 64), (false, false, true, 6)] := by decide +kernel

theorem witness_I3cActsAndCarrierIsLost :
    (sbServes unaddressed = true ∧ unaddressed.keeper.straps.sbMode = false ∧ unaddressed.sideband.dynAddr = 0 ∧
      (0x48 : BitVec 7).toNat = 0x48 + unaddressed.keeper.straps.sbAddr % 4 ∧
      unaddressed.sideband.events.getLsbD 0 = true ∧ unaddressed.keeper.vddAux = true ∧
      unaddressed.sideband.hotJoined = false ∧ unaddressed.sideband.events.getLsbD 3 = true) ∧
    ({ unaddressed.sideband with events := 8 }).events.getLsbD 0 = false ∧
    (sbServes addressed = true ∧ addressed.sideband.dynAddr ≠ 0 ∧ 69 ≤ (69 : BitVec 16).toNat ∧
      (68 : BitVec 16).toNat < 69) ∧
    (({ live.image with owner := some .sideband, state := .staging }).state ≠ .applying) ∧
    (sbServes (answering true 1 2) = true ∧ (answering true 1 2).keeper.straps.sbMode = true ∧
      (∀ p ∈ (answering true 1 2).sideband.responses, (packetsOf p.bytes).length = 2) ∧
      (answering true 1 2).sideband.sent = 0 + 1 ∧ (answering true 1 2).sideband.retries < 3 ∧
      3 ≤ (answering true 2 3).sideband.retries ∧ (answering true 2 3).sideband.sent = 1 + 1 ∧
      (answering true 0 0).sideband.sent ≤ 0 ∧ (answering true 1 2).keeper.vddio = true) := by decide +kernel

theorem witness_MirpiralRequestsAreAnswered :
    (∀ command ∈ [1, 2, 3, 4, 5], sbServes (asking (mirReq 0 command []) live) = true ∧
      (asking (mirReq 0 command []) live).sideband.current = some (mirReq 0 command []) ∧
      (asking (mirReq 0 command []) live).hatch.owner = none ∧ (mirReq 0 command []).command = command ∧
      (asking (mirReq 0 command []) owned).sideband.current = some (mirReq 0 command []) ∧
      sbServes (asking (mirReq 0 command []) owned) = true) ∧
    objAt (mirIndex (mirReq 0 4 [0xFF, 0xFF, 0])) (mirSub (mirReq 0 4 [0xFF, 0xFF, 0])) = none ∧
    objAt (mirIndex (mirReq 0 4 [0, 0x70, 1])) (mirSub (mirReq 0 4 [0, 0x70, 1])) = some .dirtyBudget ∧
    ({ live with hatch := { Hatch.initial with owner := some .sideband } }).hatch.owner = some .sideband ∧
    owned.hatch.owner = some .linkA ∧
    (sbServes (answering false 0 0) = true ∧ (answering false 0 0).sideband.responses ≠ []) := by decide +kernel

/-- An SPDM requester, endpoint 8, has come so far. -/
def negotiating (caps algs : Bool) : State :=
  let n : Spdm := { owner := 8, caps := caps, algs := algs, negotiation := [], identity := [], measured := [] }
  { endpoint with sideband := { endpoint.sideband with spdm := some n } }

/-- An SPDM request of endpoint 8. -/
def spdmReq (version param1 param2 : Byte) (body : List Byte) : SpdmReq :=
  { via := from8, version := version, param1 := param1, param2 := param2, body := body }

theorem witness_SpdmRequestsAreAnswered :
    (∀ caps ∈ [false, true], ∀ algs ∈ [false, true], sbServes (negotiating caps algs) = true ∧
      accepts (spdmReq 0x12 0 0 []).via false (negotiating caps algs) = true ∧
      ((negotiating caps algs).sideband.spdm.map fun n => (n.owner, n.caps, n.algs)) =
        some ((spdmReq 0x12 0 0 []).via.src, caps, algs)) := by decide +kernel

theorem witness_SpdmRequestsAreAnswered_operands :
    ((spdmReq 0x10 0 0 []).version = 0x10 ∧ endpoint.sideband.spdm = none ∧ sbServes endpoint = true) ∧
    (let m := spdmReq 0x12 0 0 [0, 0, 0, 0, 0x80, 0, 0, 0, 2, 0, 0, 0]
     bit (fieldAt m.body 4 4) 7 = true ∧ bit (fieldAt m.body 8 4) 1 = true) ∧
    ((spdmReq 0x12 0 0 (List.replicate 32 0)).body.length = 32 ∧ 1 ≤ (6 : Byte).toNat ∧
      bit (1 : Byte).toNat 0 = true ∧ (spdmReq 0x12 1 0xFF (List.replicate 33 0)).body.length = 33 ∧
      fieldAt (spdmReq 0x12 1 0xFF (List.replicate 33 0)).body 32 1 % 16 = 0) := by decide +kernel

/-- An image whose staging a requester owns. -/
def imaging (r : Req) (st : ImageState) : State := { live with image := { live.image with owner := some r, state := st } }

/-- An apply of one record of two elements, DirtyBudget twice, with a number of element writes made. -/
def applying (made : Nat) : State :=
  let record : ImgRec :=
    { index := 0x7000, sub := 1, list := false, element := 0, vlen := 1, count := 2, values := [3, 3] }
  { live with image := { live.image with
    owner := some .linkA, state := .applying, todo := [(0, record)], element := made } }

theorem witness_ImagesAreStagedAndApplied :
    (∀ r ∈ [Req.linkA, .linkB, .sideband],
      (dictOpen live r [] = true ∧ live.image.state ≠ .applying ∧
        judgeWrite live r false .stageData 0 (bytesAt (List.replicate 64 1) 0 64) = none) ∧
      (dictOpen (imaging r .staging) r [] = true ∧ (imaging r .staging).image.state ≠ .applying ∧
        (∀ c ∈ [1, 2, 3], judgeWrite (imaging r .staging) r false .imageControl 0 [c] = none))) ∧
    (islandsReady (imaging .linkA .applying) [idManagement] = true ∧ (imaging .linkA .applying).image.state = .applying ∧
      (imaging .linkA .applying).image.todo = []) ∧
    (∀ p ∈ (applying 2).image.todo, p.2.count ≤ (applying 2).image.element) ∧
    (∀ p ∈ (applying 1).image.todo, (applying 1).image.element < p.2.count ∧
      (elementIslands p.2 1).all (applying 1).clocked = true) ∧
    ((imaging .linkA .failed).image.owner.isSome = true ∧ (imaging .linkA .failed).image.state ≠ .applying) := by
  decide +kernel

theorem witness_applying_has_room (made : Nat) : roomToDirty (applying made) :=
  room_of_clean _ rfl rfl (show 0 < 6 by decide)


/-- A record of lane 5, whose Gather island is halted: the apply waits. -/
theorem witness_ImagesAreStagedAndApplied_waits :
    let o := Obj.laneControl 5
    let s := { applying 0 with
      dap := { live.dap with halted := [idGather 5] }
      image := { (applying 0).image with todo := [(0,
        { index := o.index, sub := o.sub, list := false, element := 0, vlen := 8, count := 1,
          values := [1, 0, 0, 0, 0, 0, 0, 0] })] } }
    islandsReady s [idManagement] = true ∧ s.image.state = .applying ∧
      (applyRest (begun s [idManagement])).image.todo ≠ [] := by decide +kernel

end Sys2Proof.Tests
end

section
/-!
What each input of the Keeper and each event of a port in `InputsSetTheirFields` does, one rule per command, and the
statement put together from them.
-/

namespace Sys2Proof.Machine

open Sys2Proof

/-! ### What clearing the outputs leaves as it is -/

@[simp] theorem cleared_keeper (s : State) : (cleared s).keeper = s.keeper := rfl

@[simp] theorem cleared_powered (s : State) : (cleared s).powered = s.powered := rfl

@[simp] theorem cleared_inRun (s : State) : (cleared s).inRun = s.inRun := rfl

@[simp] theorem cleared_extestHeld (s : State) : (cleared s).extestHeld = s.extestHeld := rfl

@[simp] theorem configAnswers_cleared (s : State) (p : Port) : configAnswers (cleared s) p = configAnswers s p := by
  simp [configAnswers]

/-! ### A command whose effect is known -/

section
variable {s t : State} {f : State → State}

/-- A state with the queue of commands as before and nothing put out is answered as it is. -/
theorem answered_of_quiet (hpending : t.pending = s.pending) (hout : t.out = []) : answered s t = t := by
  rw [answered, ← hpending, hout, List.filter_nil, ← hout]

/-- What a command answers whose effect keeps the queue of commands and puts nothing out. -/
theorem answer_of_quiet (h : f (cleared s) = t) (hpending : t.pending = s.pending) (hout : t.out = []) :
    answer s f = .next t := by
  rw [answer_eq h, answered_of_quiet hpending hout]

/-- The one output of a command that does nothing else, when it reaches its receiver. -/
theorem answered_emit {o : Output} (hreaches : o.reaches s = true) :
    answered s ((cleared s).emit o) = { s with out := [o] } := by
  have hkept : [o].filter (Output.reaches s) = [o] := by simp [hreaches]
  exact congrArg (fun os => { s with out := os }) hkept

end

/-- No time passes until a moment that is not still to come. -/
theorem elapseTo_of_le {s : State} {t : Nat} (h : t ≤ s.now) : s.elapseTo t = s := if_neg (Nat.not_lt.2 h)

/-! ### The inputs of the Keeper -/

section
variable {s : State}

/-- PGOOD_ASSERT while PGOOD is 0. -/
theorem exec_pgoodAssert (haux : s.keeper.vddAux = true) (hpgood : s.keeper.pgood = false) :
    exec .pgoodAssert s =
      .next { s with out := [], keeper := { s.keeper with pgood := true, pgoodAt := s.now } } := by
  change execPgoodAssert s = _
  unfold execPgoodAssert
  exact answer_of_quiet (if_neg (by simp [haux, hpgood])) rfl rfl

/-- PWRWARN_DEASSERT, in every state. -/
theorem exec_pwrwarnDeassert (s : State) :
    exec .pwrwarnDeassert s = .next { s with
      out := [], keeper := { s.keeper with pwrwarn := false }, durab := { s.durab with warn := false } } := by
  change execPwrwarnDeassert s = _
  unfold execPwrwarnDeassert
  exact answer_of_quiet rfl rfl rfl

/-- The strap inputs latched: what STRAP_SAMPLE does once its moment has come. -/
def latchStraps (b : BitVec 5) (s : State) : State :=
  { s with keeper := { s.keeper with
    strapsSampled := true
    straps := { sbMode := b.getLsbD 0, sbAddr := bits b.toNat 2 1, refsel := b.getLsbD 3,
                testEn := b.getLsbD 4 } } }

/-- STRAP_SAMPLE when its moment, 1 ms after VDD_AUX, has come. -/
theorem exec_strapSample (b : BitVec 5) (haux : s.keeper.vddAux = true) (hfirst : s.keeper.strapsSampled = false)
    (hdue : s.keeper.auxAt + 1000000 ≤ s.now) :
    exec (.strapSample b) s = .next (latchStraps b (cleared s)) := by
  change execStrapSample b s = _
  unfold execStrapSample
  have hstraps : latchStraps b ((cleared s).elapseTo (s.keeper.auxAt + 1000000)) = latchStraps b (cleared s) :=
    congrArg (latchStraps b) (elapseTo_of_le hdue)
  exact answer_of_quiet ((if_neg (by simp [haux, hfirst])).trans hstraps) rfl rfl

/-- TJ_EXCURSION while the Keeper has power: only an excursion that begins is counted. -/
theorem exec_tjExcursion (outside : Bool) (haux : s.keeper.vddAux = true) :
    exec (.tjExcursion outside) s = .next { s with out := [], keeper := { s.keeper with
      tjOutside := outside
      tjExcursions := if outside && !s.keeper.tjOutside then satAdd 32 s.keeper.tjExcursions 1
        else s.keeper.tjExcursions } } := by
  change execTjExcursion outside s = _
  unfold execTjExcursion
  exact answer_of_quiet (if_neg (by simp [haux])) rfl rfl

/-- HOLDUP_LOW in P0, P1 or P2. -/
theorem exec_holdupLow (low : Bool) (haux : s.keeper.vddAux = true) (hrun : s.inRun = true) :
    exec (.holdupLow low) s =
      .next { s with out := [], keeper := { s.keeper with holdupLow := low } } := by
  change execHoldupLow low s = _
  unfold execHoldupLow
  exact answer_of_quiet (if_pos (by simp [haux, hrun])) rfl rfl

/-- VDDIO out of its range. -/
def vddioGone (s : State) : State := { s with keeper := { s.keeper with vddio := false } }

/-- The sideband's addresses forgotten. -/
def addressesGone (s : State) : State :=
  { s with sideband := { s.sideband with eid := 0, dynAddr := 0, hotJoined := false } }

/-- VDDIO_LOSS in Off: the core has no power, so no carrier loss reaches it; the addresses go (R176, R836). -/
theorem exec_vddioLoss_of_off (hoff : s.powered = false) (hvddio : s.keeper.vddio = true) :
    exec .vddioLoss s = .next (addressesGone (vddioGone (cleared s))) := by
  change execVddioLoss s = _
  unfold execVddioLoss
  have hcarrier : ¬ (vddioGone (cleared s)).powered = true := ne_true_of_eq_false hoff
  exact answer_of_quiet ((if_neg (by simp [hvddio])).trans (congrArg addressesGone (if_neg hcarrier))) rfl rfl

/-! ### The events of a port -/

variable {p : Port}

/-- PERST_DEASSERT, in every state: the port is ready to train if the core has power. -/
theorem exec_perstDeassert (p : Port) (s : State) :
    exec (.perstDeassert p) s = .next (answered s ((cleared s).modPort p fun x =>
      { x with perst := false, ready := s.powered })) := by
  change execPerstDeassert p s = _
  unfold execPerstDeassert
  exact answer_eq rfl

/-- LINK_UP on a port that can train and that no EXTEST instruction holds down (R735). -/
theorem exec_linkUp (hpow : s.powered = true) (hready : (s.port p).ready = true) (hfree : s.extestHeld = false) :
    exec (.linkUp p) s = .next (answered s ((cleared s).modPort p fun x => { x with linkUp := true })) := by
  change execLinkUp p s = _
  unfold execLinkUp
  exact answer_eq (if_pos (by simp [hpow, hready, hfree]))

/-- BUS_MASTER_ENABLE_WRITE to a function that answers (R354). -/
theorem exec_busMasterEnableWrite (v : Bool) (hanswers : configAnswers s p = true) :
    exec (.busMasterEnableWrite p v) s =
      .next (answered s ((cleared s).modPort p fun x => { x with busMaster := v })) := by
  change execBusMasterEnableWrite p v s = _
  unfold execBusMasterEnableWrite
  exact answer_eq (if_pos (by simp [hanswers]))

/-- D3HOT_ENTRY of a function that answers: Table PW-4 gives both ports D3hot (R676, R678). -/
theorem exec_d3hotEntry (hanswers : configAnswers s p = true) :
    exec (.d3hotEntry p) s =
      .next (answered s ((cleared s).modPort p fun x => { x with d3hot := true })) := by
  change execD3hotEntry p s = _
  unfold execD3hotEntry
  exact answer_eq (if_pos (by simp [hanswers, powerCaps]))

/-- D3HOT_EXIT of a function that answers: No_Soft_Reset is 1, so nothing is reset (R676, R678). -/
theorem exec_d3hotExit (hanswers : configAnswers s p = true) :
    exec (.d3hotExit p) s =
      .next (answered s ((cleared s).modPort p fun x => { x with d3hot := false })) := by
  change execD3hotExit p s = _
  unfold execD3hotExit
  exact answer_eq (if_neg (by simp [hanswers]))

/-- INTX_MESSAGE on a link that is up: the Unsupported Request reaches the host, and nothing changes (R27). -/
theorem exec_intxMessage (b : Bool) (hpow : s.powered = true) (hup : (s.port p).linkUp = true) :
    exec (.intxMessage p b) s = .next { s with out := [.unsupportedRequest p] } := by
  change execIntxMessage p b s = _
  unfold execIntxMessage
  rw [← answered_emit (by simp [Output.reaches, hup])]
  exact answer_eq (if_pos hpow)

end

/-- Settles O7: it holds. The inputs of the Keeper and the events of a port, each by the rule of its command. -/
theorem inputsSetTheirFields : Obligations.InputsSetTheirFields := by
  unfold Obligations.InputsSetTheirFields
  refine ⟨⟨?_, ?_, ?_, ?_, ?_, ?_⟩, fun p s => ⟨?_, ?_, ?_, ?_⟩⟩
  · exact fun _ => exec_pgoodAssert
  · exact exec_pwrwarnDeassert
  · exact fun b _ => exec_strapSample b
  · exact fun outside _ => exec_tjExcursion outside
  · exact fun low _ => exec_holdupLow low
  · exact fun _ => exec_vddioLoss_of_off
  · exact exec_perstDeassert p s
  · exact exec_linkUp
  · intro hanswers
    exact ⟨fun v => exec_busMasterEnableWrite v hanswers, exec_d3hotEntry hanswers, exec_d3hotExit hanswers⟩
  · exact fun hpow hup b => exec_intxMessage b hpow hup

end Sys2Proof.Machine
end

section
/-!
Posted register writes: the 32-bit parts of a write, what a part does, and what a full staging buffer holds off; an
ignored write and the order of the judgement; and the statement on them put together.
-/

namespace Sys2Proof.Machine

open Sys2Proof

/-! ### Little-endian bytes -/

@[simp] theorem length_leBytes (n v : Nat) : (leBytes n v).length = n := by
  induction n generalizing v with
  | zero => rfl
  | succ n ih => simp [leBytes, ih]

/-- The low `n` bytes of a number spell it modulo their range. -/
theorem leNat_leBytes (n v : Nat) : leNat (leBytes n v) = v % 256 ^ n := by
  induction n generalizing v with
  | zero => simp [leBytes, leNat, Nat.mod_one]
  | succ n ih =>
    have hpow : 256 ^ (n + 1) = 256 * 256 ^ n := Nat.pow_succ'
    rw [leBytes, leNat, ih, BitVec.toNat_ofNat, hpow, Nat.mod_mul]

/-- A field that is a whole list of bytes. -/
theorem fieldAt_of_length {bs : List Byte} {n : Nat} (h : bs.length = n) : fieldAt bs 0 n = leNat bs := by
  subst h
  simp [fieldAt, bytesAt]

/-- A word written as its four bytes is read back. -/
theorem fieldAt_leBytes_word (v : Word) : fieldAt (leBytes 4 v.toNat) 0 4 = v.toNat := by
  rw [fieldAt_of_length (length_leBytes 4 _), leNat_leBytes]
  exact Nat.mod_eq_of_lt v.isLt

/-! ### The parts of a posted write (R90) -/

/-- An aligned write of `4 * m` bytes has `m` parts, in ascending address order. -/
theorem dwordsOf_aligned {h : HostWrite} {m : Nat} (haligned : h.offset % 4 = 0) (hlen : h.data.length = 4 * m) :
    dwordsOf h = (List.range m).map fun k =>
      (h.offset + 4 * k, fieldAt h.data (4 * k) 4, (h.enables.drop (4 * k)).take 4) := by
  have hcount : (4 * m + 3) / 4 = m := by omega
  have hbase (k : Nat) : 4 * (h.offset / 4 + k) = h.offset + 4 * k := by omega
  simp [dwordsOf, haligned, hlen, hcount, hbase]

/-- An aligned write of four bytes is one part. -/
theorem dwordsOf_word {h : HostWrite} (haligned : h.offset % 4 = 0) (hlen : h.data.length = 4)
    (henables : h.enables.length = 4) : dwordsOf h = [(h.offset, fieldAt h.data 0 4, h.enables)] := by
  rw [dwordsOf_aligned (m := 1) haligned hlen]
  simp [List.take_of_length_le henables.le]

section
variable {p : Port} {w : Window} {s : State}

/-- A write outside the Letterbox pages is its parts, one after another. -/
theorem exec_registerWrite {h : HostWrite} (hpage : w = .bar0 → letterboxPage h.offset = none) :
    exec (.registerWrite p w h) s = .next (answered s ((dwordsOf h).foldl (writeDword p w) (cleared s))) := by
  change execRegisterWrite p w h s = _
  unfold execRegisterWrite
  refine answer_eq (if_neg ?_)
  cases w with
  | bar0 => simp [hpage rfl]
  | bar2 => simp

/-- A part with all its bytes is a write of its register. -/
theorem writeDword_whole {off : Nat} (v : Nat) {es : List Bool} (hin : off < windowSize w) (hlen : es.length = 4)
    (hall : es.all id = true) : writeDword p w s (off, v, es) = regWrite p w off v s := by
  simp only [writeDword]
  rw [if_neg (Nat.not_le.2 hin), if_pos (by simp [hlen, hall])]

/-- A part that lacks a byte is partial (R92). -/
theorem writeDword_partial {off : Nat} (v : Nat) {es : List Bool} (hin : off < windowSize w)
    (hlacks : es.all id = false) : writeDword p w s (off, v, es) = regPartial p w off s := by
  simp only [writeDword]
  rw [if_neg (Nat.not_le.2 hin), if_neg (by simp [hlacks])]

/-- A whole 32-bit write is a write of its register. -/
theorem exec_registerWrite_word {h : HostWrite} (hpage : w = .bar0 → letterboxPage h.offset = none)
    (hwhole : HostWrite.isWhole h 4 = true) (hin : h.offset < windowSize w) :
    exec (.registerWrite p w h) s =
      .next (answered s (regWrite p w h.offset (fieldAt h.data 0 4) (cleared s))) := by
  simp only [HostWrite.isWhole, Bool.and_eq_true, beq_iff_eq] at hwhole
  obtain ⟨⟨⟨hdata, hlen⟩, hall⟩, haligned⟩ := hwhole
  rw [exec_registerWrite hpage, dwordsOf_word haligned hdata hlen, List.foldl_cons, List.foldl_nil,
    writeDword_whole _ hin hlen hall]

/-- A whole 64-bit write is a write of its lower register, then of its upper one. -/
theorem exec_registerWrite_pair {h : HostWrite} (hpage : w = .bar0 → letterboxPage h.offset = none)
    (hdata : h.data.length = 8) (henables : h.enables = List.replicate 8 true) (haligned : h.offset % 4 = 0)
    (hin : h.offset + 8 ≤ windowSize w) :
    exec (.registerWrite p w h) s = .next (answered s (regWrite p w (h.offset + 4) (fieldAt h.data 4 4)
      (regWrite p w h.offset (fieldAt h.data 0 4) (cleared s)))) := by
  have hparts : dwordsOf h = [(h.offset, fieldAt h.data 0 4, List.replicate 4 true),
      (h.offset + 4, fieldAt h.data 4 4, List.replicate 4 true)] := by
    rw [dwordsOf_aligned (m := 2) haligned hdata, henables]
    rfl
  rw [exec_registerWrite hpage, hparts, List.foldl_cons, List.foldl_cons, List.foldl_nil,
    writeDword_whole _ (by omega) rfl rfl, writeDword_whole _ (by omega) rfl rfl]

/-! ### A full staging buffer (R286) -/

/-- A register write waits while the port's staging buffer is full. -/
theorem hostWrite_of_stagingFull {a : Access} {always : Bool} {ids : List Nat} {f : State → State}
    (hrdy : s.keeper.rdy = true) (hfull : stagingFull s p = true) : hostWrite p a always ids f s = s :=
  if_pos (by simp [hrdy, hfull])

/-- So does each part of a posted write, whole, partial or beyond the window. -/
theorem writeDword_of_stagingFull (d : Nat × Nat × List Bool) (hrdy : s.keeper.rdy = true)
    (hfull : stagingFull s p = true) : writeDword p w s d = s := by
  unfold writeDword
  split
  · rfl
  · split
    · exact hostWrite_of_stagingFull hrdy hfull
    · exact hostWrite_of_stagingFull hrdy hfull

@[simp] theorem stagingFull_cleared (s : State) (p : Port) : stagingFull (cleared s) p = stagingFull s p := by
  simp [stagingFull]

/-- A posted write that meets a full staging buffer changes nothing. -/
theorem exec_registerWrite_of_stagingFull {h : HostWrite} (hpage : w = .bar0 → letterboxPage h.offset = none)
    (hrdy : s.keeper.rdy = true) (hfull : stagingFull s p = true) :
    exec (.registerWrite p w h) s = .next (answered s (cleared s)) := by
  have hwaits : ∀ d, writeDword p w (cleared s) d = cleared s := fun d =>
    writeDword_of_stagingFull d hrdy (by rw [stagingFull_cleared, hfull])
  rw [exec_registerWrite hpage, List.foldl_fixed' hwaits]

/-! ### A write that dirties no line takes place at once -/

theorem postedOpen_cleared (s : State) (p : Port) (ids : List Nat) :
    postedOpen (cleared s) p ids = postedOpen s p ids := by
  cases p <;> rfl

/-- The effect of an open register write that leaves the dirty lines as they are. -/
theorem hostWrite_of_same_dirty {a : Access} {ids : List Nat} (always : Bool) {f : State → State}
    (hnodup : ids.Nodup) (hposted : a.isPosted = true) (hopen : postedOpen s p ids = true)
    (hdirty : ∀ t, (f t).durab.dirty = t.durab.dirty) :
    hostWrite p a always ids f (cleared s) = f (begun s ids) :=
  hostWrite_open always f hnodup hposted (by rw [postedOpen_cleared, hopen]) (heldBanks_same (hdirty _))

/-- SCRATCH takes the word written. -/
theorem regWrite_scratch (v : Nat) (hopen : postedOpen s p [idManagement] = true) :
    regWrite p .bar0 0x18 v (cleared s) = { begun s [idManagement] with scratch := BitVec.ofNat 32 v } :=
  hostWrite_of_same_dirty true (List.nodup_singleton _) rfl hopen fun _ => rfl

@[simp] theorem ignoredWrite_durab (s : State) (r : Req) (space addr reason : Nat) :
    (s.ignoredWrite r space addr reason).durab = s.durab := by
  cases r <;> rfl

/-- A partial write of DEADBOLT_SET is counted with reason PARTIAL (R92). -/
theorem regPartial_deadboltSet (hopen : postedOpen s p [idManagement] = true) :
    regPartial p .bar0 0x2024 (cleared s) =
      (begun s [idManagement]).ignoredWrite p.req 0 0x2024 rPartial :=
  hostWrite_of_same_dirty true (List.nodup_singleton _) rfl hopen fun t =>
    congrArg Durab.dirty (ignoredWrite_durab t p.req 0 0x2024 rPartial)

/-- A write of DEADBOLT_SET that lacks a byte, or every byte. -/
theorem exec_registerWrite_partial_deadboltSet (v : Word) {es : List Bool}
    (hopen : postedOpen s p [idManagement] = true) (hlen : es.length = 4) (hlacks : es.all id = false) :
    exec (.registerWrite p .bar0 { offset := 0x2024, data := leBytes 4 v.toNat, enables := es }) s =
      .next (answered s ((begun s [idManagement]).ignoredWrite p.req 0 0x2024 rPartial)) := by
  have haligned : 0x2024 % 4 = 0 := rfl
  have hin : 0x2024 < windowSize .bar0 := by decide
  rw [exec_registerWrite fun _ => rfl, dwordsOf_word haligned (length_leBytes 4 _) hlen, List.foldl_cons,
    List.foldl_nil, writeDword_partial _ hin hlacks, regPartial_deadboltSet hopen]

/-- A whole write of SCRATCH. -/
theorem exec_registerWrite_scratch (v : Word) (hopen : postedOpen s p [idManagement] = true) :
    exec (.registerWrite p .bar0 { offset := 0x18, data := leBytes 4 v.toNat, enables := List.replicate 4 true }) s =
      .next (answered s { begun s [idManagement] with scratch := v }) := by
  have hin : 0x18 < windowSize .bar0 := by decide
  rw [exec_registerWrite_word (fun _ => rfl) (by simp [HostWrite.isWhole]) hin, fieldAt_leBytes_word,
    regWrite_scratch _ hopen, BitVec.ofNat_toNat, BitVec.setWidth_eq]

end

/-! ### An ignored write (R108) -/

/-- An ignored write in its requester's own copy of the conduct registers. -/
def Conduct.ignored (c : Conduct) (space addr reason : Nat) : Conduct :=
  { c with
    ignCount := satAdd 32 c.ignCount 1
    ignLast := { addr := addr, space := space, reason := reason, valid := true }
    status := c.status ||| 2 }

/-- An ignored write changes its requester's copy of the conduct registers. -/
theorem ignoredWrite_conduct (s : State) (r : Req) (space addr reason : Nat) :
    (s.ignoredWrite r space addr reason).conduct =
      s.conduct.set r ((s.conduct.get r).ignored space addr reason) := by
  cases r <;> rfl

/-- Beside that copy and its port's management event it leaves the state as it is. -/
theorem ignoredWrite_frame (s : State) (r : Req) (space addr reason : Nat) :
    let t := s.ignoredWrite r space addr reason
    t.dur = s.dur ∧ t.keeper = s.keeper ∧ t.nv = s.nv ∧ t.ledger = s.ledger ∧ t.fabric = s.fabric ∧
      t.hatch = s.hatch := by
  cases r <;> exact ⟨rfl, rfl, rfl, rfl, rfl, rfl⟩

/-- Settles O30: it holds. A posted write through the rules of its parts, an ignored one through what it does to its
requester's copy, and the judgement by the order of its steps, of which an image's write differs only in the last. -/
theorem writesAreSplitJudgedAndCounted : Obligations.WritesAreSplitJudgedAndCounted := by
  unfold Obligations.WritesAreSplitJudgedAndCounted
  refine ⟨fun p w s => ⟨?_, ?_, ?_, ?_, ?_⟩, fun r space addr reason s => ?_,
    fun s r o e bs space addr f => ⟨?_, ?_⟩⟩
  · exact fun _ => exec_registerWrite_word
  · exact fun _ => exec_registerWrite_pair
  · exact fun v _ => exec_registerWrite_partial_deadboltSet v
  · exact exec_registerWrite_scratch
  · exact fun _ => exec_registerWrite_of_stagingFull
  · simp only [ignoredWrite_conduct, Per3.get_set]
    exact ⟨rfl, rfl, rfl, fun q => Per3.get_set_other _ r q _, ignoredWrite_frame s r space addr reason⟩
  · rfl
  · exact fun _ => writeObject_of_some space addr false f

end Sys2Proof.Machine
end

section
/-!
The claim: what a read of CLAIM does, how a bank decides, and how its answer completes the read; and the statement on
them put together.
-/

namespace Sys2Proof.Machine

open Sys2Proof

/-! ### A map read at a key just given a listed value -/

/-- A map in any form reads back a value other than the default. -/
theorem mget_mput_of_ne {α : Type} [DecidableEq α] {d v : α} (hv : v ≠ d) (k : Nat) (m : SMap α) :
    mget d (mput d k v m) k = v := by
  induction m with
  | nil => simp [mput, mget, hv]
  | cons q m ih =>
    obtain ⟨j, u⟩ := q
    simp only [mput, if_neg hv]
    split
    · exact if_pos rfl
    · next hge =>
      split
      · exact if_pos rfl
      · next hne => exact (if_neg hne).trans ih

/-! ### What busy islands and cleared outputs leave as they are -/

/-- Busy islands differ in their level records alone. -/
theorem busyAll_frame (s : State) (ids : List Nat) :
    busyAll s ids = { s with power := { s.power with islands := (busyAll s ids).power.islands } } := by
  unfold busyAll
  induction ids generalizing s with
  | nil => rfl
  | cons i ids ih => exact ih (s.busy i)

section
variable (s : State) (ids : List Nat)

/-- The state in which a command has its effect differs in its outputs and in the level records. -/
theorem begun_frame : begun s ids =
    { s with out := [], power := { s.power with islands := (begun s ids).power.islands } } :=
  busyAll_frame (cleared s) ids

@[simp] theorem begun_out : (begun s ids).out = [] := by rw [begun_frame]

@[simp] theorem begun_now : (begun s ids).now = s.now := by rw [begun_frame]

@[simp] theorem begun_dur : (begun s ids).dur = s.dur := by rw [begun_frame]

@[simp] theorem begun_nv : (begun s ids).nv = s.nv := by rw [begun_frame]

@[simp] theorem begun_ledger : (begun s ids).ledger = s.ledger := by rw [begun_frame]

@[simp] theorem begun_fabric : (begun s ids).fabric = s.fabric := by rw [begun_frame]

@[simp] theorem begun_port (p : Port) : (begun s ids).port p = s.port p := by
  rw [begun_frame]
  cases p <;> rfl

@[simp] theorem begun_clocked (i : Nat) : (begun s ids).clocked i = s.clocked i := by
  rw [begun_frame]
  rfl

variable {s ids}

/-- A step of ready islands takes place on the state in which its command has its effect. -/
theorem handshake_cleared (f : State → State) (h : islandsReady s ids = true) :
    handshake ids f (cleared s) = f (begun s ids) :=
  handshake_ready (s := cleared s) f h

end

/-! ### Records and slots read through the parts of the state that hold them -/

section
variable {s t : State} {tn sn : Nat} {c : Cls}

/-- A target's record is read from the durable state. -/
theorem tgt_of_dur (h : t.dur = s.dur) : t.tgt tn = s.tgt tn := by simp only [State.tgt, h]

/-- A source's record is read from the durable state. -/
theorem src_of_dur (h : t.dur = s.dur) : t.src sn = s.src sn := by simp only [State.src, h, tgt_of_dur h]

/-- So is what the bank judges of a claim. -/
theorem claimAccepted_of_dur (h : t.dur = s.dur) : claimAccepted t tn c sn = claimAccepted s tn c sn := by
  simp only [claimAccepted, src_of_dur h]

/-- A delivery slot is read from the fabric. -/
theorem dslot_of_fabric (h : t.fabric = s.fabric) : t.dslot tn c = s.dslot tn c := by simp only [State.dslot, h]

/-- A slot with an offer, or that holds a source, is not the slot of first boot. -/
def DSlot.occupied (d : DSlot) : Bool := d.offer.isSome || d.holding.isSome

theorem DSlot.ne_initial_of_occupied {d : DSlot} (h : d.occupied = true) : d ≠ .initial := by
  rintro rfl
  cases h

/-- A slot just changed to an occupied one reads as it was changed. -/
theorem modSlot_dslot_of_occupied {f : DSlot → DSlot} (h : (f (s.dslot tn c)).occupied = true) :
    (s.modSlot tn c f).dslot tn c = f (s.dslot tn c) :=
  mget_mput_of_ne (DSlot.ne_initial_of_occupied h) _ _

end

/-! ### The read of CLAIM (R355, R356, R361) -/

section
variable {s : State} {r : Reader} {p : Port} {tn : Nat} {c : Cls}

/-- A claim read with nothing to claim returns 0. -/
theorem judgeClaim_of_nothing
    (h : (s.dslot tn c).offer = none ∨ s.fabric.shutter = true ∨ (s.tgt tn).enable = false) :
    judgeClaim r tn c s = s.answerRead r 0 := by
  unfold judgeClaim
  split
  · rfl
  · next o hoffer =>
    refine if_pos ?_
    simpa [hoffer] using h

/-- A claim of an offer goes to the bank of the offered source. -/
theorem judgeClaim_of_offer {o : OfferData} (hoffer : (s.dslot tn c).offer = some o) (hopen : s.fabric.shutter = false)
    (henable : (s.tgt tn).enable = true) :
    judgeClaim r tn c s = sendClaim tn (bankOf o.sn) (.claim tn c o.sn o.note.isSome)
      (s.modSlot tn c fun d => { d with claiming := some r }) := by
  unfold judgeClaim
  simp [hoffer, hopen, henable]

/-- A whole word read is answered with one output. -/
theorem answerRead_whole (s : State) (p : Port) (v : Word) :
    s.answerRead (Reader.whole p) v = s.emit (.readWord p v) := rfl

theorem accessOpen_cleared (s : State) (p : Port) (ids : List Nat) :
    accessOpen (cleared s) p ids = accessOpen s p ids := by
  cases p <;> rfl

/-- A read outside BAR0 comes after no Letterbox write, so that an open one waits behind nothing (R93, R94). -/
theorem bar2Read_not_behind {ids : List Nat} (off first count : Nat) (h : accessOpen s p ids = true) :
    waitsBehind s p (.read .bar2 off first count) = false :=
  read_not_behind (ids := ids) rfl (by simp [readOpen, h, Access.letterboxPages, letterboxPending])

/-- A read of CLAIM that reaches its register: it waits behind one that waits, or is judged. -/
theorem exec_claimRead {tn : Fin 4096} (hopen : accessOpen s p [idDelivery (tn.val / 64)] = true)
    (hreach : s.linkReaches p (s.tgt tn).room = true) :
    exec (.claimRead p tn c) s = .next (answered s (if (s.dslot tn c).claiming.isSome then
      (cleared s).modSlot tn c fun d => { d with claimQ := d.claimQ ++ [Reader.whole p] }
      else judgeClaim (Reader.whole p) tn c (cleared s))) := by
  change execClaimRead p tn c s = _
  unfold execClaimRead
  have hclear : accessOpen (cleared s) p [idDelivery (tn.val / 64)] = true := by rw [accessOpen_cleared, hopen]
  have hgate : accessGate (cleared s) (Reader.whole p).port false [idDelivery (tn.val / 64)] = .pass :=
    accessGate_open false hclear
  have hfirst : waitsBehind (cleared s) (Reader.whole p).port (.read .bar2 (wicketOffset tn c 0)
      (Reader.whole p).first (Reader.whole p).count) = false := bar2Read_not_behind _ _ _ hclear
  have hreach : (cleared s).linkReaches (Reader.whole p).port ((cleared s).tgt tn).room = true := hreach
  refine answer_eq ?_
  simp only [claimRead, hostAccess, hgate]
  rw [if_neg (ne_true_of_eq_false hfirst), wakeForRead_of_awake _ _ (awake_of_open hclear), if_neg (by simp [hreach])]
  rfl

end

/-! ### The bank's decision (R307, R308, R315, R357) -/

section
variable {s : State} {tn sn : Nat} {c : Cls} {note : Bool}

/-- A refused claim changes no source: only its answer is sent. -/
theorem decideClaim_refused (h : claimAccepted s tn c sn = false) :
    decideClaim tn c sn note s = s.notifyRank sn tn (.answer tn c sn false false s.now) := by
  simp [decideClaim, h]

theorem acceptClaim_fabric (tn : Nat) (c : Cls) (sn : Nat) (note : Bool) (s : State) :
    (acceptClaim tn c sn note s).fabric = s.fabric := by
  unfold acceptClaim
  dsimp only
  split <;> rfl

theorem acceptClaim_now (tn : Nat) (c : Cls) (sn : Nat) (note : Bool) (s : State) :
    (acceptClaim tn c sn note s).now = s.now := by
  unfold acceptClaim
  dsimp only
  split <;> rfl

/-- An accepted claim takes effect, and its answer carries the NOTE_LOST that the source had. -/
theorem decideClaim_accepted (h : claimAccepted s tn c sn = true) :
    decideClaim tn c sn note s =
      (acceptClaim tn c sn note s).notifyRank sn tn (.answer tn c sn true (s.src sn).noteLost s.now) := by
  simp [decideClaim, h, acceptClaim_now]

/-- A claim answer has its own space in the Notify channel (R357). -/
theorem notifyUsed_notifyRank_reserved {n : Notify} (h : n.reserved = true) (bank rank : Nat) :
    notifyUsed (s.notifyRank sn tn n) bank rank = notifyUsed s bank rank := by
  by_cases hrank : rank = tn / 256
  · subst hrank
    simp [notifyUsed, State.notifyRank, mmod, mget_mput_of_ne, State.sent, h]
  · simp [notifyUsed, State.notifyRank, mmod, mget_mput_other _ _ _ _ _ hrank]

/-- A bank's decision takes no place in a Notify channel that other transfers need. -/
theorem notifyUsed_decideClaim (bank rank : Nat) :
    notifyUsed (decideClaim tn c sn note s) bank rank = notifyUsed s bank rank := by
  cases h : claimAccepted s tn c sn with
  | false => rw [decideClaim_refused h, notifyUsed_notifyRank_reserved rfl]
  | true => rw [decideClaim_accepted h, notifyUsed_notifyRank_reserved rfl, notifyUsed, acceptClaim_fabric, notifyUsed]

/-- BANK_CLAIM at a ready bank with room: the claim leaves the channel and is decided. -/
theorem exec_bankClaim {b : Fin 32} {x : Sent ClaimReq} {rest : List (Sent ClaimReq)}
    (hqueue : mget [] s.fabric.claimQ b = x :: rest) (hbody : x.body = .claim tn c sn note)
    (hready : islandsReady s [idBank b] = true) (hroom : roomToDirty s) :
    exec (.bankClaim b) s = .next (answered s (decideClaim tn c sn note
      ((begun s [idBank b]).modFabric fun f => { f with claimQ := mput [] b rest f.claimQ }))) := by
  change execBankClaim b s = _
  unfold execBankClaim
  refine answer_eq ?_
  have hqueue' : mget [] (begun s [idBank b]).fabric.claimQ b = x :: rest := by rw [begun_fabric, hqueue]
  have hckpt : (begun s [idBank b]).durab.ckpt = none :=
    (congrArg Durab.ckpt (busyAll_durab _ _)).trans (ckpt_of_ready hready)
  have hroom' : roomToDirty (begun s [idBank b]) := room_busyAll _ (show roomToDirty (cleared s) from hroom)
  rw [handshake_cleared _ hready]
  simp only [hqueue', List.head?_cons, Option.map_some, hbody, claimStep]
  rw [bankApply_room x _ hroom' hckpt fun rank _ => ?_]
  · rfl
  · exact (notifyUsed_decideClaim _ _).le.trans (le_max_right _ _)

end

/-! ### The claim's answer (R357, R358, R388) -/

/-- The slot when a claim read is refused. -/
def DSlot.claimRefused (d : DSlot) : DSlot :=
  { d with claiming := none, accepted := none, heldSel := none, expired := false }

/-- The slot when a claim read of an offer succeeds. -/
def DSlot.claimed (o : OfferData) (d : DSlot) : DSlot :=
  { d with
    offer := none, stage := .waiting, replaced := false, paneIssued := false, faulted := false, claiming := none,
    accepted := none, heldSel := none, descr := none, expired := false
    holding := if d.expired then none else some o.sn }

/-- The slot when no claim read waits behind another. -/
def DSlot.unqueued (d : DSlot) : DSlot := { d with claimQ := [] }

/-- A claim read behind which none waits completes: its slot changes, and its word is returned. -/
def completeClaim (tn : Nat) (c : Cls) (f : DSlot → DSlot) (r : Reader) (v : Word) (s : State) : State :=
  ((s.modSlot tn c f).answerRead r v).modSlot tn c DSlot.unqueued

section
variable {s : State} {tn : Nat} {c : Cls} {f : DSlot → DSlot} {r : Reader} {p : Port} {v : Word}

@[simp] theorem completeClaim_dur : (completeClaim tn c f r v s).dur = s.dur := by simp [completeClaim]

@[simp] theorem completeClaim_ledger : (completeClaim tn c f r v s).ledger = s.ledger := by simp [completeClaim]

@[simp] theorem completeClaim_nv : (completeClaim tn c f r v s).nv = s.nv := by simp [completeClaim]

theorem completeClaim_out : (completeClaim tn c f (Reader.whole p) v s).out = s.out ++ [.readWord p v] := rfl

/-- The slot of a completed claim read, of which no read waits any more. -/
theorem completeClaim_dslot (h : (f (s.dslot tn c)).occupied = true) :
    (completeClaim tn c f r v s).dslot tn c = (f (s.dslot tn c)).unqueued := by
  have hchanged : ((s.modSlot tn c f).answerRead r v).dslot tn c = f (s.dslot tn c) :=
    (dslot_of_fabric (by simp)).trans (modSlot_dslot_of_occupied h)
  rw [← hchanged] at h ⊢
  exact modSlot_dslot_of_occupied h

/-- A refused claim read returns 0. -/
theorem claimRefuse_alone (hreader : (s.dslot tn c).claiming = some r) (hheld : (s.dslot tn c).heldSel = none)
    (hqueue : (s.dslot tn c).claimQ = []) :
    claimRefuse tn c s = completeClaim tn c DSlot.claimRefused r 0 s := by
  simp only [claimRefuse, hreader, hheld, hqueue]
  rfl

/-- A claim read whose source the watchdog has not completed meanwhile returns its word (R357, R390). -/
theorem finishClaim_alone {o : OfferData} (lost pane : Bool) (hoffer : (s.dslot tn c).offer = some o)
    (hreader : (s.dslot tn c).claiming = some r) (hexpired : (s.dslot tn c).expired = false)
    (hqueue : (s.dslot tn c).claimQ = []) :
    finishClaim tn c lost pane s =
      completeClaim tn c (DSlot.claimed o) r (claimWord o (s.dslot tn c).seq pane lost) s := by
  simp only [finishClaim, hoffer, hreader, hexpired, hqueue]
  rfl

/-- The acceptance of an offer whose writes are out completes the read at once. -/
theorem claimAccept_issued {o : OfferData} {pane : Bool} (lost : Bool) (hoffer : (s.dslot tn c).offer = some o)
    (hreader : (s.dslot tn c).claiming = some r) (hstage : (s.dslot tn c).stage = .issued pane)
    (hout : ∀ port id, (s.dslot tn c).descr = some (port, id) → inOut s port id = false) :
    claimAccept tn c lost s = finishClaim tn c lost pane s := by
  simp only [claimAccept, hoffer, hreader, hstage]
  split
  · next port id hdescr => simp [issueBefore, hout port id hdescr, hdescr]
  · rfl

/-- The slot with its watchdog set. -/
def DSlot.watched (at' : Option Nat) (d : DSlot) : DSlot := { d with wdog := at' }

/-- A slot with an offer reads as its watchdog was set. -/
theorem modSlot_watched_dslot {o : OfferData} (hoffer : (s.dslot tn c).offer = some o) (at' : Option Nat) :
    (s.modSlot tn c (DSlot.watched at')).dslot tn c = (s.dslot tn c).watched at' :=
  modSlot_dslot_of_occupied (by simp [DSlot.occupied, DSlot.watched, hoffer])

/-- An accepted claim of an offer whose writes are out: the watchdog runs from the bank's decision where WDOG_EN asks,
and the read completes. -/
theorem takeAnswer_issued {o : OfferData} {pane : Bool} (lost : Bool) (at' : Nat)
    (hoffer : (s.dslot tn c).offer = some o) (hreader : (s.dslot tn c).claiming = some r)
    (hqueue : (s.dslot tn c).claimQ = []) (hstage : (s.dslot tn c).stage = .issued pane)
    (hexpired : (s.dslot tn c).expired = false)
    (hout : ∀ port id, (s.dslot tn c).descr = some (port, id) → inOut s port id = false) :
    takeAnswer tn c true lost at' s =
      completeClaim tn c (DSlot.claimed o) r (claimWord o (s.dslot tn c).seq pane lost)
        (s.modSlot tn c (DSlot.watched (if (s.tgt tn).wdogEn c then some at' else none))) := by
  generalize hwatched : s.modSlot tn c (DSlot.watched (if (s.tgt tn).wdogEn c then some at' else none)) = t
  have hslot : t.dslot tn c = (s.dslot tn c).watched (if (s.tgt tn).wdogEn c then some at' else none) := by
    rw [← hwatched, modSlot_watched_dslot hoffer]
  have hsent : ∀ port id, (t.dslot tn c).descr = some (port, id) → inOut t port id = false := by
    intro port id hdescr
    rw [hslot] at hdescr
    rw [← hout port id hdescr, ← hwatched]
    cases port <;> rfl
  have htake : takeAnswer tn c true lost at' s = claimAccept tn c lost t := by
    rw [← hwatched]
    rfl
  have hoffer' : (t.dslot tn c).offer = some o := (congrArg DSlot.offer hslot).trans hoffer
  have hreader' : (t.dslot tn c).claiming = some r := (congrArg DSlot.claiming hslot).trans hreader
  rw [htake, claimAccept_issued lost hoffer' hreader' ((congrArg DSlot.stage hslot).trans hstage) hsent,
    finishClaim_alone lost pane hoffer' hreader' ((congrArg DSlot.expired hslot).trans hexpired)
      ((congrArg DSlot.claimQ hslot).trans hqueue), hslot]
  rfl

/-- The state in which a Delivery island takes the claim answer at the head of its Select channel. -/
def answerReached (d : Fin 64) (rest : List (Sent Select)) (s : State) : State :=
  dropSelect d rest (begun s [idRank (d.val / 4), idDelivery d])

section
variable (d : Fin 64) (rest : List (Sent Select)) (s : State)

@[simp] theorem answerReached_out : (answerReached d rest s).out = [] := by simp [answerReached, dropSelect]

@[simp] theorem answerReached_dur : (answerReached d rest s).dur = s.dur := by simp [answerReached, dropSelect]

@[simp] theorem answerReached_nv : (answerReached d rest s).nv = s.nv := by simp [answerReached, dropSelect]

@[simp] theorem answerReached_ledger : (answerReached d rest s).ledger = s.ledger := by
  simp [answerReached, dropSelect]

@[simp] theorem answerReached_dslot (tn : Nat) (c : Cls) : (answerReached d rest s).dslot tn c = s.dslot tn c := by
  simp [answerReached, dropSelect, State.dslot]

@[simp] theorem answerReached_inOut (port : Port) (id : Nat) :
    inOut (answerReached d rest s) port id = inOut s port id := by
  have hport : (answerReached d rest s).port port = (begun s [idRank (d.val / 4), idDelivery d]).port port := by
    cases port <;> rfl
  rw [inOut, hport, begun_port, inOut]

end

/-- A claim answer at the head of a Delivery island's Select channel is taken, where the link of its reader has its
clock. -/
theorem exec_claimAnswer {d : Fin 64} {x : Sent Select} {rest : List (Sent Select)} {sn at' : Nat} {ok lost : Bool}
    (hready : islandsReady s [idRank (d.val / 4), idDelivery d] = true)
    (hqueue : mget [] s.fabric.selectQ d = x :: rest) (hbody : x.body = .answer tn c sn ok lost at')
    (hreader : (s.dslot tn c).claiming = some r) (hclock : s.clocked (idLink r.port) = true) :
    exec (.claimAnswer d) s =
      .next (answered s (takeAnswer tn c ok lost at' (answerReached d rest s))) := by
  obtain ⟨sender, mark, body⟩ := x
  obtain rfl : body = .answer tn c sn ok lost at' := hbody
  change execClaimAnswer d s = _
  unfold execClaimAnswer
  refine answer_eq ?_
  have hclocked : readerClocked (begun s [idRank (d.val / 4), idDelivery d]) tn c = true := by
    have hslot : (begun s [idRank (d.val / 4), idDelivery d]).dslot tn c = s.dslot tn c :=
      dslot_of_fabric (begun_fabric s _)
    simp [readerClocked, hslot, hreader, hclock]
  rw [handshake_cleared _ hready]
  simp only [answerFuel, answerStep, begun_fabric, hqueue, hclocked, if_true]
  rfl

@[simp] theorem answered_dur (s t : State) : (answered s t).dur = t.dur := rfl

@[simp] theorem answered_nv (s t : State) : (answered s t).nv = t.nv := rfl

@[simp] theorem answered_ledger (s t : State) : (answered s t).ledger = t.ledger := rfl

/-- The word of a completed claim read is put out where its link is up. -/
theorem answered_completeClaim_out {w : State} (hquiet : w.out = []) (hup : (s.port p).linkUp = true) :
    (answered s (completeClaim tn c f (Reader.whole p) v w)).out = [.readWord p v] := by
  simp [answered, completeClaim_out, hquiet, Output.reaches, hup]

end

/-! ### CLAIM_ANSWER to a claim read behind which none waits -/

section
variable {s : State} {d : Fin 64} {x : Sent Select} {tn sn at' : Nat} {c : Cls} {ok lost : Bool} {p : Port}
  {o : OfferData} {rest : List (Sent Select)}
  (hready : islandsReady s [idRank (d.val / 4), idDelivery d] = true)
  (hqueue : mget [] s.fabric.selectQ d = x :: rest) (hbody : x.body = .answer tn c sn ok lost at')
  (hoffer : (s.dslot tn c).offer = some o) (hreader : (s.dslot tn c).claiming = some (Reader.whole p))
  (hwaiting : (s.dslot tn c).claimQ = []) (hup : (s.port p).linkUp = true) (hclock : s.clocked (idLink p) = true)
include hready hqueue hbody hoffer hreader hwaiting hup hclock

/-- A refusal makes the read return 0, and the offer stays. -/
theorem claimAnswer_refused (hrefused : ok = false) (hheld : (s.dslot tn c).heldSel = none) :
    ∃ t, exec (.claimAnswer d) s = .next t ∧ t.out = [.readWord p 0] ∧ (t.dslot tn c).claiming = none ∧
      (t.dslot tn c).offer = some o ∧ t.dur = s.dur ∧ t.ledger = s.ledger ∧ t.nv = s.nv := by
  subst hrefused
  have hexec := exec_claimAnswer hready hqueue hbody hreader hclock
  have hslot := answerReached_dslot d rest s tn c
  have hcomplete : takeAnswer tn c false lost at' (answerReached d rest s) =
      completeClaim tn c DSlot.claimRefused (Reader.whole p) 0 (answerReached d rest s) :=
    claimRefuse_alone (hslot.symm ▸ hreader) (hslot.symm ▸ hheld) (hslot.symm ▸ hwaiting)
  have hdone : (takeAnswer tn c false lost at' (answerReached d rest s)).dslot tn c =
      (s.dslot tn c).claimRefused.unqueued := by
    rw [hcomplete, completeClaim_dslot, hslot]
    simp [hslot, DSlot.occupied, DSlot.claimRefused, hoffer]
  refine ⟨_, hexec, ?_, congrArg DSlot.claiming hdone, (congrArg DSlot.offer hdone).trans hoffer, ?_⟩
  · rw [hcomplete, answered_completeClaim_out (by simp) hup]
  · simp [hcomplete]

/-- The acceptance of an offer whose writes are out makes the read return the offer's word, and the slot hold the
source. -/
theorem claimAnswer_accepted {pane : Bool} (haccepted : ok = true) (hstage : (s.dslot tn c).stage = .issued pane)
    (hexpired : (s.dslot tn c).expired = false)
    (hsent : ∀ port id, (s.dslot tn c).descr = some (port, id) → inOut s port id = false) :
    ∃ t, exec (.claimAnswer d) s = .next t ∧ t.out = [.readWord p (claimWord o (s.dslot tn c).seq pane lost)] ∧
      (t.dslot tn c).holding = some o.sn ∧ (t.dslot tn c).offer = none ∧ (t.dslot tn c).claiming = none ∧
      (t.dslot tn c).wdog = (if (s.tgt tn).wdogEn c then some at' else none) ∧
      t.dur = s.dur ∧ t.ledger = s.ledger ∧ t.nv = s.nv := by
  subst haccepted
  have hexec := exec_claimAnswer hready hqueue hbody hreader hclock
  have hslot := answerReached_dslot d rest s tn c
  have htgt : (answerReached d rest s).tgt tn = s.tgt tn := tgt_of_dur (by simp)
  have hcomplete := takeAnswer_issued lost at' (hslot.symm ▸ hoffer) (hslot.symm ▸ hreader) (hslot.symm ▸ hwaiting)
    (hslot.symm ▸ hstage) (hslot.symm ▸ hexpired) (by simpa using hsent)
  rw [hslot, htgt] at hcomplete
  have hwatched := modSlot_watched_dslot (hslot.symm ▸ hoffer) (if (s.tgt tn).wdogEn c then some at' else none)
  have hdone : (takeAnswer tn c true lost at' (answerReached d rest s)).dslot tn c =
      (((s.dslot tn c).watched (if (s.tgt tn).wdogEn c then some at' else none)).claimed o).unqueued := by
    rw [hcomplete, completeClaim_dslot, hwatched, hslot]
    simp [hwatched, hslot, DSlot.occupied, DSlot.claimed, DSlot.watched, hexpired]
  refine ⟨_, hexec, ?_, (congrArg DSlot.holding hdone).trans (if_neg (ne_true_of_eq_false hexpired)),
    congrArg DSlot.offer hdone, congrArg DSlot.claiming hdone, congrArg DSlot.wdog hdone, ?_⟩
  · rw [hcomplete, answered_completeClaim_out (by simp) hup]
  · simp [hcomplete]

end

/-- Settles O22: it holds. The read, the bank's decision and the answer, each by the rule of its command. -/
theorem claimsAreDecidedAtTheBank : Obligations.ClaimsAreDecidedAtTheBank := by
  unfold Obligations.ClaimsAreDecidedAtTheBank
  refine ⟨fun p tn c s hopen hreach => ⟨?_, ?_, ?_⟩,
    fun b x tn sn c note rest s hqueue hbody hready hroom => ⟨?_, ?_⟩,
    fun d x tn sn at' c ok lost p o rest s hready hqueue hbody hoffer hreader hwaiting hup hclock => ?_⟩
  · intro hidle hnothing
    have hup : (s.port p).linkUp = true := (open_parts hopen).2.1
    rw [exec_claimRead hopen hreach, if_neg (by simp [hidle]), judgeClaim_of_nothing (s := cleared s) hnothing,
      answerRead_whole, answered_emit (o := .readWord p 0) hup]
  · intro o hidle hoffer hshutter henable
    rw [exec_claimRead hopen hreach, if_neg (by simp [hidle]),
      judgeClaim_of_offer (s := cleared s) hoffer hshutter henable]
  · intro hbusy
    rw [exec_claimRead hopen hreach, if_pos hbusy]
  · intro hrefused
    rw [exec_bankClaim hqueue hbody hready hroom,
      decideClaim_refused ((claimAccepted_of_dur (by simp)).trans hrefused)]
    simp
  · intro haccepted
    rw [exec_bankClaim hqueue hbody hready hroom,
      decideClaim_accepted ((claimAccepted_of_dur (by simp)).trans haccepted), src_of_dur (s := s) (by simp)]
    simp
  · exact ⟨claimAnswer_refused hready hqueue hbody hoffer hreader hwaiting hup hclock,
      fun _ => claimAnswer_accepted hready hqueue hbody hoffer hreader hwaiting hup hclock⟩

end Sys2Proof.Machine
end

section
/-!
The Keeper's store under the shared operations: what a state transformer keeps of it (`Keeps`), the combinators under
which a property of the store lasts, and the operations that leave the store as it is.
-/

namespace Sys2Proof.Machine

open Sys2Proof

/-- A state transformer keeps a property of the Keeper's store: where it holds before, it holds after. -/
def Keeps (P : NvStore → Prop) (f : State → State) : Prop := ∀ s, P s.nv → P (f s).nv

section
variable {P : NvStore → Prop} {f : State → State}

/-- What leaves the store as it is keeps every property of it. -/
theorem Keeps.of_nv (hf : ∀ s, (f s).nv = s.nv) : Keeps P f := fun s hs => by rwa [hf s]

/-- What keeps every value of the store leaves it as it is. -/
theorem nv_of_keeps (hf : ∀ n, Keeps (· = n) f) (s : State) : (f s).nv = s.nv := hf s.nv s rfl

/-- A transformer that leaves the store as it is, as one that keeps its value. -/
theorem keeps_value (hf : ∀ s, (f s).nv = s.nv) (n : NvStore) : Keeps (· = n) f := .of_nv hf

/-- A fold of steps that leave the store as it is leaves it as it is. -/
@[simp] theorem foldl_nv {α : Type} {f : State → α → State} (hf : ∀ s a, (f s a).nv = s.nv) (l : List α)
    (s : State) :
    (l.foldl f s).nv = s.nv :=
  List.foldlRecOn (motive := fun t => t.nv = s.nv) l f rfl fun _ ht a _ => (hf _ a).trans ht

theorem Keeps.foldl {α : Type} {f : State → α → State} (hf : ∀ a, Keeps P (f · a)) (l : List α) :
    Keeps P fun s => l.foldl f s := fun _ hs =>
  List.foldlRecOn (motive := fun t => P t.nv) l f hs fun t ht a _ => hf a t ht

/-! ### The combinators -/

theorem Keeps.underCut (hf : Keeps P f) (c : Ckpt) : Keeps P (underCut c f) := fun s hs => hf s hs

theorem Keeps.crossing (hf : Keeps P f) (ids : List Nat) : Keeps P (crossing ids f) := fun s hs => by
  unfold Machine.crossing
  split
  · exact hf s hs
  · split
    · exact hf _ (by simpa using hs)
    · exact hf.underCut _ s hs

theorem Keeps.receiving {α : Type} (hf : Keeps P f) (x : Sent α) (ids : List Nat) : Keeps P (receiving x ids f) :=
  fun s hs => by
    unfold Machine.receiving
    split
    · exact hf s hs
    · split
      · exact hf _ (by simpa using hs)
      · exact hf.underCut _ s hs

theorem Keeps.handshake (hf : Keeps P f) (ids : List Nat) : Keeps P (handshake ids f) := fun s hs => by
  unfold Machine.handshake
  split
  · exact hs
  · split
    · exact hs
    · split
      · simpa using hs
      · exact hf _ (by simpa using hs)

theorem Keeps.onIslands (hf : Keeps P f) (ids : List Nat) : Keeps P (onIslands ids f) := (hf.crossing ids).handshake ids

theorem Keeps.onArrival (hf : Keeps P f) (ids : List Nat) : Keeps P (onArrival ids f) := fun s hs => by
  unfold Machine.onArrival
  split
  · exact hs
  · split
    · exact hs
    · exact hf.crossing ids _ (by simpa using hs)

theorem Keeps.guarded (hf : Keeps P f) : Keeps P (guarded f) := fun s hs => by
  unfold Machine.guarded
  split
  · exact hf s hs
  · simpa using hs

theorem Keeps.notifyHeld (hf : Keeps P f) (bank : Nat) : Keeps P (notifyHeld bank f) := fun s hs => by
  simp only [Machine.notifyHeld]
  split
  · exact hs
  · exact hf s hs

theorem Keeps.bankApply {α : Type} (hf : Keeps P f) (bank : Nat) (x : Sent α) : Keeps P (bankApply bank x f) :=
  ((hf.receiving x [idBank bank]).notifyHeld bank).guarded

theorem Keeps.readArrives (hf : Keeps P f) (p : Port) (a : Access) (ids : List Nat) : Keeps P (readArrives p a ids f) :=
  fun s hs => by
    unfold Machine.readArrives
    split
    · simpa using hs
    · exact hf.onArrival ids s hs

theorem Keeps.hostAccess {zero : State → State} (hzero : Keeps P zero) (hf : Keeps P f) (port : Port) (a : Access)
    (always : Bool) (ids : List Nat) : Keeps P (hostAccess port a always ids zero f) := fun s hs => by
  unfold Machine.hostAccess
  cases accessGate s port always ids with
  | unanswered => exact hs
  | zero => exact hzero s hs
  | notReady => exact hzero _ (by simpa using hs)
  | halted => exact hzero _ (by simpa using hs)
  | held => simpa using hs
  | pass =>
    dsimp only
    split
    · simpa using hs
    · exact hf s hs

theorem Keeps.hostWrite (hf : Keeps P f) (port : Port) (a : Access) (always : Bool) (ids : List Nat) :
    Keeps P (hostWrite port a always ids f) := fun s hs => by
  have hpass : Keeps P fun s =>
      let s := s.wakeForWrite ids
      let s' := Machine.crossing ids f s
      if (heldBanks s s').isEmpty then s' else (throttleEngage (heldBanks s s') s).hold port.req a := fun s hs => by
    dsimp only
    split
    · exact hf.crossing ids _ (by simpa using hs)
    · simpa using hs
  unfold Machine.hostWrite
  split
  · exact hs
  · exact Keeps.hostAccess (fun _ h => h) hpass port a always ids s hs

theorem Keeps.writeObject (hf : Keeps P f) (r : Req) (space addr : Nat) (image : Bool) (o : Obj) (e : Nat)
    (bs : List Byte) : Keeps P fun s => (writeObject r space addr image f o e bs s).1 := fun s hs => by
  dsimp only [Machine.writeObject]
  split
  · simpa using hs
  · simpa using hf s hs

theorem Keeps.whenServing (hf : Keeps P f) : Keeps P (whenServing f) := fun s hs => by
  unfold Machine.whenServing
  split
  · exact hf s hs
  · exact hs

theorem Keeps.ownerWrite (hf : Keeps P f) (r : Req) (addr : Nat) : Keeps P (ownerWrite r addr f) := fun s hs => by
  unfold Machine.ownerWrite
  split
  · exact hf _ (by simpa using hs)
  · simpa using hs

theorem Keeps.keeperResetWrite (hf : Keeps P f) (r : Req) (mode : Byte) (key : BitVec 16) :
    Keeps P (keeperResetWrite r mode key f) := fun s hs => by
  unfold Machine.keeperResetWrite
  split
  · exact hs
  · exact hf.writeObject _ _ _ _ _ _ _ _ (by simpa using hs)

theorem Keeps.dapCommand (hf : Keeps P f) (op : Nat) : Keeps P (dapCommand op f) := fun s hs => by
  unfold Machine.dapCommand
  split
  · exact hs
  · exact hf _ hs

theorem Keeps.withSignature (hf : Keeps P f) (r : Req) (action arg : Nat) : Keeps P (withSignature r action arg f) :=
  fun s hs => by
    unfold Machine.withSignature
    dsimp only
    split
    · exact hs
    · split
      · exact hf _ hs
      · exact hs

theorem Keeps.onSideband (hf : Keeps P f) : Keeps P (onSideband f) := fun s hs => by
  unfold Machine.onSideband
  split
  · exact hf _ (by simpa using hs)
  · exact hs

theorem Keeps.mirRun {f : MirReq → State → State} (hf : ∀ q, Keeps P (f q)) (command : Nat) :
    Keeps P (mirRun command f) := fun s hs => by
  unfold Machine.mirRun
  split
  · exact hs
  · split
    · exact hf _ s hs
    · exact hs

/-- The next state of a command has what its effect keeps. -/
theorem keeps_of_answer {s t : State} (h : answer s f = .next t) (hs : P s.nv) (hf : Keeps P f) : P t.nv := by
  obtain rfl := Host.Outcome.next.inj h
  exact hf (cleared s) hs

/-- A command whose effect leaves the store as it is leaves it as it is. -/
theorem nv_of_answer {s t : State} (h : answer s f = .next t) (hf : ∀ s, (f s).nv = s.nv) : t.nv = s.nv :=
  keeps_of_answer (P := (· = s.nv)) h rfl (.of_nv hf)

end

end Sys2Proof.Machine
end

section
/-!
The operations that leave the Keeper's store as it is and write another store (the Ledger's bytes, a staged image), or
take the steps of the machine under which one may be written: in the order of the model's files.
-/

namespace Sys2Proof.Machine

open Sys2Proof

/-! ### The combinators over a step that leaves the store as it is -/

section
variable {f : State → State} (hf : ∀ s, (f s).nv = s.nv)
include hf

@[simp] theorem crossing_nv (ids : List Nat) (s : State) : (crossing ids f s).nv = s.nv :=
  nv_of_keeps (fun n => (keeps_value hf n).crossing ids) s

@[simp] theorem handshake_nv (ids : List Nat) (s : State) : (handshake ids f s).nv = s.nv :=
  nv_of_keeps (fun n => (keeps_value hf n).handshake ids) s

@[simp] theorem onIslands_nv (ids : List Nat) (s : State) : (onIslands ids f s).nv = s.nv :=
  nv_of_keeps (fun n => (keeps_value hf n).onIslands ids) s

@[simp] theorem onArrival_nv (ids : List Nat) (s : State) : (onArrival ids f s).nv = s.nv :=
  nv_of_keeps (fun n => (keeps_value hf n).onArrival ids) s

@[simp] theorem guarded_nv (s : State) : (guarded f s).nv = s.nv :=
  nv_of_keeps (fun n => (keeps_value hf n).guarded) s

@[simp] theorem bankApply_nv {α : Type} (bank : Nat) (x : Sent α) (s : State) : (bankApply bank x f s).nv = s.nv :=
  nv_of_keeps (fun n => (keeps_value hf n).bankApply bank x) s

@[simp] theorem readArrives_nv (p : Port) (a : Access) (ids : List Nat) (s : State) :
    (readArrives p a ids f s).nv = s.nv :=
  nv_of_keeps (fun n => (keeps_value hf n).readArrives p a ids) s

@[simp] theorem hostWrite_nv (port : Port) (a : Access) (always : Bool) (ids : List Nat) (s : State) :
    (hostWrite port a always ids f s).nv = s.nv :=
  nv_of_keeps (fun n => (keeps_value hf n).hostWrite port a always ids) s

@[simp] theorem withSignature_nv (r : Req) (action arg : Nat) (s : State) :
    (withSignature r action arg f s).nv = s.nv :=
  nv_of_keeps (fun n => (keeps_value hf n).withSignature r action arg) s

@[simp] theorem ownerWrite_nv (r : Req) (addr : Nat) (s : State) : (ownerWrite r addr f s).nv = s.nv :=
  nv_of_keeps (fun n => (keeps_value hf n).ownerWrite r addr) s

@[simp] theorem whenServing_nv (s : State) : (whenServing f s).nv = s.nv :=
  nv_of_keeps (fun n => (keeps_value hf n).whenServing) s

@[simp] theorem onSideband_nv (s : State) : (onSideband f s).nv = s.nv :=
  nv_of_keeps (fun n => (keeps_value hf n).onSideband) s

@[simp] theorem onI3c_nv (s : State) : (onI3c f s).nv = s.nv :=
  onSideband_nv (f := fun s => if i3cMode s then f s else s) (fun s => by split <;> simp [hf]) s

@[simp] theorem directed_nv (s : State) : (directed f s).nv = s.nv :=
  onI3c_nv (f := fun s => if s.sideband.dynAddr = 0 then s.emit .nack else f s) (fun s => by split <;> simp [hf]) s

@[simp] theorem onControl_nv (m : MctpFrom) (s : State) : (onControl m f s).nv = s.nv :=
  onSideband_nv (f := fun s => if accepts m true s then f s else s) (fun s => by split <;> simp [hf]) s

@[simp] theorem onSpdm_nv (m : SpdmReq) (s : State) : (onSpdm m f s).nv = s.nv :=
  onSideband_nv (f := fun s => if accepts m.via false s then f s else s) (fun s => by split <;> simp [hf]) s

@[simp] theorem dapCommand_nv (op : Nat) (s : State) : (dapCommand op f s).nv = s.nv :=
  nv_of_keeps (fun n => (keeps_value hf n).dapCommand op) s

omit hf in
@[simp] theorem mirRun_nv {f : MirReq → State → State} (hf : ∀ q s, (f q s).nv = s.nv) (command : Nat)
    (s : State) :
    (mirRun command f s).nv = s.nv :=
  nv_of_keeps (fun n => Keeps.mirRun (fun q => keeps_value (hf q) n) command) s

theorem hostAccess_nv {zero : State → State} (hzero : ∀ s, (zero s).nv = s.nv) (port : Port) (a : Access)
    (always : Bool) (ids : List Nat) (s : State) : (hostAccess port a always ids zero f s).nv = s.nv :=
  nv_of_keeps (fun n => (keeps_value hzero n).hostAccess (keeps_value hf n) port a always ids) s

end

/-! ### Sources and the Store bank -/

@[simp] theorem tellPending_nv (sn : Nat) (old new : Source) (s : State) : (tellPending sn old new s).nv = s.nv := by
  simp only [tellPending]
  split <;> simp

@[simp] theorem storeNote_nv (port : Port) (sn : Nat) (note : List Byte) (s : State) :
    (storeNote port sn note s).nv = s.nv := by
  simp only [storeNote]
  split <;> simp

@[simp] theorem applyRequest_nv (e : Event) (s : State) : (applyRequest e s).nv = s.nv := by
  cases e with
  | letterbox port requester offset sn room note => cases note <;> simp [applyRequest]
  | wired sn assert level => simp [applyRequest]
  | raise sn => simp [applyRequest]
  | warn sn => simp [applyRequest]
  | ipi sn tn ch => simp [applyRequest]

@[simp] theorem updateApply_nv (key : Nat) (s : State) : (updateApply key s).nv = s.nv := by
  unfold updateApply
  split <;> simp

@[simp] theorem applyClaimReq_nv (bank : Nat) (r : ClaimReq) (s : State) : (applyClaimReq bank r s).nv = s.nv := by
  cases r <;> simp [applyClaimReq]

@[simp] theorem claimStep_nv (bank : Nat) (s : State) : (claimStep bank s).nv = s.nv := by
  unfold claimStep
  split <;> simp

@[simp] theorem updateOrdered_nv (key : Nat) (s : State) : (updateOrdered key s).nv = s.nv := by
  unfold updateOrdered
  split <;> simp

@[simp] theorem updateStep_nv (g : Nat) (s : State) : (updateStep g s).nv = s.nv := by
  unfold updateStep
  split <;> simp

@[simp] theorem releaseSource_nv (barrier : Bool) (tn : Nat) (c : Cls) (sn : Nat) (s : State) :
    (releaseSource barrier tn c sn s).nv = s.nv := by
  simp only [releaseSource]
  cases (holderReset tn c sn s).tgt tn |>.fallback <;> simp

@[simp] theorem releaseHeld_nv (barrier : Bool) (tn : Nat) (c : Cls) (held : Option Nat) (s : State) :
    (releaseHeld barrier tn c held s).nv = s.nv := by
  cases held <;> simp [releaseHeld]

/-! ### Translation -/

@[simp] theorem beginWalk_nv (r : XReq) (s : State) : (beginWalk r s).1.nv = s.nv := by
  unfold beginWalk
  dsimp only
  split
  · rfl
  · next h => exact (issueWalkRead_same h).1

@[simp] theorem grant_nv (r : XReq) (s : State) : (grant r s).1.nv = s.nv := by
  unfold grant
  split
  · rfl
  · split <;> simp

@[simp] theorem translate_nv (r : XReq) (len : Nat) (s : State) : (translate r len s).1.nv = s.nv := by
  unfold translate
  dsimp only
  split
  · rfl
  · split
    · simp
    · split <;> simp

/-- The state that a translation leaves. -/
theorem nv_of_translate {r : XReq} {len : Nat} {s t : State} {x : Xlated} (h : translate r len s = (t, x)) :
    t.nv = s.nv := by
  simpa [h] using translate_nv r len s

/-! ### Deliveries and claims -/

@[simp] theorem paneAddress_nv (tn : Nat) (c : Cls) (s : State) : (paneAddress tn c s).1.nv = s.nv := by
  unfold paneAddress
  dsimp only
  split
  · split <;> simp
  · simp

/-- The state that a Pane's translation leaves. -/
theorem nv_of_paneAddress {tn : Nat} {c : Cls} {s t : State} {x : Xlated} (h : paneAddress tn c s = (t, x)) :
    t.nv = s.nv := by
  simpa [h] using paneAddress_nv tn c s

@[simp] theorem takeDones_nv (island : Nat) (l : List (Sent Select)) (s : State) :
    (takeDones island l s).nv = s.nv := by
  fun_induction takeDones island l s with
  | case1 s tag mark tn c sn rest ih => simpa using ih
  | case2 => rfl

@[simp] theorem issueBefore_nv (reader : Reader) (descr : Option (Port × Nat)) (s : State) :
    (issueBefore reader descr s).nv = s.nv := by
  unfold issueBefore
  split
  · split <;> simp
  · rfl

@[simp] theorem deliverStep_nv (tn : Nat) (c : Cls) (s : State) : (deliverStep tn c s).nv = s.nv := by
  unfold deliverStep
  dsimp only
  split
  · rfl
  · split
    · simp
    · split
      case h_1 h | h_2 h | h_3 h => simp [nv_of_paneAddress h]

@[simp] theorem claimAccept_nv (tn : Nat) (c : Cls) (noteLost : Bool) (s : State) :
    (claimAccept tn c noteLost s).nv = s.nv := by
  unfold claimAccept
  dsimp only
  split
  · split
    · split
      · split <;> simp
      · simp
    · split <;> simp
    · split
      · simp
      · split
        · simp
        · split
          case h_1 h | h_2 h | h_3 h => simp [nv_of_paneAddress h]
  · rfl

@[simp] theorem takeAnswer_nv (tn : Nat) (c : Cls) (ok lost : Bool) (at' : Nat) (s : State) :
    (takeAnswer tn c ok lost at' s).nv = s.nv := by
  cases ok <;> simp [takeAnswer]

@[simp] theorem answerStep_nv (island fuel : Nat) (s : State) : (answerStep island fuel s).nv = s.nv := by
  induction fuel generalizing s with
  | zero => rfl
  | succ fuel ih =>
    unfold answerStep
    split
    · split <;> simp
    · simp [ih]
    · split <;> simp [ih]

@[simp] theorem paneResume_nv (tn : Nat) (c : Cls) (room iova : Nat) (stale : Bool) (x : Xlated) (s : State) :
    (paneResume tn c room iova stale x s).nv = s.nv := by
  unfold paneResume
  dsimp only
  split
  · rfl
  · cases x <;> split <;> simp

@[simp] theorem resetTarget_nv (barrier : Bool) (tn : Nat) (s : State) : (resetTarget barrier tn s).nv = s.nv := by
  simp [resetTarget]

@[simp] theorem writeTargetReset_nv (port : Port) (tn off v : Nat) (s : State) :
    (writeTargetReset port tn off v s).nv = s.nv := by
  unfold writeTargetReset
  split <;> simp

/-! ### Work queues and items -/

@[simp] theorem fetchSlot_nv (q slot : Nat) (owned : Bool) (s : State) : (fetchSlot q slot owned s).nv = s.nv := by
  unfold fetchSlot
  dsimp only
  split
  · simp
  · split
    · rfl
    · split
      · rfl
      · split
        case h_1 h | h_2 h | h_3 h => simp [nv_of_translate h]

@[simp] theorem fetchAt_nv (q base : Nat) (owned : Bool) (s : State) (k : Nat) :
    (fetchAt q base owned s k).nv = s.nv := by
  unfold fetchAt
  dsimp only
  split <;> simp

@[simp] theorem fetchMore_nv (q : Nat) (s : State) : (fetchMore q s).nv = s.nv := by
  simp [fetchMore]

@[simp] theorem sampleProd_nv (q : Nat) (s : State) : (sampleProd q s).nv = s.nv := by
  simp [sampleProd]

@[simp] theorem takeEntry_nv (q : Nat) (s : State) : (takeEntry q s).nv = s.nv := by
  unfold takeEntry
  dsimp only
  split <;> simp

@[simp] theorem writeCompletion_nv (q : Nat) (it : Item) (e : Ending) (s : State) :
    (writeCompletion q it e s).nv = s.nv := by
  unfold writeCompletion
  dsimp only
  split
  · simp
  · split
    · simp
    · split
      case h_1 h | h_2 h | h_3 h => simp [nv_of_translate h]

@[simp] theorem completionStepOf_nv (q : Nat) (s : State) : (completionStepOf q s).nv = s.nv := by
  unfold completionStepOf
  dsimp only
  split
  · rfl
  · split
    · rfl
    · split <;> simp

@[simp] theorem requestRead_nv (q slot : Nat) (s : State) : (requestRead q slot s).nv = s.nv := by
  unfold requestRead
  dsimp only
  split
  · rfl
  · split
    · simp
    · split
      case h_1 h | h_2 h | h_3 h => simp [nv_of_translate h]

@[simp] theorem storeStep_nv (q : Nat) (it : Item) (s : State) : (storeStep q it s).nv = s.nv := by
  unfold storeStep
  dsimp only
  split
  · simp
  · split
    · simp
    · split
      · simp
      · split
        case h_1 h | h_2 h | h_3 h => simp [nv_of_translate h]

@[simp] theorem batchStep_nv (q : Nat) (it : Item) (s : State) : (batchStep q it s).nv = s.nv := by
  unfold batchStep
  split <;> simp

@[simp] theorem swingStep_nv (q : Nat) (it : Item) (s : State) : (swingStep q it s).nv = s.nv := by
  simp [swingStep]

@[simp] theorem ipiStep_nv (q : Nat) (it : Item) (s : State) : (ipiStep q it s).nv = s.nv := by
  unfold ipiStep
  split <;> simp

@[simp] theorem afterRecords_nv (q slot : Nat) (s : State) : (afterRecords q slot s).nv = s.nv := by
  unfold afterRecords
  split <;> simp

/-! ### The Ledger -/

@[simp] theorem flowPort_nv (port : Port) (n : Nat) (s : State) : (flowPort port n s).nv = s.nv := by
  induction n generalizing s with
  | zero => rfl
  | succ n ih =>
    unfold flowPort
    split
    · rfl
    · split
      · simp [ih]
      · rfl

@[simp] theorem ledgerFlow_nv (s : State) : (ledgerFlow s).nv = s.nv := by
  simp [ledgerFlow]

@[simp] theorem enterStream_nv (ps : List Piece) (s : State) : (enterStream ps s).nv = s.nv := by
  simp [enterStream]

@[simp] theorem persisted_nv (p : Piece) (s : State) : (persisted p s).nv = s.nv := rfl

@[simp] theorem persistAll_nv (s : State) : (persistAll s).nv = s.nv := by
  simp only [persistAll]
  rw [foldl_nv fun s p => persisted_nv p s, State.modLedger_nv]

@[simp] theorem persistStep_nv (island : Nat) (s : State) : (persistStep island s).nv = s.nv := by
  unfold persistStep
  split <;> simp

@[simp] theorem settleUnlocked_nv (s : State) : (settleUnlocked s).nv = s.nv := by
  simp [settleUnlocked]

@[simp] theorem fenceRead_nv (r : Reader) (s : State) : (fenceRead r s).nv = s.nv :=
  hostAccess_nv (by simp) (by simp) ..

@[simp] theorem failFences_nv (dropped : List Piece) (s : State) : (failFences dropped s).nv = s.nv := by
  simp [failFences]

@[simp] theorem closeLedger_nv (s : State) : (closeLedger s).nv = s.nv := by
  simp only [closeLedger]
  rw [(fenceReadsDone_same _).1, failFences_nv, State.modLedger_nv, foldl_nv]
  · simp
  · intro t p
    cases p.append <;> simp

@[simp] theorem freeBytes_nv (a : Nat) (es : List Bool) (s : State) : (freeBytes a es s).nv = s.nv := by
  induction es generalizing a s with
  | nil => rfl
  | cons e es ih => cases e <;> simp [freeBytes, ih]

@[simp] theorem loseInbox_nv (s : State) : (loseInbox s).nv = s.nv := by
  simp [loseInbox]

/-! ### The engine -/

@[simp] theorem appendStep_nv (q : Nat) (it : Item) (s : State) : (appendStep q it s).nv = s.nv := by
  unfold appendStep
  dsimp only
  split
  · simp
  · split
    · split <;> simp
    · split <;> simp

@[simp] theorem kindStep_nv (q : Nat) (it : Item) (s : State) : (kindStep q it s).nv = s.nv := by
  unfold kindStep
  split <;> simp

@[simp] theorem itemData_nv (q : Nat) (it : Item) (bytes : List Byte) (s : State) :
    (itemData q it bytes s).nv = s.nv := by
  unfold itemData
  dsimp only
  split
  · simp
  · exact (afterRecords_nv ..).trans (foldl_pair_same _ (batchRecord_same q it.slot) _ _).1
  · exact (afterRecords_nv ..).trans (foldl_pair_same _ (stageRecord_same q it.slot) _ _).1
  · simp
  · rfl

@[simp] theorem serveItem_nv (q : Nat) (it : Item) (s : State) : (serveItem q it s).nv = s.nv := by
  unfold serveItem
  split
  · simp
  · split <;> simp
  · split
    · simp
    · split
      · simp
      · split
        · dsimp only
          split <;> simp
        · simp

@[simp] theorem serveStep_nv (q : Nat) (it : Item) (s : State) : (serveStep q it s).nv = s.nv := by
  simp [serveStep]

@[simp] theorem serveKind_nv (kind q : Nat) (s : State) : (serveKind kind q s).nv = s.nv := by
  unfold serveKind
  split
  · split
    · split <;> simp
    · rfl
  · rfl

@[simp] theorem readGoesOn_nv (q : Nat) (s : State) : (readGoesOn q s).nv = s.nv := by
  unfold readGoesOn
  split
  · split <;> simp
  · rfl

@[simp] theorem itemReadArrives_nv (q : Fin 256) (result : HostRead) (s : State) :
    (itemReadArrives q result s).nv = s.nv := by
  simp [itemReadArrives]

/-! ### The reads of walks -/

@[simp] theorem resumeUse_nv (r : XReq) (stale : Bool) (x : Xlated) (s : State) :
    (resumeUse r stale x s).nv = s.nv := by
  unfold resumeUse
  split <;> simp

@[simp] theorem grantWaiting_nv (island n : Nat) (s : State) : (grantWaiting island n s).nv = s.nv := by
  induction n generalizing s with
  | zero => rfl
  | succ n ih =>
    unfold grantWaiting
    dsimp only
    split
    · rfl
    · split
      · rfl
      · simp [ih]

@[simp] theorem walkReadEnds_nv (island id : Nat) (result : HostRead) (s : State) :
    (walkReadEnds island id result s).nv = s.nv := by
  unfold walkReadEnds
  split
  · rfl
  · dsimp only
    split <;> simp

@[simp] theorem walkReadArrives_nv (island : Fin 4) (walk : Nat) (result : HostRead) (s : State) :
    (walkReadArrives island walk result s).nv = s.nv := by
  unfold walkReadArrives
  split <;> simp

@[simp] theorem readTimesOut_nv (read : HostReadId) (s : State) : (readTimesOut read s).nv = s.nv := by
  cases read <;> simp [readTimesOut]

/-! ### Register reads and partial writes -/

@[simp] theorem issueAllOf_nv (p : Port) (f : LinkReq → Bool) (l : List LinkReq) (s : State) :
    (issueAllOf p f l s).nv = s.nv := by
  induction l generalizing s with
  | nil => rfl
  | cons r rs ih =>
    unfold issueAllOf
    split
    · simp [ih]
    · rfl

theorem afterWrites_nv {f : State → State} (hf : ∀ s, (f s).nv = s.nv) (r : Reader) (a : Access) (g : Reg)
    (s : State) :
    (afterWrites r a g f s).nv = s.nv := by
  unfold afterWrites
  dsimp only
  split
  · exact hf s
  · split <;> simp [hf]

theorem hostRead_nv {f : State → State × Word} (hf : ∀ s, (f s).1.nv = s.nv) (r : Reader) (a : Access)
    (always : Bool)
    (ids : List Nat) (s : State) : (hostRead r a always ids f s).nv = s.nv :=
  hostAccess_nv (by simp [hf]) (by simp) ..

/-- The word that a read of a window answers with, 0 where no register is or where the reader may not read it. -/
def readOrZero (r : Reader) (w : Window) (off : Nat) (g : Option Reg) (s : State) : State × Word :=
  match g with
  | none => (s, 0)
  | some g =>
    if regAllowed s r.port w off then
      readReg r.port g (if w = .bar0 then hatchPageTouch r.port off s else s)
    else (s, 0)

theorem readOrZero_nv (r : Reader) (w : Window) (off : Nat) (g : Option Reg) (s : State) :
    (readOrZero r w off g s).1.nv = s.nv := by
  unfold readOrZero
  split
  · rfl
  · split <;> simp

@[simp] theorem regRead_nv (r : Reader) (w : Window) (off : Nat) (s : State) : (regRead r w off s).nv = s.nv := by
  unfold regRead
  dsimp only
  split
  · simp
  · split
    · simp
    · simp
    · split
      · split
        · refine afterWrites_nv (hostRead_nv (fun s => ?_) _ _ _ _) _ _ _ _
          exact readOrZero_nv ..
        · exact hostRead_nv (fun s => readOrZero_nv ..) _ _ _ _ _
      · exact hostRead_nv (fun s => readOrZero_nv ..) _ _ _ _ _

@[simp] theorem wholeRead_nv (port : Port) (w : Window) (off : Nat) (s : State) : (wholeRead port w off s).nv = s.nv :=
  regRead_nv ..

@[simp] theorem windowRegRead_nv (port : Port) (w : Window) (offset len : Nat) (s : State) :
    (windowRegRead port w offset len s).nv = s.nv := by
  simp [windowRegRead]

@[simp] theorem regPartial_nv (port : Port) (w : Window) (off : Nat) (s : State) :
    (regPartial port w off s).nv = s.nv :=
  hostWrite_nv (fun s => by split <;> simp) ..

/-! ### Durability -/

@[simp] theorem mirrorStep_nv (channel line : Nat) (check : WriteCheck) (s : State) :
    (mirrorStep channel line check s).nv = s.nv := by
  simp [mirrorStep]

@[simp] theorem writeStripes_nv (image : Durable) (lines : List Line) (s : State) :
    (writeStripes image lines s).nv = s.nv := by
  simp [writeStripes]

@[simp] theorem commitRoot_nv (kind : RootKind) (epoch : Nat) (image : Durable) (lines : List Line) (s : State) :
    (commitRoot kind epoch image lines s).nv = s.nv := by
  simp [commitRoot]

@[simp] theorem enterScan_nv (s : State) : (enterScan s).nv = s.nv := by
  simp [enterScan]

@[simp] theorem finishCheckpoint_nv (c : Ckpt) (s : State) : (finishCheckpoint c s).nv = s.nv := by
  simp [finishCheckpoint]

@[simp] theorem rootStep_nv (s : State) : (rootStep s).nv = s.nv :=
  onIslands_nv (fun s => by split <;> simp) ..

@[simp] theorem mirrorOff_nv (s : State) : (mirrorOff s).nv = s.nv := by
  simp [mirrorOff]

@[simp] theorem setMirror_nv (b : Bool) (s : State) : (setMirror b s).nv = s.nv := by
  simp [setMirror]

@[simp] theorem capture_nv (i : StormInput) (s : State) : (capture i s).1.nv = s.nv := by
  have hlines : ∀ (l : List Nat) (x : State × List Nat), (l.foldl (captureLine i.failed) x).1.nv = x.1.nv :=
    fun l x => (foldl_pair_same _ (captureLine_same i.failed) l x).1
  have hstripes := foldl_pair_same (fun x stripe => stripe.foldl (captureLine i.failed) x)
    (fun x stripe => foldl_pair_same _ (captureLine_same i.failed) stripe x)
  rw [capture, (hstripes _ _).1, hlines]
  simp

@[simp] theorem stormRoot_nv (i : StormInput) (s : State) : (stormRoot i s).nv = s.nv := by
  simp [stormRoot]

@[simp] theorem stormSequence_nv (i : StormInput) (s : State) : (stormSequence i s).nv = s.nv := by
  simp [stormSequence]

@[simp] theorem recoverTargets_nv (s : State) : (recoverTargets s).nv = s.nv := by
  simp [recoverTargets]

@[simp] theorem restoreRoot_nv (b : BootInput) (c : Chosen) (p : Place) (s : State) :
    (restoreRoot b c p s).nv = s.nv := by
  simp [restoreRoot]

@[simp] theorem restoreState_nv (b : BootInput) (s : State) : (restoreState b s).nv = s.nv := by
  unfold restoreState
  dsimp only
  split <;> simp

@[simp] theorem restoreCommit_nv (s : State) : (restoreCommit s).nv = s.nv := by
  unfold restoreCommit
  split
  · simp
  · split <;> simp

/-! ### Clocks, samples and ports -/

@[simp] theorem startSampling_nv (s : State) : (startSampling s).nv = s.nv := by
  simp [startSampling]

@[simp] theorem lockStop_nv (s : State) : (lockStop s).nv = s.nv := by
  simp [lockStop]

@[simp] theorem lockReturns_nv (i : Nat) (s : State) : (lockReturns i s).nv = s.nv := by
  simp [lockReturns]

@[simp] theorem lockTimesOut_nv (i : Nat) (s : State) : (lockTimesOut i s).nv = s.nv := by
  simp [lockTimesOut]

@[simp] theorem outboundStep_nv (port : Port) (s : State) : (outboundStep port s).nv = s.nv :=
  onIslands_nv (fun s => by
    split
    · rfl
    · split <;> simp) ..

@[simp] theorem resetPortTargets_nv (p : Port) (s : State) : (resetPortTargets p s).nv = s.nv := by
  simp [resetPortTargets]

@[simp] theorem portReset_nv (p : Port) (s : State) : (portReset p s).nv = s.nv := by
  simp [portReset]

@[simp] theorem linkGoesDown_nv (p : Port) (s : State) : (linkGoesDown p s).nv = s.nv := by
  simp [linkGoesDown]

/-! ### Debug -/

@[simp] theorem resumeHalts_nv (s : State) : (resumeHalts s).nv = s.nv := by
  simp [resumeHalts]

@[simp] theorem endGrants_nv (s : State) : (endGrants s).nv = s.nv := by
  simp [endGrants]

@[simp] theorem setGrant_nv (r : Req) (level : Nat) (s : State) : (setGrant r level s).nv = s.nv := by
  simp [setGrant]

@[simp] theorem debugGrant_nv (r : Req) (level : Nat) (s : State) : (debugGrant r level s).nv = s.nv := by
  unfold debugGrant
  split
  · simp
  · split <;> simp

@[simp] theorem extest_nv (i : TapInstr) (s : State) : (extest i s).nv = s.nv := by
  simp [extest]

@[simp] theorem dapRelease_nv (s : State) : (dapRelease s).nv = s.nv := by
  simp [dapRelease]

@[simp] theorem dapScanEnter_nv (s : State) : (dapScanEnter s).nv = s.nv := by
  unfold dapScanEnter
  split <;> simp

@[simp] theorem stageData_nv (r : Req) (bs : List Byte) (s : State) : (stageData r bs s).nv = s.nv := rfl

end Sys2Proof.Machine
end

section
/-!
Once out of Provisioning the Keeper's store stays out of it: no transition leads back (Table SD-2), a tamper leads to
Lockdown, and whatever else writes the store leaves its security state and drops or keeps the record under way.
-/

namespace Sys2Proof.Machine

open Sys2Proof

/-! ### The store -/

/-- The store in Lockdown with no record under way. -/
theorem NvStore.left_of_lockdown {n : NvStore} (hsec : n.sec = .lockdown) (hrecording : n.recording = none) :
    n.left := by
  simp [NvStore.left, hsec, hrecording]

/-- A record dropped leaves no record into Provisioning. -/
theorem NvStore.left.unrecorded {n : NvStore} (h : n.left) : { n with recording := none }.left :=
  ⟨h.1, fun _ _ _ hnone => nomatch hnone⟩

/-- A record of a transition into another state than Provisioning begins. -/
theorem NvStore.left.recorded {n : NvStore} (h : n.left) (r : Req) {target : SecState} (cold : Bool)
    (htarget : target ≠ .provisioning) : { n with recording := some (r, target, cold) }.left := by
  refine ⟨h.1, fun r' target' cold' hsome => ?_⟩
  obtain ⟨-, rfl, -⟩ : r = r' ∧ target = target' ∧ cold = cold' := by simpa using hsome
  exact htarget

/-- No permitted transition leads into Provisioning (Table SD-2). -/
theorem transition_target {a b : SecState} {x : Bool × Bool} (h : transition a b = some x) : b ≠ .provisioning := by
  rintro rfl
  cases a <;> simp [transition] at h

/-! ### Stops and Storm sequences -/

theorem coreOff_left : Keeps NvStore.left coreOff := fun _ hs => hs.unrecorded

theorem stopWithoutCut_left : Keeps NvStore.left stopWithoutCut := fun s hs => coreOff_left _ (by simpa using hs)

theorem keeperResetClears_left : Keeps NvStore.left keeperResetClears := fun _ hs => hs

theorem keeperDiscard_left (cause : Nat) : Keeps NvStore.left (keeperDiscard cause) := fun s hs => by
  unfold keeperDiscard
  split
  · exact hs
  · split
    · exact hs
    · exact coreOff_left (dropStreams (clearRdy (fenceReadsDone (persistAll s)))) (by simpa using hs)

theorem runStorm_left (i : StormInput) : Keeps NvStore.left (runStorm i) := fun s hs =>
  coreOff_left (stormSequence i s) (by simpa using hs)

theorem stormOrStop_left (i : StormInput) : Keeps NvStore.left (stormOrStop i) := fun s hs => by
  unfold stormOrStop
  split
  · exact coreOff_left s hs
  · split
    · exact stopWithoutCut_left s hs
    · exact runStorm_left i s hs

theorem keeperCapture_left (i : StormInput) : Keeps NvStore.left (keeperCapture i) := fun s hs => by
  unfold keeperCapture
  split
  · exact runStorm_left i s hs
  · exact keeperDiscard_left 4 s hs

/-! ### The Keeper's release -/

/-- Step 2 of Table SD-7, the check of the store: with both copies unreadable a tamper is recorded (R707). -/
def storeRead (b : BootInput) (s : State) : State :=
  if b.storeBadA && b.storeBadB then
    let s := recordTamper 3 s.nv.tamperAction 5 0 0 s
    { s with nv := { s.nv with ownerKey := List.replicate 64 0 } }
  else s

/-- Step 2 of Table SD-7, the tamper mark: a marked tamper is recorded (R694). -/
def markRecorded (s : State) : State :=
  match s.nv.mark with
  | none => s
  | some (cause, action, pstate) =>
    let s := recordTamper cause action pstate (if action = 0 then 0 else 1) 0 s
    { s with nv := { s.nv with
      zeroizePending := s.nv.zeroizePending || decide (action ≠ 0)
      zeroizeRoots := s.nv.zeroizeRoots || decide (action = 2) } }

/-- Step 2 of Table SD-7, the zeroization: a pending one begins (R727, R728). -/
def zeroizationBegun (s : State) : State :=
  let s := if s.nv.zeroizeRoots then { s with mram := s.mram.erase } else s
  if s.nv.zeroizePending then
    { s with
      keeper := { s.keeper with zeroizing := true }
      nv := { s.nv with
        zeroizeRoots := false
        tamperLog := { s.nv.tamperLog with zeroize := 2 } }
      ledger := { s.ledger with closed := true } }
  else s

/-- The start's check of the store is these three, one after another. -/
theorem bootStore_eq (b : BootInput) (s : State) :
    bootStore b s = zeroizationBegun (markRecorded (storeRead b s)) := rfl

theorem storeRead_left (b : BootInput) : Keeps NvStore.left (storeRead b) := fun s hs => by
  unfold storeRead
  split
  · exact NvStore.left_of_lockdown rfl rfl
  · exact hs

theorem markRecorded_left : Keeps NvStore.left markRecorded := fun s hs => by
  unfold markRecorded
  split
  · exact hs
  · exact NvStore.left_of_lockdown rfl rfl

theorem zeroizationBegun_left : Keeps NvStore.left zeroizationBegun := fun s hs => by
  unfold zeroizationBegun
  dsimp only
  split <;> split <;> exact hs

theorem bootStore_left (b : BootInput) : Keeps NvStore.left (bootStore b) := fun s hs => by
  rw [bootStore_eq]
  exact zeroizationBegun_left _ (markRecorded_left _ (storeRead_left b s hs))

theorem release_left (b : BootInput) : Keeps NvStore.left (release b) := fun s hs => by
  have hstart : ∀ t : State, t.nv.left → (restoreState b (bootStore b t)).nv.left := fun t ht => by
    rw [restoreState_nv]
    exact bootStore_left b t ht
  have hcleared : (if s.keeper.pendingReset.isSome then
      { keeperResetClears s with conduct := ⟨.initial, .initial, .initial⟩ } else s).nv.left := by
    split <;> exact hs
  exact hstart _ (coreOff_left _ hcleared)

/-! ### Authorization and tampers -/

theorem transitionRecord_left : Keeps NvStore.left transitionRecord := fun s hs => by
  unfold transitionRecord
  split
  · exact hs
  · next r target cold hrecording =>
    split
    · exact hs.unrecorded
    · have hdone : { s.nv with recording := none, sec := target }.left :=
        ⟨hs.2 r target cold hrecording, hs.unrecorded.2⟩
      simpa using hdone

theorem setState_left (r : Req) (arg : Nat) : Keeps NvStore.left (setState r arg) := fun s hs => by
  have hdone := transitionRecord_left s hs
  simp only [setState]
  split
  · exact hdone
  · next signed cold hpermitted =>
    have hrecord : Keeps NvStore.left fun s =>
        { s with nv := { s.nv with recording := some (r, SecState.at arg, cold) } } :=
      fun _ h => h.recorded r cold (transition_target hpermitted)
    split
    · exact hdone
    · split
      · exact hrecord.withSignature r 2 arg _ hdone
      · exact hrecord _ hdone

theorem authRequest_left (r : Req) (action arg : Nat) : Keeps NvStore.left (authRequest r action arg) := fun s hs => by
  unfold authRequest
  split
  · simpa using hs
  · exact setState_left r arg s hs
  · simpa using hs
  · exact hs

theorem lockdownNow_left (cause zeroize : Nat) : Keeps NvStore.left (lockdownNow cause zeroize) := fun s _ => by
  simp only [lockdownNow, endGrants_nv]
  exact NvStore.left_of_lockdown rfl rfl

theorem tamperResponse_left (cause : Nat) : Keeps NvStore.left (tamperResponse cause) := fun s hs => by
  have hlocked := fun zeroize => lockdownNow_left cause zeroize s hs
  unfold tamperResponse
  dsimp only
  split
  · simpa using hlocked _
  · split
    · simpa using hlocked _
    · simpa using hlocked _

/-! ### Dictionary writes -/

theorem writeLow_left (r : Req) (o : Obj) (bs : List Byte) : Keeps NvStore.left (writeLow r o bs) := fun s hs => by
  unfold writeLow
  split
  case h_6 =>
    unfold writeKeeperReset
    split
    · exact keeperCapture_left _ _ (by simpa using hs)
    · exact keeperDiscard_left 5 s hs
  case h_7 =>
    dsimp only
    split <;> simpa using hs
  all_goals simpa using hs

theorem writeHigh_left (r : Req) (o : Obj) (bs : List Byte) : Keeps NvStore.left (writeHigh r o bs) := fun s hs => by
  unfold writeHigh
  split
  case h_8 | h_9 | h_10 | h_11 => exact hs
  case h_14 => exact authRequest_left _ _ _ s hs
  all_goals simpa using hs

theorem applyObject_left (r : Req) (image : Bool) (o : Obj) (e : Nat) (bs : List Byte) :
    Keeps NvStore.left (applyObject r image o e bs) := fun s hs => by
  unfold applyObject
  split
  · exact writeLow_left r o bs s hs
  · split
    · simpa using hs
    · split
      · simpa using hs
      · exact writeHigh_left r o bs s hs

theorem applyAny_left (r : Req) (o : Obj) (e : Nat) (bs : List Byte) : Keeps NvStore.left (applyAny r o e bs) :=
  fun s hs => by
    unfold applyAny
    split
    · simpa using hs
    · exact hs
    · simpa using hs
    · exact applyObject_left r false o e bs s hs

theorem dictWrite_left (r : Req) (index sub e : Nat) (data : List Byte) :
    Keeps NvStore.left fun s => (dictWrite r index sub e data s).1 := fun s hs => by
  dsimp only [dictWrite]
  split
  · exact hs
  · next o _ =>
    split
    · exact hs
    · split
      · exact hs
      · exact (applyAny_left r o e _).writeObject _ _ _ _ _ _ _ s hs

theorem dictCommand_left (r : Req) (o : Obj) (e : Nat) (bs : List Byte) : Keeps NvStore.left (dictCommand r o e bs) :=
  fun s hs => by
    unfold dictCommand
    extract_lets ids wait woken written
    have hwoken : woken.nv.left := by simpa [woken] using hs
    split
    · exact hs
    · split
      · simpa using hs
      · split
        · exact (dictWrite_left r o.index o.sub e bs).crossing _ _ hwoken
        · simpa using hwoken

/-! ### The apply of a configuration image -/

theorem writeElement_left (r : Req) (k : Nat) (rec : ImgRec) (n : Nat) : Keeps NvStore.left (writeElement r k rec n) :=
  fun s hs => by
    unfold writeElement
    split
    · simpa using hs
    · next o _ =>
      dsimp only
      split
      · simpa using hs
      · refine Keeps.crossing (fun s hs => ?_) _ _ (by simpa using hs)
        simpa using (applyObject_left r true o _ _).writeObject _ _ _ _ _ _ _ s hs

theorem applyNext_left : Keeps NvStore.left applyNext := fun s hs => by
  unfold applyNext
  split
  · exact hs
  · dsimp only
    split
    · exact hs
    · split
      · exact hs
      · split
        · exact writeElement_left _ _ _ _ s hs
        · simpa using hs

theorem applyRest_left : Keeps NvStore.left applyRest := fun s hs => Keeps.foldl (fun _ => applyNext_left) _ s hs

theorem imageApplied_left : Keeps NvStore.left imageApplied := fun s hs => by
  have hrest := applyRest_left s hs
  unfold imageApplied
  dsimp only
  split
  · exact hs
  · split
    · exact hrest
    · simpa using hrest

theorem imageTick_left : Keeps NvStore.left imageTick := fun s hs => by
  unfold imageTick
  split
  · exact applyNext_left s hs
  · exact hs

/-! ### The Hatch -/

/-- What the command in the Hatch does, before its outcome is kept for the owner. -/
def hatchOutcome (r : Req) (s : State) : State × HatchResult :=
  let h := s.hatch
  let e := h.element.toNat
  if h.opcode = 1 then dictRead r false (hatchIndex h) (hatchSub h) e s
  else if h.opcode = 2 then
    let (s, res) := dictWrite r (hatchIndex h) (hatchSub h) e (hatchBytes h) s
    if r = .sideband then
      let (s, after) := dictRead r false (hatchIndex h) (hatchSub h) e s
      (s, { res with readBack := some (after.code, after.data) })
    else (s, res)
  else if h.opcode = 3 then dictRead r true (hatchIndex h) (hatchSub h) e s
  else
    ((s.ignoredWrite r 0 0x104C rName).draw, HatchResult.plain 6 (Config.freeNat s.free % 2 ^ 7) false)

theorem hatchRun_eq (r : Req) (s : State) : hatchRun r s =
    if (hatchOutcome r s).1.hatch.owner = none then (hatchOutcome r s).1
    else (hatchOutcome r s).1.modHatch fun h => { h with result := some (hatchOutcome r s).2 } := rfl

theorem hatchOutcome_left (r : Req) : Keeps NvStore.left fun s => (hatchOutcome r s).1 := fun s hs => by
  dsimp only [hatchOutcome]
  split
  · simpa using hs
  · split
    · have hwritten := dictWrite_left r (hatchIndex s.hatch) (hatchSub s.hatch) s.hatch.element.toNat
        (hatchBytes s.hatch) s hs
      split
      · simpa using hwritten
      · exact hwritten
    · split <;> simpa using hs

theorem hatchRun_left (r : Req) : Keeps NvStore.left (hatchRun r) := fun s hs => by
  have hdone := hatchOutcome_left r s hs
  rw [hatchRun_eq]
  split
  · exact hdone
  · exact hdone

theorem hatchPerform_left : Keeps NvStore.left hatchPerform := fun s hs => by
  unfold hatchPerform
  split
  · exact hs
  · next r _ =>
    extract_lets ids woken
    split
    · exact hs
    · refine (hatchRun_left r).guarded.crossing _ _ ?_
      unfold woken
      split <;> simpa using hs

theorem hatchCommand_left (opcode : Nat) : Keeps NvStore.left (hatchCommand opcode) := fun s hs =>
  hatchPerform_left _ (by simpa using hs)

theorem hatchComplete_left : Keeps NvStore.left hatchComplete := fun s hs => by
  have hperformed := hatchPerform_left s hs
  unfold hatchComplete
  dsimp only
  split
  · exact hs
  · split
    · exact hperformed
    · simpa using hperformed

theorem writeHatchCmd_left (r : Req) (v : Nat) : Keeps NvStore.left (writeHatchCmd r v) :=
  Keeps.ownerWrite (fun s hs => by
    split
    · simpa using hs
    · exact hatchCommand_left v s hs) r 0x104C

theorem mirHatch_left (q : MirReq) (opcode : Nat) : Keeps NvStore.left (mirHatch q opcode) := fun s hs =>
  hatchCommand_left opcode _ (by simpa using hs)

theorem mirPublish_left {s : State} (opcode : Nat) (q : MirReq) (hs : s.nv.left) :
    (mirPublish (if mirUnderway s then s else mirHatch q opcode s)).nv.left := by
  refine hatchComplete_left _ ?_
  split
  · exact hs
  · exact mirHatch_left q opcode s hs

theorem mirRead_left (opcode : Nat) (q : MirReq) : Keeps NvStore.left (mirRead opcode q) := fun s hs => by
  unfold mirRead
  split
  · exact hs
  · extract_lets published
    have hpublished : published.nv.left := mirPublish_left opcode q hs
    split
    · simpa using hpublished
    · exact hpublished

theorem mirSet_left (q : MirReq) : Keeps NvStore.left (mirSet q) := fun s hs => by
  unfold mirSet
  split
  · exact hs
  · extract_lets published code shown
    have hpublished : published.nv.left := mirPublish_left 2 q hs
    split
    · exact hpublished
    · simpa [shown] using hpublished

/-! ### Register writes -/

theorem writeReg_left (port : Port) (w : Window) (off v : Nat) (g : Reg) :
    Keeps NvStore.left (writeReg port w off v g) :=
  fun s hs => by
    unfold writeReg
    dsimp only
    split
    case h_6 => exact writeHatchCmd_left port.req v s hs
    case h_19 o e width =>
      split
      · exact hs
      · exact (applyObject_left port.req false o e _).writeObject _ _ _ _ _ _ _ s hs
    all_goals simpa using hs

theorem regWrite_left (port : Port) (w : Window) (off v : Nat) : Keeps NvStore.left (regWrite port w off v) := by
  refine Keeps.hostWrite (fun s hs => ?_) _ _ _ _
  split
  · exact hs
  · next g _ =>
    split
    · refine writeReg_left port w off v g _ ?_
      split <;> simpa using hs
    · simpa using hs

theorem writeDword_left (port : Port) (w : Window) (d : Nat × Nat × List Bool) :
    Keeps NvStore.left (writeDword port w · d) := fun s hs => by
  dsimp only [writeDword]
  split
  · exact hs
  · split
    · exact regWrite_left _ _ _ _ s hs
    · simpa using hs

theorem postedWrite_left (port : Port) (w : Window) (h : HostWrite) : Keeps NvStore.left (postedWrite port w h) :=
  fun s hs => by
    unfold postedWrite
    split
    · simpa using hs
    · exact Keeps.foldl (writeDword_left port w) _ s hs

theorem viaRegister_left (r : Req) (w : Window) (off v : Nat) (o : Obj) (e : Nat) :
    Keeps NvStore.left (viaRegister r w off v o e) := by
  cases r with
  | linkA => exact regWrite_left .a w off v
  | linkB => exact regWrite_left .b w off v
  | sideband => exact dictCommand_left .sideband o e _

theorem maskCommand_left (r : Req) (sn : Nat) (m : Bool) : Keeps NvStore.left (maskCommand r sn m) := by
  cases r with
  | linkA => exact regWrite_left .a .bar0 0x3008 _
  | linkB => exact regWrite_left .b .bar0 0x3008 _
  | sideband => exact dictCommand_left .sideband .sourceMask sn _

/-! ### What waits -/

theorem redo_left (r : Req) (a : Access) : Keeps NvStore.left (Access.redo r a) := fun s hs => by
  unfold Access.redo
  split
  · simpa using hs
  · split
    case h_2 => exact regWrite_left _ _ _ _ s hs
    case h_5 =>
      split
      · exact dictCommand_left _ _ _ _ s hs
      · exact hs
    all_goals simpa using hs

theorem retryHeld_left : Keeps NvStore.left retryHeld := fun s hs =>
  Keeps.foldl (f := fun s (x : Req × Access) => x.2.redo x.1 s) (fun x => redo_left x.1 x.2) _
    { releaseFaults s with held := [] } (by simpa using hs)

theorem passTime_left : Keeps NvStore.left passTime := fun s hs =>
  imageTick_left _ (retryHeld_left _ (by simpa using hs))

/-! ### The test access port -/

theorem dapScanExit_left : Keeps NvStore.left dapScanExit := fun s hs => by
  unfold dapScanExit
  split
  · exact keeperDiscard_left 6 s hs
  · exact hs

theorem dapRun_left (op : Nat) : Keeps NvStore.left (dapRun op) := fun s hs => by
  unfold dapRun
  split
  case h_5 => exact dapScanExit_left s hs
  all_goals simpa using hs

theorem dapWrite_left (reg v : Nat) : Keeps NvStore.left (dapWrite reg v) := fun s hs => by
  unfold dapWrite
  split
  case h_4 => exact dapRun_left _ s hs
  all_goals exact hs

theorem hydapAccess_left (dr : BitVec 40) : Keeps NvStore.left (hydapAccess dr) := fun s hs => by
  unfold hydapAccess
  dsimp only
  split
  · exact hs
  · split
    · exact hs
    · exact dapWrite_left _ _ _ hs

end Sys2Proof.Machine
end

section
/-!
No command brings the store back to Provisioning: each command by what its effect keeps of the store.
-/

namespace Sys2Proof.Machine

open Sys2Proof

/-! ### Commands that leave the store as it is, case by case -/

section
variable {s t : State} {port : Port} {island : Island} {tn : Fin 4096} {cls : Cls}

theorem execPortReset_nv {cause : PortResetCause} (h : execPortReset port cause s = .next t) : t.nv = s.nv :=
  nv_of_answer h fun s => by cases cause <;> simp

theorem execLockLoss_nv (h : execLockLoss island s = .next t) : t.nv = s.nv :=
  nv_of_answer h fun s => by cases islandId island <;> simp

theorem execIntakeForward_nv {gather : Fin 64} (h : execIntakeForward port gather s = .next t) : t.nv = s.nv :=
  nv_of_answer h <| onIslands_nv (fun s => by split <;> simp) _

theorem execOffer_nv {delivery : Fin 64} (h : execOffer delivery s = .next t) : t.nv = s.nv :=
  nv_of_answer h <| handshake_nv (fun s => by dsimp only; split <;> simp) _

theorem execRetraction_nv {delivery : Fin 64} (h : execRetraction delivery s = .next t) : t.nv = s.nv :=
  nv_of_answer h <| handshake_nv (fun s => by dsimp only; split <;> simp) _

theorem execBankClaim_nv {bank : Fin 32} (h : execBankClaim bank s = .next t) : t.nv = s.nv :=
  nv_of_answer h <| handshake_nv (fun s => by split <;> simp) _

theorem execBankEoi_nv {bank : Fin 32} (h : execBankEoi bank s = .next t) : t.nv = s.nv :=
  nv_of_answer h <| handshake_nv (fun s => by split <;> simp) _

theorem execLouvreExpiry_nv (h : execLouvreExpiry tn cls s = .next t) : t.nv = s.nv :=
  nv_of_answer h <| onIslands_nv (fun s => by split <;> simp) _

theorem execWatchdogExpiry_nv (h : execWatchdogExpiry tn cls s = .next t) : t.nv = s.nv := by
  unfold execWatchdogExpiry at h
  split at h
  · exact nv_of_answer h (onIslands_nv (guarded_nv fun s => by simp) _)
  · exact nv_of_answer h fun _ => rfl

theorem execHatchTimeout_nv (h : execHatchTimeout s = .next t) : t.nv = s.nv :=
  nv_of_answer h <| whenServing_nv fun s => by
    dsimp only
    split
    · rfl
    · split <;> simp

theorem execSidebandHatchWaitExpiry_nv (h : execSidebandHatchWaitExpiry s = .next t) : t.nv = s.nv :=
  nv_of_answer h <| onSideband_nv fun s => by split <;> simp

theorem execSmbusRetry_nv {packet : Nat} (h : execSmbusRetry (packet := packet) s = .next t) : t.nv = s.nv :=
  nv_of_answer h <| onSideband_nv fun s => by
    split
    · rfl
    · simp

theorem execEngineServe_nv {island : Fin 16} (h : execEngineServe island s = .next t) : t.nv = s.nv :=
  nv_of_answer h fun s => by
    split
    · rfl
    · split <;> simp

theorem execSwingCommit_nv (h : execSwingCommit s = .next t) : t.nv = s.nv :=
  nv_of_answer h fun s => by split <;> simp

theorem execHostReadTimeout_nv {read : HostReadId} (h : execHostReadTimeout read s = .next t) : t.nv = s.nv :=
  nv_of_answer h fun s => by split <;> simp

theorem execInvalidationFence_nv (h : execInvalidationFence s = .next t) : t.nv = s.nv :=
  nv_of_answer h fun s => by
    split
    · rfl
    · split
      · rfl
      · exact onIslands_nv (fun s => by dsimp only; split <;> simp) _ s

theorem execLedgerCopy_nv {island : Fin 4} (h : execLedgerCopy island s = .next t) : t.nv = s.nv :=
  nv_of_answer h <| onIslands_nv (fun s => by
    dsimp only
    split
    · rfl
    · split
      · rfl
      · split
        · rfl
        · split
          case h_1 h | h_2 h | h_3 h => simp [nv_of_translate h]) _

theorem execCutToken_nv (h : execCutToken island s = .next t) : t.nv = s.nv :=
  nv_of_answer h fun s => by cases islandId island <;> simp

theorem execIslandDoze_nv (h : execIslandDoze island s = .next t) : t.nv = s.nv :=
  nv_of_answer h fun s => by cases islandId island <;> simp

theorem execIslandRetain_nv (h : execIslandRetain island s = .next t) : t.nv = s.nv :=
  nv_of_answer h fun s => by
    cases islandId island with
    | none => rfl
    | some i =>
      dsimp only
      split
      · rfl
      · split <;> simp

theorem execIslandWake_nv (h : execIslandWake island s = .next t) : t.nv = s.nv :=
  nv_of_answer h fun s => by cases islandId island <;> simp

theorem execMgmtVectorSend_nv {enable funcMask : Bool}
    (h : execMgmtVectorSend port (enable := enable) (funcMask := funcMask) s = .next t) : t.nv = s.nv :=
  nv_of_answer h fun s => by
    dsimp only
    split
    · rfl
    · split <;> simp

theorem execRcRead_nv {window : Window} {offset length : Nat}
    (h : execRcRead port window offset (length := length) s = .next t) : t.nv = s.nv :=
  nv_of_answer h fun s => by simp

end

/-! ### Commands that write the store or may let a held write go on -/

section
variable {s t : State} {storm : StormInput} {boot : BootInput} {island : Island}

/-- A command keeps the store out of Provisioning where its effect does. -/
theorem left_of_answer {f : State → State} (h : answer s f = .next t) (hs : s.nv.left) (hf : Keeps NvStore.left f) :
    t.nv.left := keeps_of_answer h hs hf

theorem execColdPowerOn_left (h : execColdPowerOn s = .next t) (hs : s.nv.left) : t.nv.left :=
  left_of_answer h hs fun s hs => by
    have hstopped := stopWithoutCut_left s hs
    refine ⟨?_, hstopped.2⟩
    dsimp only
    split
    · decide
    · exact hstopped.1

theorem execVddAuxLoss_left (h : execVddAuxLoss s = .next t) (hs : s.nv.left) : t.nv.left :=
  left_of_answer h hs stopWithoutCut_left

theorem execVddCoreLoss_left (h : execVddCoreLoss s = .next t) (hs : s.nv.left) : t.nv.left :=
  left_of_answer h hs fun s hs => by
    dsimp only
    split
    · exact hs
    · split
      · exact stopWithoutCut_left s hs
      · exact hs

theorem execPgoodDeassert_left (h : execPgoodDeassert storm s = .next t) (hs : s.nv.left) : t.nv.left :=
  left_of_answer h hs fun s hs => by
    dsimp only
    split
    · exact stormOrStop_left storm _ hs
    · split
      · exact stopWithoutCut_left _ hs
      · exact hs

theorem execPwrfail_left (h : execPwrfail storm s = .next t) (hs : s.nv.left) : t.nv.left :=
  left_of_answer h hs fun s hs => by
    dsimp only
    split
    · exact hs
    · split
      · exact stormOrStop_left storm _ hs
      · split
        · exact stopWithoutCut_left _ hs
        · exact hs

theorem execKeeperRelease_left (h : execKeeperRelease boot s = .next t) (hs : s.nv.left) : t.nv.left :=
  left_of_answer h hs fun s hs => by
    split
    · exact release_left boot _ (by simpa using hs)
    · exact hs

theorem execStormRestart_left (h : execStormRestart boot s = .next t) (hs : s.nv.left) : t.nv.left :=
  left_of_answer h hs fun s hs => by
    split
    · exact hs
    · split
      · exact release_left boot _ (by simpa using hs)
      · exact hs

theorem execTransitionRecord_left (h : execTransitionRecord s = .next t) (hs : s.nv.left) : t.nv.left :=
  left_of_answer h hs fun s hs => by
    split
    · exact transitionRecord_left s hs
    · exact hs

theorem execTamper_left {temperature : Bool} (h : execTamper temperature s = .next t) (hs : s.nv.left) : t.nv.left :=
  left_of_answer h hs fun s hs => by
    dsimp only
    generalize (if temperature then 2 else 1) = cause
    have hlocked := fun zeroize => lockdownNow_left cause zeroize s hs
    have hannounced : ∀ zeroize, (if (lockdownNow cause zeroize s).powered then (lockdownNow cause zeroize s).mgmt 10
        else lockdownNow cause zeroize s).nv.left := fun zeroize => by
      split <;> exact hlocked zeroize
    split
    · exact hs
    · split
      · simpa using hlocked _
      · split
        · exact tamperResponse_left _ s hs
        · exact hannounced _

theorem execZeroizeDone_left (h : execZeroizeDone s = .next t) (hs : s.nv.left) : t.nv.left :=
  left_of_answer h hs fun s hs => by
    dsimp only
    split <;> exact hs

theorem execLockReturn_left (h : execLockReturn island s = .next t) (hs : s.nv.left) : t.nv.left :=
  left_of_answer h hs fun s hs => by
    split
    · exact hs
    · exact retryHeld_left _ (by simpa using hs)

theorem execLockTimeout_left (h : execLockTimeout island s = .next t) (hs : s.nv.left) : t.nv.left :=
  left_of_answer h hs fun s hs => by
    split
    · exact hs
    · exact retryHeld_left _ (by simpa using hs)

/-- What waits goes on after an effect that leaves the store as it is. -/
theorem retrying_left {f : State → State} (hf : ∀ s, (f s).nv = s.nv) :
    Keeps NvStore.left fun s => retryHeld (f s) :=
  fun s hs => retryHeld_left _ (by rwa [hf s])

end

/-! ### Every command -/

/-- No command brings the store back to Provisioning (R690). -/
theorem exec_left {c : Instr} {s t : State} (h : exec c s = .next t) (hs : s.nv.left) : t.nv.left := by
  cases c <;> simp only [exec] at h
  -- supplies, the Keeper's release and resets, authorization, tamper and lasting losses of lock
  case coldPowerOn => exact execColdPowerOn_left h hs
  case vddAuxLoss => exact execVddAuxLoss_left h hs
  case vddCoreLoss => exact execVddCoreLoss_left h hs
  case pgoodDeassert => exact execPgoodDeassert_left h hs
  case keeperRelease => exact execKeeperRelease_left h hs
  case pwrfail => exact execPwrfail_left h hs
  case stormRestart => exact execStormRestart_left h hs
  case lockReturn => exact execLockReturn_left h hs
  case lockTimeout => exact execLockTimeout_left h hs
  case tamper => exact execTamper_left h hs
  case zeroizeDone => exact execZeroizeDone_left h hs
  case transitionRecord => exact execTransitionRecord_left h hs
  case krst => exact left_of_answer h hs (keeperDiscard_left 3)
  case scanExit => exact left_of_answer h hs (dapScanExit_left.dapCommand 5)
  case hydapAccess dr => exact left_of_answer h hs (hydapAccess_left dr)
  case keeperResetCapture req key storm =>
    exact left_of_answer h hs ((keeperCapture_left storm).keeperResetWrite req 0 key)
  case keeperResetDiscard req key => exact left_of_answer h hs ((keeperDiscard_left 5).keeperResetWrite req 1 key)
  -- writes of registers and of objects
  case targetReset | mgmtEnableWrite | hatchClaim | hatchRefresh | hatchRelease | hatchRead | hatchWrite |
      hatchReadClear | hatchDone | queueProdWrite | invalidate | resume | retract | zeroIndex |
      entryWindowCommit | xlateInv =>
    exact left_of_answer h hs (regWrite_left _ _ _ _)
  case thresholdWrite | louvreWrite | targetControlWrite | shutterClose | shutterOpen | deadboltSet |
      ignCountClr | queueEnable | queueDisable | queueConfigWrite | flConsume | dirtyBudgetWrite | ceilingWrite
      =>
    exact left_of_answer h hs (viaRegister_left _ _ _ _ _ _)
  case lineConfigWrite | laneControlWrite | imageStageData | imageVerify | imageApply | imageDiscard |
      sourceConfigWrite | raise | withdraw | targetRoomWrite | roomReachWrite | invalidateRange | mirrorDisable
      | mirrorEnable | newNonce | setState | debug | authNone =>
    exact left_of_answer h hs (dictCommand_left _ _ _ _)
  case sourceMask | sourceUnmask =>
    exact left_of_answer h hs (maskCommand_left _ _ _)
  case registerWrite => exact left_of_answer h hs (postedWrite_left _ _ _)
  case imageApplyEnd => exact left_of_answer h hs (imageApplied_left.onArrival _)
  case hatchComplete => exact left_of_answer h hs hatchComplete_left.whenServing
  case get => exact left_of_answer h hs (Keeps.mirRun (mirRead_left 1) 1).onSideband
  case set => exact left_of_answer h hs (Keeps.mirRun mirSet_left 2).onSideband
  case getClear => exact left_of_answer h hs (Keeps.mirRun (mirRead_left 3) 3).onSideband
  -- commands with which a held write may go on
  case stateUpdate gather => exact left_of_answer h hs (retrying_left (updateStep_nv gather))
  case outboundIssue port => exact left_of_answer h hs (retrying_left (outboundStep_nv port))
  case mirrorWrite channel line check =>
    exact left_of_answer h hs (retrying_left (mirrorStep_nv channel line check))
  case rootCommit => exact left_of_answer h hs (retrying_left rootStep_nv)
  -- commands that leave the store as it is
  case portReset => exact execPortReset_nv h ▸ hs
  case lockLoss => exact execLockLoss_nv h ▸ hs
  case intakeForward => exact execIntakeForward_nv h ▸ hs
  case offer => exact execOffer_nv h ▸ hs
  case retraction => exact execRetraction_nv h ▸ hs
  case bankClaim => exact execBankClaim_nv h ▸ hs
  case bankEoi => exact execBankEoi_nv h ▸ hs
  case louvreExpiry => exact execLouvreExpiry_nv h ▸ hs
  case watchdogExpiry => exact execWatchdogExpiry_nv h ▸ hs
  case rcRead => exact execRcRead_nv h ▸ hs
  case mgmtVectorSend => exact execMgmtVectorSend_nv h ▸ hs
  case hatchTimeout => exact execHatchTimeout_nv h ▸ hs
  case sidebandHatchWaitExpiry => exact execSidebandHatchWaitExpiry_nv h ▸ hs
  case smbusRetry => exact execSmbusRetry_nv h ▸ hs
  case engineServe => exact execEngineServe_nv h ▸ hs
  case swingCommit => exact execSwingCommit_nv h ▸ hs
  case hostReadTimeout => exact execHostReadTimeout_nv h ▸ hs
  case invalidationFence => exact execInvalidationFence_nv h ▸ hs
  case ledgerCopy => exact execLedgerCopy_nv h ▸ hs
  case cutToken => exact execCutToken_nv h ▸ hs
  case islandDoze => exact execIslandDoze_nv h ▸ hs
  case islandRetain => exact execIslandRetain_nv h ▸ hs
  case islandWake => exact execIslandWake_nv h ▸ hs
  case strapSample | pgoodAssert | recoveryComplete | pwrwarnAssert | pwrwarnDeassert | flr | d3hotEntry |
      pinQualify | sillFrame | laneTimeout | letterboxSingleWrite | letterboxDoubleWrite | selection | deliver |
      claimRead | claimAnswer | eoi | maskConfirmRead | syncRead | mgmtEventRead | mctpMessage | describe |
      release | responseDelivered | setEndpointId | getEndpointId | getEndpointUuid | getMctpVersionSupport |
      getMessageTypeSupport | getVendorDefinedMessageSupport | entdaa | setdasa | setnewda | rstdaa | rstact |
      enec | disec | setmwl | setmrl | getmwl | getmrl | getpid | getbcr | getdcr | getstatus | getmxds |
      hotJoin | smbclkTimeout | vddioLoss | getVersion | getCapabilities | negotiateAlgorithms | getDigests |
      getCertificate | challenge | getMeasurements | imageStageTimeout | pollTick | ringFetchComplete |
      completionWrite | entryWindowSnapshot | ipiMulticast | routeBatch | swing | swingFoldEnd | timerArm |
      timerCancel | timerExpiry | ledgerAppend | fence | hostStore | checkpoint | roomReassign | xlateInvalidate
      | hostReadComplete | walkReadComplete | bar4Write | bar4Read | ledgerFenceRead | piecePersist | pageMove |
      pageRetire | autoCheckpoint | nonceExpiry | peek | halt | dapRelease | scanEnter | extest | extestPulse |
      extestTrain | samplePreload | idcode | bypass | hydap | hyscan | intxMessage | bootRomVerify |
      busMasterEnableWrite | d3hotExit | perstDeassert | linkUp | creditWaitOver | tjExcursion | holdupLow =>
    exact nv_of_answer h (fun s => by simp) ▸ hs

/-- A nanosecond with no command does not bring it back either. -/
theorem tick_left {s t : State} (h : tick s = .next t) (hs : s.nv.left) : t.nv.left := left_of_answer h hs passTime_left

/-- Settles O5: it holds. No command and no nanosecond without one brings the store back to Provisioning. -/
theorem provisioningIsLeftForGood : Obligations.ProvisioningIsLeftForGood := by
  unfold Obligations.ProvisioningIsLeftForGood
  intro s t h hs
  unfold step at h
  split at h
  · exact tick_left h hs
  · exact exec_left h hs

end Sys2Proof.Machine
end

section
/-!
What a tamper does (Table SD-12): the lockdown that every tamper of an enabled cause brings, and what TamperAction asks
for, at once, later, or not again.
-/

namespace Sys2Proof.Machine

open Sys2Proof

/-! ### What the Ledger's and the halts' operations leave as it is -/

/-- What guards the controller reads in `t` as in `s`: the Keeper and its store, the authorizations and the debug port's
grant, the roots in the mirror MRAM, and whether the Ledger is closed. -/
structure SameGuard (s t : State) : Prop where
  nv : t.nv = s.nv
  keeper : t.keeper = s.keeper
  auth : t.auth = s.auth
  dap : t.dap = s.dap
  mram : t.mram = s.mram
  closed : t.ledger.closed = s.ledger.closed

theorem SameGuard.rfl {s : State} : SameGuard s s := ⟨.refl _, .refl _, .refl _, .refl _, .refl _, .refl _⟩

theorem SameGuard.trans {s t u : State} (h : SameGuard s t) (k : SameGuard t u) : SameGuard s u :=
  ⟨k.nv.trans h.nv, k.keeper.trans h.keeper, k.auth.trans h.auth, k.dap.trans h.dap, k.mram.trans h.mram,
    k.closed.trans h.closed⟩

theorem SameGuard.foldl {α : Type} {f : State → α → State} (hf : ∀ s a, SameGuard s (f s a)) (l : List α)
    (s : State) : SameGuard s (l.foldl f s) :=
  List.foldlRecOn (motive := SameGuard s) l f .rfl fun t ht a _ => ht.trans (hf t a)

theorem finishRead_sameGuard (port : Port) (offset length : Nat) (s : State) :
    SameGuard s (finishRead port offset length s) := by
  unfold finishRead
  dsimp only
  split
  · constructor <;> simp
  · split <;> constructor <;> simp

theorem readsDone_sameGuard (s : State) : SameGuard s (readsDone s) :=
  SameGuard.foldl (fun s r => by
    split
    · exact SameGuard.trans (by constructor <;> rfl) (finishRead_sameGuard ..)
    · exact .rfl) _ s

@[simp] theorem applyPiece_closed (p : Piece) (l : Ledger) : (applyPiece p l).closed = l.closed := by
  unfold applyPiece
  split
  · split <;> rfl
  · rfl

theorem flowPort_sameGuard (port : Port) (n : Nat) (s : State) : SameGuard s (flowPort port n s) := by
  induction n generalizing s with
  | zero => exact .rfl
  | succ n ih =>
    unfold flowPort
    split
    · exact .rfl
    · split
      · refine SameGuard.trans ?_ (ih _)
        constructor <;> simp
      · exact .rfl

theorem ledgerFlow_sameGuard (s : State) : SameGuard s (ledgerFlow s) :=
  ((flowPort_sameGuard ..).trans (flowPort_sameGuard ..)).trans (readsDone_sameGuard _)

theorem finishFence_sameGuard (r : Reader) (done : Bool) (s : State) : SameGuard s (finishFence r done s) := by
  constructor <;> simp [finishFence]

theorem fenceReadsDone_sameGuard (s : State) : SameGuard s (fenceReadsDone s) :=
  SameGuard.foldl (fun s r => by
    split
    · exact .rfl
    · exact SameGuard.trans (by constructor <;> rfl) (finishFence_sameGuard ..)) _ s

@[simp] theorem wearing_closed (island : Nat) (f : Ledger → Ledger) (l : Ledger) :
    (wearing island f l).closed = (f l).closed := by
  unfold wearing
  dsimp only
  split <;> rfl

theorem persisted_sameGuard (p : Piece) (s : State) : SameGuard s (persisted p s) := by
  constructor <;> simp [persisted]

theorem persistAll_sameGuard (s : State) : SameGuard s (persistAll s) := by
  refine SameGuard.trans ?_ (SameGuard.foldl (fun s p => persisted_sameGuard p s) _ _)
  constructor <;> rfl

theorem failFences_sameGuard (dropped : List Piece) (s : State) : SameGuard s (failFences dropped s) := by
  refine SameGuard.trans (SameGuard.foldl (fun s r => ?_) _ _) (by constructor <;> rfl)
  split
  · exact SameGuard.trans (by constructor <;> rfl) (finishFence_sameGuard ..)
  · exact .rfl

theorem denyStream_sameGuard (port : Port) (s : State) : SameGuard s (denyStream port s) := by
  constructor <;> rfl

theorem modItem_sameGuard (q slot : Nat) (f : Item → Item) (s : State) : SameGuard s (s.modItem q slot f) := by
  constructor <;> simp

theorem failLedgerReads_sameGuard (s : State) : SameGuard s (failLedgerReads s) := by
  have answered := SameGuard.foldl (f := fun s (r : Reader × Nat) => (s.conductBit r.1.port.req 3).answerRead r.1 0)
    (fun s r => by constructor <;> simp) s.ledger.fenceReads s
  refine (answered.trans (SameGuard.foldl (fun s r => ?_) _ _)).trans (by constructor <;> rfl)
  constructor <;> simp

/-- A batch append whose piece is dropped is denied. -/
def denyAppend (s : State) (p : Piece) : State :=
  match p.append with
  | some (q, slot) => s.modItem q slot fun it => { it with denied := true }
  | none => s

theorem denyAppend_sameGuard (s : State) (p : Piece) : SameGuard s (denyAppend s p) := by
  unfold denyAppend
  split
  · exact modItem_sameGuard ..
  · exact .rfl

/-- Closing the Ledger closes it and leaves the rest of the guard as it is (R724). -/
theorem closeLedger_sameGuard (s : State) :
    SameGuard (s.modLedger fun l => { l with closed := true }) (closeLedger s) := by
  unfold closeLedger
  dsimp only
  refine SameGuard.trans ?_ ((failFences_sameGuard ..).trans (fenceReadsDone_sameGuard _))
  have persisted := (persistAll_sameGuard s).trans (fenceReadsDone_sameGuard _)
  have denied := (persisted.trans (denyStream_sameGuard .a _)).trans (denyStream_sameGuard .b _)
  have emptied := denied.trans (SameGuard.foldl denyAppend_sameGuard (fenceReadsDone (persistAll s)).ledger.stream _)
  exact ⟨emptied.nv, emptied.keeper, emptied.auth, emptied.dap, emptied.mram, .refl true⟩

@[simp] theorem closeLedger_keeper (s : State) : (closeLedger s).keeper = s.keeper := (closeLedger_sameGuard s).keeper

@[simp] theorem closeLedger_auth (s : State) : (closeLedger s).auth = s.auth := (closeLedger_sameGuard s).auth

@[simp] theorem closeLedger_dap (s : State) : (closeLedger s).dap = s.dap := (closeLedger_sameGuard s).dap

@[simp] theorem closeLedger_mram (s : State) : (closeLedger s).mram = s.mram := (closeLedger_sameGuard s).mram

@[simp] theorem closeLedger_closed (s : State) : (closeLedger s).ledger.closed = true :=
  (closeLedger_sameGuard s).closed

/-- Leaving RDY ends the reads that wait and leaves the rest of the guard as it is (R75). -/
theorem clearRdy_sameGuard (s : State) : SameGuard { s with keeper := { s.keeper with rdy := false } } (clearRdy s) :=
  failLedgerReads_sameGuard _

@[simp] theorem clearRdy_nv (s : State) : (clearRdy s).nv = s.nv := (clearRdy_sameGuard s).nv

@[simp] theorem clearRdy_keeper (s : State) : (clearRdy s).keeper = { s.keeper with rdy := false } :=
  (clearRdy_sameGuard s).keeper

@[simp] theorem clearRdy_auth (s : State) : (clearRdy s).auth = s.auth := (clearRdy_sameGuard s).auth

@[simp] theorem clearRdy_dap (s : State) : (clearRdy s).dap = s.dap := (clearRdy_sameGuard s).dap

@[simp] theorem clearRdy_mram (s : State) : (clearRdy s).mram = s.mram := (clearRdy_sameGuard s).mram

/-! ### The end of the halts -/

/-- Time that a halt has taken from an island is given back to it, and to nothing that guards the controller (R743). -/
theorem pauseShift_sameGuard (i dt : Nat) (s : State) : SameGuard s (pauseShift i dt s) := by
  unfold pauseShift
  dsimp only
  repeat' split
  all_goals constructor <;> rfl

theorem pauseShift_ledger (i dt : Nat) (s : State) : (pauseShift i dt s).ledger = s.ledger := by
  unfold pauseShift
  dsimp only
  repeat' split
  all_goals rfl

/-- The halts' release changes the debug port's halts, gives the islands their time back, and leaves the rest of the
guard as it is. -/
theorem releaseHalts_sameGuard (s : State) :
    SameGuard { s with dap := { s.dap with halted := [], haltedAt := [] } } (releaseHalts s) := by
  have paused := SameGuard.foldl (f := fun s (p : Nat × Nat) => pauseShift p.1 (s.now + 1 - p.2) s)
    (fun s _ => pauseShift_sameGuard _ _ s) s.dap.haltedAt s
  exact ⟨paused.nv, paused.keeper, paused.auth, by simp [releaseHalts, paused.dap], paused.mram, paused.closed⟩

theorem releaseHalts_ledger (s : State) : (releaseHalts s).ledger = s.ledger :=
  List.foldlRecOn (motive := fun t : State => t.ledger = s.ledger) s.dap.haltedAt _ rfl
    fun _ ht _ _ => (pauseShift_ledger ..).trans ht

theorem resumeHalts_sameGuard (s : State) :
    SameGuard { s with dap := { s.dap with halted := [], haltedAt := [] } } (resumeHalts s) :=
  (releaseHalts_sameGuard s).trans (ledgerFlow_sameGuard _)

/-- With no piece in the stream and no read waiting, the Ledger's flow changes nothing. -/
theorem ledgerFlow_of_idle {s : State} (hstream : s.ledger.stream = []) (hreads : s.ledger.reads = []) :
    ledgerFlow s = s := by
  simp [ledgerFlow, readsDone, hstream, hreads, flowPort]

theorem resumeHalts_ledger {s : State} (hstream : s.ledger.stream = []) (hreads : s.ledger.reads = []) :
    (resumeHalts s).ledger = s.ledger := by
  have hrelease := releaseHalts_ledger s
  rw [resumeHalts, ledgerFlow_of_idle (by rw [hrelease, hstream]) (by rw [hrelease, hreads]), hrelease]

/-! ### The lockdown -/

/-- The state in which a tamper is recorded, before the grants and the halts end (Table SD-12). -/
def tamperRecorded (cause zeroize : Nat) (s : State) : State :=
  let s := writeMark cause s
  let s := recordTamper cause s.nv.tamperAction s.keeper.pstate.num zeroize s.dur.g.epoch s
  { s with keeper := { s.keeper with deadbolts := s.keeper.deadbolts ||| 0b10000 } }

theorem lockdownNow_eq (cause zeroize : Nat) (s : State) :
    lockdownNow cause zeroize s = endGrants (tamperRecorded cause zeroize s) := rfl

theorem lockdownNow_nv (cause zeroize : Nat) (s : State) :
    (lockdownNow cause zeroize s).nv = (tamperRecorded cause zeroize s).nv :=
  endGrants_nv _

@[simp] theorem lockdownNow_keeper (cause zeroize : Nat) (s : State) :
    (lockdownNow cause zeroize s).keeper =
      { s.keeper with tampered := true, deadbolts := s.keeper.deadbolts ||| 0b10000 } :=
  (resumeHalts_sameGuard (tamperRecorded cause zeroize s)).keeper

@[simp] theorem lockdownNow_mram (cause zeroize : Nat) (s : State) : (lockdownNow cause zeroize s).mram = s.mram :=
  (resumeHalts_sameGuard (tamperRecorded cause zeroize s)).mram

@[simp] theorem lockdownNow_halted (cause zeroize : Nat) (s : State) : (lockdownNow cause zeroize s).dap.halted = [] :=
  congrArg Debug.halted (resumeHalts_sameGuard (tamperRecorded cause zeroize s)).dap

@[simp] theorem lockdownNow_grant (cause zeroize : Nat) (s : State) : (lockdownNow cause zeroize s).dap.grant = 0 := by
  simp [lockdownNow_eq, endGrants, baseGrant, tamperRecorded, recordTamper]

@[simp] theorem lockdownNow_nonce (cause zeroize : Nat) (s : State) (r : Req) :
    ((lockdownNow cause zeroize s).auth.get r).nonce = none := by
  simp [lockdownNow_eq, endGrants]

theorem lockdownNow_ledger {s : State} (cause zeroize : Nat) (hstream : s.ledger.stream = [])
    (hreads : s.ledger.reads = []) : (lockdownNow cause zeroize s).ledger = s.ledger :=
  resumeHalts_ledger (s := tamperRecorded cause zeroize s) hstream hreads

/-- What a tamper of an enabled cause leaves, whatever TamperAction asks for: Lockdown recorded and begun, DB_DEBUG set,
and no grant, halt or nonce (R720, R723). -/
structure LocksDown (cause : Nat) (s t : State) : Prop where
  sec : t.nv.sec = .lockdown
  recording : t.nv.recording = none
  count : t.nv.tamperCount = satAdd 32 s.nv.tamperCount 1
  cause : t.nv.tamperLog.cause = cause
  deadbolts : t.keeper.deadbolts = s.keeper.deadbolts ||| 0b10000
  grant : t.dap.grant = 0
  halted : t.dap.halted = []
  nonce : ∀ r, (t.auth.get r).nonce = none

theorem lockdownNow_locksDown (cause zeroize : Nat) (s : State) : LocksDown cause s (lockdownNow cause zeroize s) := by
  constructor <;> simp [lockdownNow_nv, tamperRecorded, recordTamper, writeMark]

/-- The lockdown stands in every later state that keeps the records, the deadbolts, the debug port and the nonces. -/
theorem LocksDown.of_kept {cause : Nat} {s t u : State} (h : LocksDown cause s t)
    (hsec : u.nv.sec = t.nv.sec) (hrecording : u.nv.recording = t.nv.recording)
    (hcount : u.nv.tamperCount = t.nv.tamperCount) (hlog : u.nv.tamperLog = t.nv.tamperLog)
    (hdeadbolts : u.keeper.deadbolts = t.keeper.deadbolts) (hdap : u.dap = t.dap) (hauth : u.auth = t.auth) :
    LocksDown cause s u :=
  ⟨hsec.trans h.sec, hrecording.trans h.recording, hcount.trans h.count, hlog ▸ h.cause,
    hdeadbolts.trans h.deadbolts, hdap ▸ h.grant, hdap ▸ h.halted, hauth ▸ h.nonce⟩

theorem LocksDown.of_sameGuard {cause : Nat} {s t u : State} (h : LocksDown cause s t) (k : SameGuard t u) :
    LocksDown cause s u :=
  h.of_kept (by rw [k.nv]) (by rw [k.nv]) (by rw [k.nv]) (by rw [k.nv]) (by rw [k.keeper]) k.dap k.auth

/-! ### What TamperAction asks for (Table SD-12) -/

/-- The management signal of a tamper, where there is power to send it. -/
def tamperSignalled (s : State) : State := if s.powered then s.mgmt 10 else s

/-- A tamper while a zeroization runs or is pending: the lockdown, and nothing more is asked for (R726). -/
def tamperRepeated (cause : Nat) (s : State) : State :=
  let s := tamperSignalled (lockdownNow cause (if s.keeper.zeroizing then 2 else 1) s)
  if s.running then s.raise 0x101064 else s

/-- A tamper in P3, P4, P5 or Scan: the lockdown, and what TamperAction asks for is pending (R725). -/
def tamperAwaited (cause : Nat) (s : State) : State :=
  let action := s.nv.tamperAction
  let s := tamperSignalled (lockdownNow cause (if action = 0 then 0 else 1) s)
  { s with nv := { s.nv with
    zeroizePending := decide (action ≠ 0)
    zeroizeRoots := decide (action = 2) } }

theorem mgmt_sameGuard (n : Nat) (s : State) : SameGuard s (s.mgmt n) := by
  constructor <;> simp

theorem raise_sameGuard (sn : Nat) (s : State) : SameGuard s (s.raise sn) := by
  constructor <;> simp

theorem tamperSignalled_sameGuard (s : State) : SameGuard s (tamperSignalled s) := by
  unfold tamperSignalled
  split
  · exact mgmt_sameGuard ..
  · exact .rfl

theorem tamperRepeated_sameGuard (cause : Nat) (s : State) :
    SameGuard (lockdownNow cause (if s.keeper.zeroizing then 2 else 1) s) (tamperRepeated cause s) := by
  refine (tamperSignalled_sameGuard _).trans ?_
  unfold tamperRepeated
  dsimp only
  generalize tamperSignalled _ = t
  split
  · exact raise_sameGuard ..
  · exact .rfl

theorem tamperRepeated_locksDown (cause : Nat) (s : State) : LocksDown cause s (tamperRepeated cause s) :=
  (lockdownNow_locksDown ..).of_sameGuard (tamperRepeated_sameGuard cause s)

/-- A repeated tamper erases nothing and asks for nothing more. -/
theorem tamperRepeated_asks (cause : Nat) (s : State) :
    (tamperRepeated cause s).mram = s.mram ∧ (tamperRepeated cause s).keeper.zeroizing = s.keeper.zeroizing ∧
      (tamperRepeated cause s).nv.zeroizePending = s.nv.zeroizePending := by
  have h := tamperRepeated_sameGuard cause s
  rw [h.mram, h.keeper, h.nv, lockdownNow_nv]
  exact ⟨lockdownNow_mram .., by simp, rfl⟩

theorem tamperAwaited_locksDown (cause : Nat) (s : State) : LocksDown cause s (tamperAwaited cause s) := by
  have h := (lockdownNow_locksDown cause (if s.nv.tamperAction = 0 then 0 else 1) s).of_sameGuard
    (tamperSignalled_sameGuard _)
  unfold tamperAwaited
  dsimp only
  generalize tamperSignalled _ = t at h ⊢
  exact h.of_kept rfl rfl rfl rfl rfl rfl rfl

/-- An awaited tamper erases nothing and begins nothing: what TamperAction asks for is pending. -/
theorem tamperAwaited_asks (cause : Nat) (s : State) :
    (tamperAwaited cause s).mram = s.mram ∧ (tamperAwaited cause s).keeper.zeroizing = s.keeper.zeroizing ∧
      (tamperAwaited cause s).nv.zeroizePending = decide (s.nv.tamperAction ≠ 0) ∧
      (tamperAwaited cause s).nv.zeroizeRoots = decide (s.nv.tamperAction = 2) := by
  have h := tamperSignalled_sameGuard (lockdownNow cause (if s.nv.tamperAction = 0 then 0 else 1) s)
  unfold tamperAwaited
  dsimp only
  exact ⟨h.mram.trans (lockdownNow_mram ..), by rw [h.keeper, lockdownNow_keeper], rfl, rfl⟩

section
variable {s : State} (cause : Nat)

theorem tamperResponse_of_none (h : s.nv.tamperAction = 0) :
    tamperResponse cause s = ((lockdownNow cause 0 s).mgmt 10).raise 0x101064 := by
  simp [tamperResponse, h]

theorem tamperResponse_of_data (h : s.nv.tamperAction = 1) :
    tamperResponse cause s =
      (let t := closeLedger ((lockdownNow cause 2 s).mgmt 10)
       { t with keeper := { t.keeper with zeroizing := true } }).raise 0x101064 := by
  simp [tamperResponse, h]

/-- The state in which a core that is to stop has closed its Ledger. -/
def coreClosed (s : State) : State := closeLedger (clearRdy (setShutter true s))

theorem tamperResponse_of_roots (h0 : s.nv.tamperAction ≠ 0) (h1 : s.nv.tamperAction ≠ 1) :
    tamperResponse cause s =
      let t := coreClosed ((lockdownNow cause 2 s).mgmt 10)
      { t with
        mram := t.mram.erase
        dur := .initial
        durab := .initial
        fabric := { Fabric.initial with shutter := true }
        queues := { vol := [], engine := [] }
        keeper := { t.keeper with zeroizing := true, ramStopped := true } } := by
  simp [tamperResponse, h0, h1, coreClosed]

end

@[simp] theorem coreClosed_nv (s : State) : (coreClosed s).nv = s.nv := by simp [coreClosed, setShutter]

@[simp] theorem coreClosed_keeper (s : State) : (coreClosed s).keeper = { s.keeper with rdy := false } := by
  simp [coreClosed, setShutter]

@[simp] theorem coreClosed_auth (s : State) : (coreClosed s).auth = s.auth := by simp [coreClosed, setShutter]

@[simp] theorem coreClosed_dap (s : State) : (coreClosed s).dap = s.dap := by simp [coreClosed, setShutter]

@[simp] theorem coreClosed_mram (s : State) : (coreClosed s).mram = s.mram := by simp [coreClosed, setShutter]

@[simp] theorem coreClosed_closed (s : State) : (coreClosed s).ledger.closed = true := closeLedger_closed _

theorem tamperResponse_locksDown (cause : Nat) (s : State) : LocksDown cause s (tamperResponse cause s) := by
  by_cases h0 : s.nv.tamperAction = 0
  · rw [tamperResponse_of_none cause h0]
    exact (lockdownNow_locksDown cause 0 s).of_kept
      (by simp) (by simp) (by simp) (by simp) (by simp) (by simp) (by simp)
  have h := lockdownNow_locksDown cause 2 s
  by_cases h1 : s.nv.tamperAction = 1
  · rw [tamperResponse_of_data cause h1]
    exact h.of_kept (by simp) (by simp) (by simp) (by simp) (by simp) (by simp) (by simp)
  · rw [tamperResponse_of_roots cause h0 h1]
    exact h.of_kept (by simp) (by simp) (by simp) (by simp) (by simp) (by simp) (by simp)

/-- A tamper that erases nothing leaves the roots and an idle Ledger as they are. -/
theorem tamperResponse_erases_nothing (cause : Nat) {s : State} (h : s.nv.tamperAction = 0) :
    (tamperResponse cause s).mram = s.mram ∧ (tamperResponse cause s).keeper.zeroizing = s.keeper.zeroizing ∧
      (s.ledger.stream = [] → s.ledger.reads = [] → (tamperResponse cause s).ledger = s.ledger) := by
  rw [tamperResponse_of_none cause h]
  exact ⟨by simp, by simp, fun hstream hreads => by simp [lockdownNow_ledger cause 0 hstream hreads]⟩

/-- A tamper that erases the data closes the Ledger, begins its zeroization and leaves the roots (R724). -/
theorem tamperResponse_erases_data (cause : Nat) {s : State} (h : s.nv.tamperAction = 1) :
    (tamperResponse cause s).mram = s.mram ∧ (tamperResponse cause s).ledger.closed = true ∧
      (tamperResponse cause s).keeper.zeroizing = true ∧
      (tamperResponse cause s).keeper.ramStopped = s.keeper.ramStopped := by
  rw [tamperResponse_of_data cause h]
  simp

/-- A tamper that erases the roots too stops the core (R724). -/
theorem tamperResponse_erases_roots (cause : Nat) {s : State} (h : s.nv.tamperAction = 2) :
    (tamperResponse cause s).mram = s.mram.erase ∧ (tamperResponse cause s).ledger.closed = true ∧
      (tamperResponse cause s).keeper.zeroizing = true ∧ (tamperResponse cause s).keeper.ramStopped = true ∧
      (tamperResponse cause s).keeper.rdy = false ∧ (tamperResponse cause s).dur = .initial ∧
      (tamperResponse cause s).fabric.shutter = true := by
  rw [tamperResponse_of_roots cause (by simp [h]) (by simp [h])]
  simp

/-! ### The instructions -/

/-- What a tamper of an enabled cause does in each condition of the controller. -/
def tamperEffect (cause : Nat) (s : State) : State :=
  if s.keeper.zeroizing || s.nv.zeroizePending then tamperRepeated cause s
  else if s.inRun && !s.keeper.scan then tamperResponse cause s
  else tamperAwaited cause s

theorem exec_tamper_enabled {s : State} {temperature : Bool} (hvdd : s.keeper.vddAux = true)
    (henabled : s.nv.tamperEnable.getLsbD (if temperature then 1 else 0) = true) :
    exec (.tamper temperature) s =
      .next (answered s (tamperEffect (if temperature then 2 else 1) (cleared s))) := by
  change execTamper temperature s = _
  unfold execTamper
  refine answer_eq (if_neg ?_)
  cases temperature <;> simp_all [cleared]

section
variable {s : State} (cause : Nat)

theorem tamperEffect_of_repeated (h : s.keeper.zeroizing = true ∨ s.nv.zeroizePending = true) :
    tamperEffect cause s = tamperRepeated cause s :=
  if_pos (by simpa using h)

variable (hzeroizing : s.keeper.zeroizing = false) (hpending : s.nv.zeroizePending = false)
include hzeroizing hpending

theorem tamperEffect_of_run (hrun : s.inRun = true) (hscan : s.keeper.scan = false) :
    tamperEffect cause s = tamperResponse cause s := by
  simp [tamperEffect, hzeroizing, hpending, hrun, hscan]

theorem tamperEffect_of_stopped (h : s.inRun = false ∨ s.keeper.scan = true) :
    tamperEffect cause s = tamperAwaited cause s := by
  rcases h with h | h <;> simp [tamperEffect, hzeroizing, hpending, h]

end

theorem tamperEffect_locksDown (cause : Nat) (s : State) : LocksDown cause s (tamperEffect cause s) := by
  unfold tamperEffect
  split
  · exact tamperRepeated_locksDown ..
  · split
    · exact tamperResponse_locksDown ..
    · exact tamperAwaited_locksDown ..

/-- ZEROIZE_DONE while the zeroization runs leaves every Ledger byte zero. -/
theorem exec_zeroizeDone {s : State} (h : s.keeper.zeroizing = true) : exec .zeroizeDone s = .next { s with
    out := []
    ledger := { s.ledger with mem := [], bad := [] }
    keeper := { s.keeper with zeroizing := false }
    nv := { s.nv with zeroizePending := false, tamperLog := { s.nv.tamperLog with zeroize := 3 } } } := by
  change execZeroizeDone s = _
  unfold execZeroizeDone
  exact answer_of_quiet (if_neg (by simp [cleared, h])) rfl rfl

/-- Settles O53: it holds. The lockdown is one fact about all conditions (`tamperEffect_locksDown`); what TamperAction
asks for is read off the condition the controller is in. -/
theorem tamperLocksDown : Obligations.TamperLocksDown := by
  unfold Obligations.TamperLocksDown
  refine ⟨fun temperature s hvdd henabled => ⟨_, exec_tamper_enabled hvdd henabled, ?_⟩,
    fun s => exec_zeroizeDone⟩
  generalize (if temperature then 2 else 1) = cause
  obtain ⟨hsec, hrecording, hcount, hcause, hdeadbolts, hgrant, hhalted, hnonce⟩ :=
    tamperEffect_locksDown cause (cleared s)
  refine ⟨hsec, hrecording, hcount, hcause, hdeadbolts, hgrant, hhalted, hnonce, fun hasked => ?_,
    fun hzeroizing hpending => ⟨fun hstopped => ?_, fun hrun hscan => ?_⟩⟩
  · have hasks := tamperRepeated_asks cause (cleared s)
    rw [tamperEffect_of_repeated (s := cleared s) cause hasked]
    generalize tamperRepeated cause (cleared s) = t at hasks ⊢
    exact hasks
  · obtain ⟨hmram, hkeeper, hpends, hroots⟩ := tamperAwaited_asks cause (cleared s)
    rw [tamperEffect_of_stopped (s := cleared s) cause hzeroizing hpending hstopped]
    generalize tamperAwaited cause (cleared s) = t at hmram hkeeper hpends hroots ⊢
    exact ⟨hmram, hkeeper.trans hzeroizing, hpends, hroots⟩
  · have hnone := tamperResponse_erases_nothing cause (s := cleared s)
    have hdata := tamperResponse_erases_data cause (s := cleared s)
    have hroots := tamperResponse_erases_roots cause (s := cleared s)
    rw [tamperEffect_of_run (s := cleared s) cause hzeroizing hpending hrun hscan]
    generalize tamperResponse cause (cleared s) = t at hnone hdata hroots ⊢
    refine ⟨fun haction => ?_, hdata, hroots⟩
    obtain ⟨hmram, hkeeper, hledger⟩ := hnone haction
    exact ⟨hmram, hkeeper.trans hzeroizing, hledger⟩

end Sys2Proof.Machine
end

section
/-!
What is left as it is by the operations whose frames the sections before did not need: bank steps, deliveries, walks,
items, roots and resets change neither store nor staged image.
-/

namespace Sys2Proof.Machine

open Sys2Proof

@[simp] theorem bankApply_same {α : Type} (bank : Nat) (x : Sent α) (f : State → State) (s : State)
    (hf : ∀ s, Same s (f s)) : Same s (bankApply bank x f s) :=
  guarded_same _ s fun t => notifyHeld_same _ _ t fun u => receiving_same _ _ _ u hf

/-! ### Sources and the Store bank -/

@[simp] theorem tellPending_same (sn : Nat) (old new : Source) (s : State) : Same s (tellPending sn old new s) := by
  simp only [tellPending]
  split <;> simp [Same]

@[simp] theorem storeNote_same (port : Port) (sn : Nat) (note : List Byte) (s : State) :
    Same s (storeNote port sn note s) := by
  simp only [storeNote]
  split <;> simp [Same]

@[simp] theorem applyRequest_same (e : Event) (s : State) : Same s (applyRequest e s) := by
  cases e with
  | letterbox port requester offset sn room note => cases note <;> simp [Same, applyRequest]
  | wired sn assert level => simp [Same, applyRequest]
  | raise sn => simp [Same, applyRequest]
  | warn sn => simp [Same, applyRequest]
  | ipi sn tn ch => simp [Same, applyRequest]

@[simp] theorem updateApply_same (key : Nat) (s : State) : Same s (updateApply key s) := by
  unfold updateApply
  split <;> simp [Same]

@[simp] theorem applyClaimReq_same (bank : Nat) (r : ClaimReq) (s : State) : Same s (applyClaimReq bank r s) := by
  cases r <;> simp [Same, applyClaimReq]

@[simp] theorem claimStep_same (bank : Nat) (s : State) : Same s (claimStep bank s) := by
  unfold claimStep
  split <;> simp [Same]

@[simp] theorem updateOrdered_same (key : Nat) (s : State) : Same s (updateOrdered key s) := by
  unfold updateOrdered
  split <;> simp [Same]

@[simp] theorem updateStep_same (g : Nat) (s : State) : Same s (updateStep g s) := by
  unfold updateStep
  split <;> simp [Same]

@[simp] theorem releaseSource_same (barrier : Bool) (tn : Nat) (c : Cls) (sn : Nat) (s : State) :
    Same s (releaseSource barrier tn c sn s) := by
  simp only [releaseSource]
  cases (holderReset tn c sn s).tgt tn |>.fallback <;> simp [Same]

@[simp] theorem releaseHeld_same (barrier : Bool) (tn : Nat) (c : Cls) (held : Option Nat) (s : State) :
    Same s (releaseHeld barrier tn c held s) := by
  cases held <;> simp [Same, releaseHeld]

/-! ### Translation -/

@[simp] theorem beginWalk_same (r : XReq) (s : State) : Same s (beginWalk r s).1 := by
  unfold beginWalk
  dsimp only
  split
  · exact ⟨rfl, rfl, rfl⟩
  · next h =>
    have hissued := issueWalkRead_same h
    exact ⟨hissued.1, hissued.2.1, hissued.2.2⟩

@[simp] theorem grant_same (r : XReq) (s : State) : Same s (grant r s).1 := by
  unfold grant
  split
  · exact ⟨rfl, rfl, rfl⟩
  · split <;> simp [Same]

@[simp] theorem translate_same (r : XReq) (len : Nat) (s : State) : Same s (translate r len s).1 := by
  unfold translate
  dsimp only
  split
  · exact ⟨rfl, rfl, rfl⟩
  · split
    · simp [Same]
    · split <;> simp [Same]

/-- The state that a translation leaves. -/
theorem same_of_translate {r : XReq} {len : Nat} {s t : State} {x : Xlated} (h : translate r len s = (t, x)) :
    Same s t := by
  simpa [h] using translate_same r len s

/-! ### Deliveries and claims -/

@[simp] theorem paneAddress_same (tn : Nat) (c : Cls) (s : State) : Same s (paneAddress tn c s).1 := by
  unfold paneAddress
  dsimp only
  split
  · split <;> simp [Same]
  · simp [Same]

/-- The state that a Pane's translation leaves. -/
theorem same_of_paneAddress {tn : Nat} {c : Cls} {s t : State} {x : Xlated} (h : paneAddress tn c s = (t, x)) :
    Same s t := by
  simpa [h] using paneAddress_same tn c s

@[simp] theorem takeDones_same (island : Nat) (l : List (Sent Select)) (s : State) :
    Same s (takeDones island l s) := by
  fun_induction takeDones island l s with
  | case1 s tag mark tn c sn rest ih => exact Same.trans (by simp [Same, dropSelect]) ih
  | case2 => exact ⟨rfl, rfl, rfl⟩

@[simp] theorem issueBefore_same (reader : Reader) (descr : Option (Port × Nat)) (s : State) :
    Same s (issueBefore reader descr s) := by
  unfold issueBefore
  split
  · split <;> simp [Same]
  · exact ⟨rfl, rfl, rfl⟩

@[simp] theorem deliverStep_same (tn : Nat) (c : Cls) (s : State) : Same s (deliverStep tn c s) := by
  unfold deliverStep
  dsimp only
  split
  · exact ⟨rfl, rfl, rfl⟩
  · split
    · simp [Same]
    · split
      case h_1 h | h_2 h | h_3 h => simp [Same, same_of_paneAddress h]

@[simp] theorem claimAccept_same (tn : Nat) (c : Cls) (noteLost : Bool) (s : State) :
    Same s (claimAccept tn c noteLost s) := by
  unfold claimAccept
  dsimp only
  split
  · split
    · split
      · split <;> simp [Same]
      · simp [Same]
    · split <;> simp [Same]
    · split
      · simp [Same]
      · split
        · simp [Same]
        · split
          case h_1 h | h_2 h | h_3 h => simp [Same, same_of_paneAddress h]
  · exact ⟨rfl, rfl, rfl⟩

@[simp] theorem takeAnswer_same (tn : Nat) (c : Cls) (ok lost : Bool) (at' : Nat) (s : State) :
    Same s (takeAnswer tn c ok lost at' s) := by
  cases ok <;> simp [Same, takeAnswer]

@[simp] theorem answerStep_same (island fuel : Nat) (s : State) : Same s (answerStep island fuel s) := by
  induction fuel generalizing s with
  | zero => exact ⟨rfl, rfl, rfl⟩
  | succ fuel ih =>
    unfold answerStep
    split
    · split <;> simp [Same]
    · simp [Same, ih]
    · split <;> simp [Same, ih]

@[simp] theorem paneResume_same (tn : Nat) (c : Cls) (room iova : Nat) (stale : Bool) (x : Xlated) (s : State) :
    Same s (paneResume tn c room iova stale x s) := by
  unfold paneResume
  dsimp only
  split
  · exact ⟨rfl, rfl, rfl⟩
  · cases x <;> split <;> simp [Same]

@[simp] theorem resetTarget_same (barrier : Bool) (tn : Nat) (s : State) : Same s (resetTarget barrier tn s) := by
  simp [Same, resetTarget]

@[simp] theorem writeTargetReset_same (port : Port) (tn off v : Nat) (s : State) :
    Same s (writeTargetReset port tn off v s) := by
  unfold writeTargetReset
  split <;> simp [Same]

/-! ### Work queues and items -/

@[simp] theorem fetchSlot_same (q slot : Nat) (owned : Bool) (s : State) : Same s (fetchSlot q slot owned s) := by
  unfold fetchSlot
  dsimp only
  split
  · simp [Same]
  · split
    · exact ⟨rfl, rfl, rfl⟩
    · split
      · exact ⟨rfl, rfl, rfl⟩
      · split
        case h_1 h | h_2 h | h_3 h => simp [Same, same_of_translate h]

@[simp] theorem fetchAt_same (q base : Nat) (owned : Bool) (s : State) (k : Nat) :
    Same s (fetchAt q base owned s k) := by
  unfold fetchAt
  dsimp only
  split <;> simp [Same]

@[simp] theorem fetchMore_same (q : Nat) (s : State) : Same s (fetchMore q s) := by
  simp [Same, fetchMore]

@[simp] theorem sampleProd_same (q : Nat) (s : State) : Same s (sampleProd q s) := by
  simp [Same, sampleProd]

@[simp] theorem takeEntry_same (q : Nat) (s : State) : Same s (takeEntry q s) := by
  unfold takeEntry
  dsimp only
  split <;> simp [Same]

@[simp] theorem writeCompletion_same (q : Nat) (it : Item) (e : Ending) (s : State) :
    Same s (writeCompletion q it e s) := by
  unfold writeCompletion
  dsimp only
  split
  · simp [Same]
  · split
    · simp [Same]
    · split
      case h_1 h | h_2 h | h_3 h => simp [Same, same_of_translate h]

@[simp] theorem completionStepOf_same (q : Nat) (s : State) : Same s (completionStepOf q s) := by
  unfold completionStepOf
  dsimp only
  split
  · exact ⟨rfl, rfl, rfl⟩
  · split
    · exact ⟨rfl, rfl, rfl⟩
    · split <;> simp [Same]

@[simp] theorem requestRead_same (q slot : Nat) (s : State) : Same s (requestRead q slot s) := by
  unfold requestRead
  dsimp only
  split
  · exact ⟨rfl, rfl, rfl⟩
  · split
    · simp [Same]
    · split
      case h_1 h | h_2 h | h_3 h => simp [Same, same_of_translate h]

@[simp] theorem storeStep_same (q : Nat) (it : Item) (s : State) : Same s (storeStep q it s) := by
  unfold storeStep
  dsimp only
  split
  · simp [Same]
  · split
    · simp [Same]
    · split
      · simp [Same]
      · split
        case h_1 h | h_2 h | h_3 h => simp [Same, same_of_translate h]

@[simp] theorem batchStep_same (q : Nat) (it : Item) (s : State) : Same s (batchStep q it s) := by
  unfold batchStep
  split <;> simp [Same]

@[simp] theorem swingStep_same (q : Nat) (it : Item) (s : State) : Same s (swingStep q it s) := by
  simp [Same, swingStep]

@[simp] theorem ipiStep_same (q : Nat) (it : Item) (s : State) : Same s (ipiStep q it s) := by
  unfold ipiStep
  split <;> simp [Same]

@[simp] theorem afterRecords_same (q slot : Nat) (s : State) : Same s (afterRecords q slot s) := by
  unfold afterRecords
  split <;> simp [Same]

/-! ### The Ledger -/

@[simp] theorem wearing_mem (island : Nat) (f : Ledger → Ledger) (l : Ledger) : (wearing island f l).mem = (f l).mem := by
  simp only [wearing]
  split <;> rfl

@[simp] theorem persisted_same (p : Piece) (s : State) : Same s (persisted p s) := by
  simp [Same, persisted]

@[simp] theorem persistAll_same (s : State) : Same s (persistAll s) :=
  Same.trans ⟨rfl, rfl, rfl⟩ (foldl_same (fun s p => persisted p s) (fun s p => persisted_same p s) _ _)

@[simp] theorem failFences_same (dropped : List Piece) (s : State) : Same s (failFences dropped s) := by
  simp [Same, failFences]

/-! ### The engine -/

@[simp] theorem itemData_same (q : Nat) (it : Item) (bytes : List Byte) (s : State) :
    Same s (itemData q it bytes s) := by
  unfold itemData
  dsimp only
  split
  · simp [Same]
  · exact Same.trans (foldl_pair_same _ (batchRecord_same q it.slot) _ (s, true)) (afterRecords_same ..)
  · exact Same.trans (foldl_pair_same _ (stageRecord_same q it.slot) _ (s, true)) (afterRecords_same ..)
  · simp [Same]
  · exact ⟨rfl, rfl, rfl⟩

/-- The step of an item whose read has ended takes its data and nothing else. -/
theorem serveStep_same_of_arrived {it : Item} {bytes : List Byte} (h : it.wait = .arrived bytes) (q : Nat) (s : State) :
    Same s (serveStep q it s) :=
  onIslands_same _ _ s fun t => guarded_same _ t fun u => by simp [Same, serveItem, h]

@[simp] theorem readGoesOn_same (q : Nat) (s : State) : Same s (readGoesOn q s) := by
  unfold readGoesOn
  split
  · split
    · exact serveStep_same_of_arrived ‹_› q s
    · exact ⟨rfl, rfl, rfl⟩
  · exact ⟨rfl, rfl, rfl⟩

@[simp] theorem itemReadArrives_same (q : Fin 256) (result : HostRead) (s : State) :
    Same s (itemReadArrives q result s) := by
  simp [Same, itemReadArrives]

/-! ### The reads of walks -/

@[simp] theorem resumeUse_same (r : XReq) (stale : Bool) (x : Xlated) (s : State) :
    Same s (resumeUse r stale x s) := by
  unfold resumeUse
  split <;> simp [Same]

@[simp] theorem grantWaiting_same (island n : Nat) (s : State) : Same s (grantWaiting island n s) := by
  induction n generalizing s with
  | zero => exact ⟨rfl, rfl, rfl⟩
  | succ n ih =>
    unfold grantWaiting
    dsimp only
    split
    · exact ⟨rfl, rfl, rfl⟩
    · split
      · exact ⟨rfl, rfl, rfl⟩
      · simp [Same, ih]

@[simp] theorem walkReadEnds_same (island id : Nat) (result : HostRead) (s : State) :
    Same s (walkReadEnds island id result s) := by
  unfold walkReadEnds
  split
  · exact ⟨rfl, rfl, rfl⟩
  · dsimp only
    split <;> simp [Same]

@[simp] theorem walkReadArrives_same (island : Fin 4) (walk : Nat) (result : HostRead) (s : State) :
    Same s (walkReadArrives island walk result s) := by
  unfold walkReadArrives
  split <;> simp [Same]

@[simp] theorem readTimesOut_same (read : HostReadId) (s : State) : Same s (readTimesOut read s) := by
  cases read <;> simp [Same, readTimesOut]

/-! ### Register reads and partial writes -/

@[simp] theorem issueAllOf_same (p : Port) (f : LinkReq → Bool) (l : List LinkReq) (s : State) :
    Same s (issueAllOf p f l s) := by
  induction l generalizing s with
  | nil => exact ⟨rfl, rfl, rfl⟩
  | cons r rs ih =>
    unfold issueAllOf
    split
    · simp [Same, ih]
    · exact ⟨rfl, rfl, rfl⟩

theorem afterWrites_same {f : State → State} (hf : ∀ s, Same s (f s)) (r : Reader) (a : Access) (g : Reg)
    (s : State) :
    Same s (afterWrites r a g f s) := by
  unfold afterWrites
  dsimp only
  split
  · exact hf s
  · split <;> simp [Same, hf]

@[simp] theorem regPartial_same (port : Port) (w : Window) (off : Nat) (s : State) :
    Same s (regPartial port w off s) :=
  hostWrite_same _ _ _ _ _ s fun t => by split <;> simp [Same]

/-! ### Durability -/

@[simp] theorem mirrorStep_same (channel line : Nat) (check : WriteCheck) (s : State) :
    Same s (mirrorStep channel line check s) := by
  simp [Same, mirrorStep]

@[simp] theorem writeStripes_same (image : Durable) (lines : List Line) (s : State) :
    Same s (writeStripes image lines s) := by
  simp [Same, writeStripes]

@[simp] theorem commitRoot_same (kind : RootKind) (epoch : Nat) (image : Durable) (lines : List Line) (s : State) :
    Same s (commitRoot kind epoch image lines s) := by
  simp [Same, commitRoot]

@[simp] theorem enterScan_same (s : State) : Same s (enterScan s) := by
  simp [Same, enterScan]

@[simp] theorem finishCheckpoint_same (c : Ckpt) (s : State) : Same s (finishCheckpoint c s) := by
  simp [Same, finishCheckpoint]

@[simp] theorem rootStep_same (s : State) : Same s (rootStep s) :=
  onIslands_same _ _ s fun t => by split <;> simp [Same]

@[simp] theorem mirrorOff_same (s : State) : Same s (mirrorOff s) := by
  simp [Same, mirrorOff]

@[simp] theorem setMirror_same (b : Bool) (s : State) : Same s (setMirror b s) := by
  simp [Same, setMirror]

@[simp] theorem capture_same (i : StormInput) (s : State) : Same s (capture i s).1 := by
  have hlines := foldl_pair_same (captureLine i.failed) (captureLine_same i.failed)
  refine Same.trans ((writeContexts_same s.dur s).trans (hlines (i.failed.filter fun la => (lineOf la).isContext) (writeContexts s.dur s, []))) ?_
  unfold capture
  apply foldl_pair_same
  exact fun x stripe => hlines stripe x

@[simp] theorem stormRoot_same (i : StormInput) (s : State) : Same s (stormRoot i s) := by
  simp [Same, stormRoot]

@[simp] theorem stormSequence_same (i : StormInput) (s : State) : Same s (stormSequence i s) := by
  simp [Same, stormSequence]

@[simp] theorem recoverTargets_same (s : State) : Same s (recoverTargets s) := by
  simp [Same, recoverTargets]

@[simp] theorem restoreRoot_same (b : BootInput) (c : Chosen) (p : Place) (s : State) :
    Same s (restoreRoot b c p s) := by
  simp [Same, restoreRoot]

@[simp] theorem restoreCommit_same (s : State) : Same s (restoreCommit s) := by
  unfold restoreCommit
  split
  · simp [Same]
  · split <;> simp [Same]

/-! ### Clocks, samples and ports -/

@[simp] theorem startSampling_same (s : State) : Same s (startSampling s) := by
  simp [Same, startSampling]

@[simp] theorem outboundStep_same (port : Port) (s : State) : Same s (outboundStep port s) :=
  onIslands_same _ _ s fun t => by
    split
    · exact ⟨rfl, rfl, rfl⟩
    · split <;> simp [Same]

@[simp] theorem resetPortTargets_same (p : Port) (s : State) : Same s (resetPortTargets p s) := by
  simp [Same, resetPortTargets]

@[simp] theorem portReset_same (p : Port) (s : State) : Same s (portReset p s) := by
  simp [Same, portReset]

@[simp] theorem linkGoesDown_same (p : Port) (s : State) : Same s (linkGoesDown p s) := by
  simp [Same, linkGoesDown]

/-! ### Debug -/

@[simp] theorem extest_same (i : TapInstr) (s : State) : Same s (extest i s) := by
  simp [Same, extest]

@[simp] theorem dapScanEnter_same (s : State) : Same s (dapScanEnter s) := by
  unfold dapScanEnter
  split <;> simp [Same]

end Sys2Proof.Machine
end

section
/-!
The invariant of the byte memories, and what the combinators of the model keep of it.
-/

namespace Sys2Proof.Machine

open Sys2Proof


/-- The byte memories that every step keeps in canonical form: the Ledger and the staging buffer of images. -/
abbrev Canonical (s : State) : Prop := Memory.wf s.ledger.mem = true ∧ Memory.wf s.image.buffer = true

/-- A state transformer keeps those memories in canonical form. -/
def KeepsCanonical (f : State → State) : Prop := ∀ s, Canonical s → Canonical (f s)

/-- What leaves the stores as they are leaves them canonical. -/
theorem Canonical.same {s t : State} (hs : Canonical s) (h : Same s t) : Canonical t := by
  obtain ⟨-, hmem, hbuffer⟩ := h
  rwa [Canonical, hmem, hbuffer]

section
variable {f : State → State}

theorem KeepsCanonical.of_same (hf : ∀ s, Same s (f s)) : KeepsCanonical f := fun s hs => hs.same (hf s)

theorem KeepsCanonical.foldl {α : Type} {f : State → α → State} (hf : ∀ a, KeepsCanonical (f · a)) (l : List α) :
    KeepsCanonical fun s => l.foldl f s := fun _ hs =>
  List.foldlRecOn (motive := fun t => Canonical t) l f hs fun t ht a _ => hf a t ht

/-! ### The combinators -/

theorem KeepsCanonical.underCut (hf : KeepsCanonical f) (c : Ckpt) : KeepsCanonical (underCut c f) := fun s hs => hf s hs

theorem KeepsCanonical.crossing (hf : KeepsCanonical f) (ids : List Nat) : KeepsCanonical (crossing ids f) := fun s hs => by
  unfold Machine.crossing
  split
  · exact hf s hs
  · split
    · exact hf _ (hs.same (by simp [Same]))
    · exact hf.underCut _ s hs

theorem KeepsCanonical.receiving {α : Type} (hf : KeepsCanonical f) (x : Sent α) (ids : List Nat) : KeepsCanonical (receiving x ids f) :=
  fun s hs => by
    unfold Machine.receiving
    split
    · exact hf s hs
    · split
      · exact hf _ (hs.same (by simp [Same]))
      · exact hf.underCut _ s hs

theorem KeepsCanonical.handshake (hf : KeepsCanonical f) (ids : List Nat) : KeepsCanonical (handshake ids f) := fun s hs => by
  unfold Machine.handshake
  split
  · exact hs
  · split
    · exact hs
    · split
      · exact hs.same (by simp [Same])
      · exact hf _ (hs.same (by simp [Same]))

theorem KeepsCanonical.onIslands (hf : KeepsCanonical f) (ids : List Nat) : KeepsCanonical (onIslands ids f) := (hf.crossing ids).handshake ids

theorem KeepsCanonical.onArrival (hf : KeepsCanonical f) (ids : List Nat) : KeepsCanonical (onArrival ids f) := fun s hs => by
  unfold Machine.onArrival
  split
  · exact hs
  · split
    · exact hs
    · exact hf.crossing ids _ (hs.same (by simp [Same]))

theorem KeepsCanonical.guarded (hf : KeepsCanonical f) : KeepsCanonical (guarded f) := fun s hs => by
  unfold Machine.guarded
  split
  · exact hf s hs
  · exact hs.same (by simp [Same])

theorem KeepsCanonical.notifyHeld (hf : KeepsCanonical f) (bank : Nat) : KeepsCanonical (notifyHeld bank f) := fun s hs => by
  simp only [Machine.notifyHeld]
  split
  · exact hs
  · exact hf s hs

theorem KeepsCanonical.bankApply {α : Type} (hf : KeepsCanonical f) (bank : Nat) (x : Sent α) : KeepsCanonical (bankApply bank x f) :=
  ((hf.receiving x [idBank bank]).notifyHeld bank).guarded

theorem KeepsCanonical.readArrives (hf : KeepsCanonical f) (p : Port) (a : Access) (ids : List Nat) : KeepsCanonical (readArrives p a ids f) :=
  fun s hs => by
    unfold Machine.readArrives
    split
    · exact hs.same (by simp [Same])
    · exact hf.onArrival ids s hs

theorem KeepsCanonical.hostAccess {zero : State → State} (hzero : KeepsCanonical zero) (hf : KeepsCanonical f) (port : Port) (a : Access)
    (always : Bool) (ids : List Nat) : KeepsCanonical (hostAccess port a always ids zero f) := fun s hs => by
  unfold Machine.hostAccess
  cases accessGate s port always ids with
  | unanswered => exact hs
  | zero => exact hzero s hs
  | notReady => exact hzero _ (hs.same (by simp [Same]))
  | halted => exact hzero _ (hs.same (by simp [Same]))
  | held => exact hs.same (by simp [Same])
  | pass =>
    dsimp only
    split
    · exact hs.same (by simp [Same])
    · exact hf s hs

theorem KeepsCanonical.hostWrite (hf : KeepsCanonical f) (port : Port) (a : Access) (always : Bool) (ids : List Nat) :
    KeepsCanonical (hostWrite port a always ids f) := fun s hs => by
  have hpass : KeepsCanonical fun s =>
      let s := s.wakeForWrite ids
      let s' := Machine.crossing ids f s
      if (heldBanks s s').isEmpty then s' else (throttleEngage (heldBanks s s') s).hold port.req a := fun s hs => by
    dsimp only
    split
    · exact hf.crossing ids _ (hs.same (by simp [Same]))
    · exact hs.same (by simp [Same])
  unfold Machine.hostWrite
  split
  · exact hs
  · exact KeepsCanonical.hostAccess (fun _ h => h) hpass port a always ids s hs

theorem KeepsCanonical.writeObject (hf : KeepsCanonical f) (r : Req) (space addr : Nat) (image : Bool) (o : Obj) (e : Nat)
    (bs : List Byte) : KeepsCanonical fun s => (writeObject r space addr image f o e bs s).1 := fun s hs => by
  dsimp only [Machine.writeObject]
  split
  · exact hs.same (by simp [Same])
  · simpa [Canonical, Same] using hf s hs

theorem KeepsCanonical.whenServing (hf : KeepsCanonical f) : KeepsCanonical (whenServing f) := fun s hs => by
  unfold Machine.whenServing
  split
  · exact hf s hs
  · exact hs

theorem KeepsCanonical.ownerWrite (hf : KeepsCanonical f) (r : Req) (addr : Nat) : KeepsCanonical (ownerWrite r addr f) := fun s hs => by
  unfold Machine.ownerWrite
  split
  · exact hf _ (hs.same (by simp [Same]))
  · exact hs.same (by simp [Same])

theorem KeepsCanonical.keeperResetWrite (hf : KeepsCanonical f) (r : Req) (mode : Byte) (key : BitVec 16) :
    KeepsCanonical (keeperResetWrite r mode key f) := fun s hs => by
  unfold Machine.keeperResetWrite
  split
  · exact hs
  · exact hf.writeObject _ _ _ _ _ _ _ _ (hs.same (by simp [Same]))

theorem KeepsCanonical.dapCommand (hf : KeepsCanonical f) (op : Nat) : KeepsCanonical (dapCommand op f) := fun s hs => by
  unfold Machine.dapCommand
  split
  · exact hs
  · exact hf _ hs

theorem KeepsCanonical.withSignature (hf : KeepsCanonical f) (r : Req) (action arg : Nat) : KeepsCanonical (withSignature r action arg f) :=
  fun s hs => by
    unfold Machine.withSignature
    dsimp only
    split
    · exact hs
    · split
      · exact hf _ hs
      · exact hs

theorem KeepsCanonical.onSideband (hf : KeepsCanonical f) : KeepsCanonical (onSideband f) := fun s hs => by
  unfold Machine.onSideband
  split
  · exact hf _ (hs.same (by simp [Same]))
  · exact hs

theorem KeepsCanonical.mirRun {f : MirReq → State → State} (hf : ∀ q, KeepsCanonical (f q)) (command : Nat) :
    KeepsCanonical (mirRun command f) := fun s hs => by
  unfold Machine.mirRun
  split
  · exact hs
  · split
    · exact hf _ s hs
    · exact hs

/-- The next state of a command has what its effect keeps. -/
theorem canonical_of_answer {s t : State} (h : answer s f = .next t) (hs : Canonical s) (hf : KeepsCanonical f) : Canonical t := by
  obtain rfl := Host.Outcome.next.inj h
  exact hf (cleared s) hs

end

/-! ### The store -/

end Sys2Proof.Machine
end

section
/-!
The operations that write a byte memory, or let the pieces of the ports' streams flow, keep it canonical.
-/

namespace Sys2Proof.Machine

open Sys2Proof

/-! ### The Ledger -/

theorem KeepsCanonical.comp {f g : State → State} (hg : KeepsCanonical g) (hf : KeepsCanonical f) :
    KeepsCanonical fun s => g (f s) := fun s hs => hg _ (hf s hs)

/-- A change of the Ledger that keeps its bytes canonical keeps the stores canonical. -/
theorem canonical_modLedger {f : Ledger → Ledger} (hf : ∀ l, Memory.wf l.mem = true → Memory.wf (f l).mem = true) :
    KeepsCanonical (State.modLedger · f) := fun _ hs => ⟨hf _ hs.1, hs.2⟩

theorem applyPiece_wf (p : Piece) (l : Ledger) (hl : Memory.wf l.mem = true) : Memory.wf (applyPiece p l).mem = true := by
  have hwritten := Memory.writeMasked_wf p.data p.enables l.mem (64 * p.line) hl
  unfold applyPiece
  split
  · split
    · exact hwritten
    · exact hl
  · exact hwritten

theorem undoPiece_wf (p : Piece) (l : Ledger) (hl : Memory.wf l.mem = true) : Memory.wf (undoPiece p l).mem = true :=
  Memory.writeN_wf p.old l.mem (64 * p.line) hl

theorem flowPort_canonical (port : Port) (n : Nat) : KeepsCanonical (flowPort port n) := fun s hs => by
  fun_induction flowPort port n s with
  | case1 => exact hs
  | case2 => exact hs
  | case3 n s p rest _ _ ih =>
    have hwoken : Canonical (s.wakeUp (idLedger (ledgerIsland p.line))) := hs.same (by simp [Same])
    exact ih ⟨applyPiece_wf p _ hwoken.1, hwoken.2⟩
  | case4 => exact hs

theorem ledgerFlow_canonical : KeepsCanonical ledgerFlow := fun s hs => by
  have hflowed := flowPort_canonical .b s.ledger.stream.length _ (flowPort_canonical .a s.ledger.stream.length s hs)
  simpa [ledgerFlow, Canonical, Same] using hflowed

theorem enterStream_canonical (ps : List Piece) : KeepsCanonical (enterStream ps) := fun s hs =>
  ledgerFlow_canonical _ (hs.same (by simp [Same]))

theorem persistStep_canonical (island : Nat) : KeepsCanonical (persistStep island) := fun s hs => by
  unfold persistStep
  split
  · exact hs
  · next p rest _ =>
    have hflowed := ledgerFlow_canonical (persisted p (s.modLedger fun l => { l with inbox := rest }))
      (hs.same (by simp [Same]))
    exact hflowed.same (by simp [Same])

theorem fenceRead_canonical (r : Reader) : KeepsCanonical (fenceRead r) := by
  refine KeepsCanonical.hostAccess (fun s hs => hs.same (by simp [Same])) (fun s hs => ?_) _ _ _ _
  have hflowed := ledgerFlow_canonical
    (s.modLedger fun l => { l with fenceCount := l.fenceCount.set r.port (satAdd 64 (l.fenceCount.get r.port) 1) })
    (hs.same (by simp [Same]))
  exact hflowed.same (by simp [Same])

theorem settleUnlocked_canonical : KeepsCanonical settleUnlocked := fun s hs => by
  refine KeepsCanonical.foldl (fun p s hs => ?_) _ _ (canonical_modLedger (fun l hl => ?_) s hs)
  · dsimp only
    split
    · have happlied := canonical_modLedger (applyPiece_wf p) s hs
      exact happlied.same (by simp [Same])
    · exact hs.same (by simp [Same])
  · exact List.foldlRecOn (motive := fun l => Memory.wf l.mem = true) _ _ hl fun l hl p _ => undoPiece_wf p l hl

/-! ### Items of work -/

theorem appendStep_canonical (q : Nat) (it : Item) : KeepsCanonical (appendStep q it) := fun s hs => by
  unfold appendStep
  dsimp only
  split
  · exact hs.same (by simp [Same])
  · split
    · split
      · exact hs.same (by simp [Same])
      · exact hs.same (by simp [Same])
    · split
      · exact hs.same (by simp [Same])
      · exact enterStream_canonical _ _ (hs.same (by simp [Same]))

theorem kindStep_canonical (q : Nat) (it : Item) : KeepsCanonical (kindStep q it) := fun s hs => by
  unfold kindStep
  split
  case h_3 => split <;> exact hs.same (by simp [Same])
  case h_6 => exact appendStep_canonical q it s hs
  all_goals exact hs.same (by simp [Same])

theorem serveItem_canonical (q : Nat) (it : Item) : KeepsCanonical (serveItem q it) := fun s hs => by
  unfold serveItem
  split
  · exact hs.same (by simp [Same])
  · split
    · exact kindStep_canonical q it s hs
    · exact hs.same (by simp [Same])
  · split
    · exact hs.same (by simp [Same])
    · split
      · exact hs.same (by simp [Same])
      · split
        · dsimp only
          split
          · exact hs.same (by simp [Same])
          · exact kindStep_canonical q it.started _ (hs.same (by simp [Same]))
        · exact kindStep_canonical q it s hs

theorem serveStep_canonical (q : Nat) (it : Item) : KeepsCanonical (serveStep q it) := fun s hs =>
  (serveItem_canonical q it).guarded.onIslands _ s hs

theorem serveKind_canonical (kind q : Nat) : KeepsCanonical (serveKind kind q) := fun s hs => by
  unfold serveKind
  split
  · split
    · split
      · exact serveStep_canonical q _ s hs
      · exact hs
    · exact hs
  · exact hs

/-! ### Halts and grants -/

theorem resumeHalts_canonical : KeepsCanonical resumeHalts := fun s hs =>
  ledgerFlow_canonical _ (hs.same (by simp [Same]))

theorem endGrants_canonical : KeepsCanonical endGrants := fun s hs => resumeHalts_canonical s hs

theorem setGrant_canonical (r : Req) (level : Nat) : KeepsCanonical (setGrant r level) := fun s hs => by
  have hresumed := resumeHalts_canonical s hs
  unfold setGrant
  dsimp only
  split
  · exact hresumed.same (by simp [Same])
  · exact hs.same (by simp [Same])

theorem debugGrant_canonical (r : Req) (level : Nat) : KeepsCanonical (debugGrant r level) := fun s hs => by
  have hset := setGrant_canonical r level
  unfold debugGrant
  split
  · exact hset s hs
  · split
    · exact hs.same (by simp [Same])
    · exact hset s hs
    · exact hset.withSignature r 3 level s hs

theorem dapRelease_canonical : KeepsCanonical dapRelease := fun s hs => resumeHalts_canonical s hs

theorem transitionRecord_canonical : KeepsCanonical transitionRecord := fun s hs => by
  unfold transitionRecord
  split
  · exact hs
  · next r target cold _ =>
    have hended := endGrants_canonical { s with nv := { s.nv with recording := none, sec := target } } hs
    dsimp only
    split
    · exact hs
    · exact hended.same (by simp [Same])

theorem setState_canonical (r : Req) (arg : Nat) : KeepsCanonical (setState r arg) := fun s hs => by
  have hdone := transitionRecord_canonical s hs
  simp only [setState]
  split
  · exact hdone.same (by simp [Same])
  · next signed cold _ =>
    have hrecord : KeepsCanonical fun s =>
        { s with nv := { s.nv with recording := some (r, SecState.at arg, cold) } } := fun _ h => h
    split
    · exact hdone.same (by simp [Same])
    · split
      · exact hrecord.withSignature r 2 arg _ hdone
      · exact hrecord _ hdone

theorem authRequest_canonical (r : Req) (action arg : Nat) : KeepsCanonical (authRequest r action arg) := fun s hs => by
  unfold authRequest
  split
  · exact hs.same (by simp [Same])
  · exact setState_canonical r arg s hs
  · exact debugGrant_canonical r arg s hs
  · exact hs

theorem lockdownNow_canonical (cause zeroize : Nat) : KeepsCanonical (lockdownNow cause zeroize) := fun _ hs =>
  endGrants_canonical _ hs

@[simp] theorem denyAppend_same (s : State) (p : Piece) : Same s (denyAppend s p) := by
  unfold denyAppend
  split <;> simp [Same]

@[simp] theorem closeLedger_same (s : State) : Same s (closeLedger s) := by
  have hended : Same s (fenceReadsDone (persistAll s)) := by simp [Same]
  have hdenied : Same s (denyStream .b (denyStream .a (fenceReadsDone (persistAll s)))) :=
    hended.trans (by simp [Same])
  have hemptied := hdenied.trans (foldl_same denyAppend denyAppend_same (fenceReadsDone (persistAll s)).ledger.stream _)
  unfold closeLedger
  dsimp only
  refine Same.trans ?_ ((failFences_same _ _).trans (fenceReadsDone_same _))
  exact hemptied

theorem tamperResponse_canonical (cause : Nat) : KeepsCanonical (tamperResponse cause) := fun s hs => by
  have hlocked := fun zeroize => lockdownNow_canonical cause zeroize s hs
  by_cases hnone : s.nv.tamperAction = 0
  · rw [tamperResponse_of_none cause hnone]
    exact (hlocked 0).same (by simp [Same])
  · by_cases hdata : s.nv.tamperAction = 1
    · rw [tamperResponse_of_data cause hdata]
      exact (hlocked 2).same (by simp [Same])
    · rw [tamperResponse_of_roots cause hnone hdata]
      exact (hlocked 2).same (by simp [Same, coreClosed])

/-! ### Stops, Storm sequences and the Keeper's release -/

theorem coreOff_canonical : KeepsCanonical coreOff := fun _ hs => ⟨hs.1, rfl⟩

theorem freeBytes_canonical (a : Nat) (es : List Bool) : KeepsCanonical (freeBytes a es) := fun s hs => by
  fun_induction freeBytes a es s with
  | case1 => exact hs
  | case2 a e es s ih =>
    refine ih ?_
    split
    · exact ⟨Memory.write_wf _ a (freeByte s) hs.1, hs.2⟩
    · exact hs

theorem loseInbox_canonical : KeepsCanonical loseInbox := fun s hs =>
  KeepsCanonical.foldl (f := fun s (p : Piece) => freeBytes (64 * p.line) p.enables s)
    (fun p => freeBytes_canonical (64 * p.line) p.enables) s.ledger.inbox s hs

theorem stopWithoutCut_canonical : KeepsCanonical stopWithoutCut := fun s hs =>
  coreOff_canonical _ (loseInbox_canonical s hs)

theorem keeperDiscard_canonical (cause : Nat) : KeepsCanonical (keeperDiscard cause) := fun s hs => by
  unfold keeperDiscard
  split
  · exact hs
  · split
    · exact hs
    · exact coreOff_canonical (dropStreams (clearRdy (fenceReadsDone (persistAll s))))
        (hs.same (by simp [Same]))

theorem runStorm_canonical (i : StormInput) : KeepsCanonical (runStorm i) := fun s hs => by
  have hstopped := coreOff_canonical (stormSequence i s) (hs.same (by simp [Same]))
  exact hstopped

theorem stormOrStop_canonical (i : StormInput) : KeepsCanonical (stormOrStop i) := fun s hs => by
  unfold stormOrStop
  split
  · exact coreOff_canonical s hs
  · split
    · exact stopWithoutCut_canonical s hs
    · exact runStorm_canonical i s hs

theorem keeperCapture_canonical (i : StormInput) : KeepsCanonical (keeperCapture i) := fun s hs => by
  have hstopped := runStorm_canonical i s hs
  unfold keeperCapture
  split
  · exact hstopped
  · exact keeperDiscard_canonical 4 s hs

theorem lockStop_canonical : KeepsCanonical lockStop := fun s hs => by
  have hsettled := settleUnlocked_canonical (dropStreams (clearRdy (fenceReadsDone (persistAll s))))
    (hs.same (by simp [Same]))
  unfold lockStop
  split
  · exact hs
  · exact hsettled

theorem lockReturns_canonical (i : Nat) : KeepsCanonical (lockReturns i) := fun s hs => by
  have hstopped := lockStop_canonical s hs
  unfold lockReturns
  dsimp only
  split
  · exact hstopped
  · exact hs

theorem lockTimesOut_canonical (i : Nat) : KeepsCanonical (lockTimesOut i) := fun s hs => by
  unfold lockTimesOut
  dsimp only
  split
  · exact hs
  · exact lockStop_canonical _ (hs.same (by simp [Same]))

end Sys2Proof.Machine
end

section
/-!
The Keeper's release, dictionary and register accesses, and what waits, keep the byte memories canonical.
-/

namespace Sys2Proof.Machine

open Sys2Proof

/-! ### The Keeper's release -/

theorem bootStore_canonical (b : BootInput) : KeepsCanonical (bootStore b) := fun s hs => by
  have hread : Canonical (storeRead b s) := by
    unfold storeRead
    split <;> exact hs
  have hmarked : Canonical (markRecorded (storeRead b s)) := by
    unfold markRecorded
    split <;> exact hread
  rw [bootStore_eq]
  unfold zeroizationBegun
  dsimp only
  split <;> split <;> exact hmarked

theorem restoreState_canonical (b : BootInput) : KeepsCanonical (restoreState b) := fun s hs => by
  unfold restoreState
  dsimp only
  split
  · exact hs.same (by simp [Same])
  · exact hs

theorem release_canonical (b : BootInput) : KeepsCanonical (release b) := fun s hs => by
  unfold release
  dsimp only
  have hstart : ∀ t, Canonical t → Canonical (restoreState b (bootStore b t)) := fun t ht =>
    restoreState_canonical b _ (bootStore_canonical b t ht)
  split
  · exact hstart _ (coreOff_canonical { keeperResetClears s with conduct := ⟨.initial, .initial, .initial⟩ } hs)
  · exact hstart _ (coreOff_canonical s hs)

/-! ### Dictionary writes -/

theorem stageData_canonical (r : Req) (bs : List Byte) : KeepsCanonical (stageData r bs) := fun s hs =>
  ⟨hs.1, Memory.writeN_wf (bytesAt bs 0 64) s.image.buffer s.image.offset hs.2⟩

theorem writeLow_canonical (r : Req) (o : Obj) (bs : List Byte) : KeepsCanonical (writeLow r o bs) := fun s hs => by
  unfold writeLow
  split
  case h_6 =>
    unfold writeKeeperReset
    split
    · exact keeperCapture_canonical _ _ (hs.same (by simp [Same]))
    · exact keeperDiscard_canonical 5 s hs
  case h_7 =>
    dsimp only
    split <;> exact hs.same (by simp [Same])
  all_goals exact hs.same (by simp [Same])

theorem writeHigh_canonical (r : Req) (o : Obj) (bs : List Byte) : KeepsCanonical (writeHigh r o bs) := fun s hs => by
  unfold writeHigh
  split
  case h_8 | h_9 | h_10 | h_11 => exact hs
  case h_14 => exact authRequest_canonical _ _ _ s hs
  all_goals exact hs.same (by simp [Same])

theorem applyObject_canonical (r : Req) (image : Bool) (o : Obj) (e : Nat) (bs : List Byte) :
    KeepsCanonical (applyObject r image o e bs) := fun s hs => by
  unfold applyObject
  split
  · exact writeLow_canonical r o bs s hs
  · split
    · exact hs.same (by simp [Same])
    · split
      · exact hs.same (by simp [Same])
      · exact writeHigh_canonical r o bs s hs

theorem applyAny_canonical (r : Req) (o : Obj) (e : Nat) (bs : List Byte) : KeepsCanonical (applyAny r o e bs) :=
  fun s hs => by
    unfold applyAny
    split
    · exact stageData_canonical r bs s hs
    · exact hs
    · exact hs.same (by simp [Same])
    · exact applyObject_canonical r false o e bs s hs

theorem dictWrite_canonical (r : Req) (index sub e : Nat) (data : List Byte) :
    KeepsCanonical fun s => (dictWrite r index sub e data s).1 := fun s hs => by
  dsimp only [dictWrite]
  split
  · exact hs
  · next o _ =>
    split
    · exact hs
    · split
      · exact hs
      · exact (applyAny_canonical r o e _).writeObject _ _ _ _ _ _ _ s hs

theorem dictCommand_canonical (r : Req) (o : Obj) (e : Nat) (bs : List Byte) : KeepsCanonical (dictCommand r o e bs) :=
  fun s hs => by
    unfold dictCommand
    extract_lets ids wait woken written
    have hwoken : Canonical woken := hs.same (by simp [Same, woken])
    split
    · exact hs
    · split
      · exact hs.same (by simp [Same])
      · split
        · exact (dictWrite_canonical r o.index o.sub e bs).crossing _ _ hwoken
        · exact hwoken.same (by simp [Same])

/-! ### The apply of a configuration image -/

theorem writeElement_canonical (r : Req) (k : Nat) (rec : ImgRec) (n : Nat) : KeepsCanonical (writeElement r k rec n) :=
  fun s hs => by
    unfold writeElement
    split
    · exact hs.same (by simp [Same])
    · next o _ =>
      dsimp only
      split
      · exact hs.same (by simp [Same])
      · refine KeepsCanonical.crossing (fun s hs => ?_) _ _ (hs.same (by simp [Same]))
        simpa [Canonical] using (applyObject_canonical r true o _ _).writeObject _ _ _ _ _ _ _ s hs

theorem applyNext_canonical : KeepsCanonical applyNext := fun s hs => by
  unfold applyNext
  split
  · exact hs
  · dsimp only
    split
    · exact hs
    · split
      · exact hs
      · split
        · exact writeElement_canonical _ _ _ _ s hs
        · exact hs.same (by simp [Same])

theorem applyRest_canonical : KeepsCanonical applyRest := fun s hs => KeepsCanonical.foldl (fun _ => applyNext_canonical) _ s hs

theorem imageApplied_canonical : KeepsCanonical imageApplied := fun s hs => by
  have hrest := applyRest_canonical s hs
  unfold imageApplied
  dsimp only
  split
  · exact hs
  · split
    · exact hrest
    · exact hrest.same (by simp [Same])

theorem imageTick_canonical : KeepsCanonical imageTick := fun s hs => by
  unfold imageTick
  split
  · exact applyNext_canonical s hs
  · exact hs

/-! ### The Hatch -/

theorem hatchOutcome_canonical (r : Req) : KeepsCanonical fun s => (hatchOutcome r s).1 := fun s hs => by
  dsimp only [hatchOutcome]
  split
  · exact hs.same (by simp [Same])
  · split
    · have hwritten := dictWrite_canonical r (hatchIndex s.hatch) (hatchSub s.hatch) s.hatch.element.toNat
        (hatchBytes s.hatch) s hs
      split
      · exact hwritten.same (by simp [Same])
      · exact hwritten
    · split <;> exact hs.same (by simp [Same])

theorem hatchRun_canonical (r : Req) : KeepsCanonical (hatchRun r) := fun s hs => by
  have hdone := hatchOutcome_canonical r s hs
  rw [hatchRun_eq]
  split
  · exact hdone
  · exact hdone

theorem hatchPerform_canonical : KeepsCanonical hatchPerform := fun s hs => by
  unfold hatchPerform
  split
  · exact hs
  · next r _ =>
    extract_lets ids woken
    split
    · exact hs
    · refine (hatchRun_canonical r).guarded.crossing _ _ ?_
      unfold woken
      split <;> exact hs.same (by simp [Same])

theorem hatchCommand_canonical (opcode : Nat) : KeepsCanonical (hatchCommand opcode) := fun s hs =>
  hatchPerform_canonical _ (hs.same (by simp [Same]))

theorem hatchComplete_canonical : KeepsCanonical hatchComplete := fun s hs => by
  have hperformed := hatchPerform_canonical s hs
  unfold hatchComplete
  dsimp only
  split
  · exact hs
  · split
    · exact hperformed
    · exact hperformed.same (by simp [Same])

theorem writeHatchCmd_canonical (r : Req) (v : Nat) : KeepsCanonical (writeHatchCmd r v) :=
  KeepsCanonical.ownerWrite (fun s hs => by
    split
    · exact hs.same (by simp [Same])
    · exact hatchCommand_canonical v s hs) r 0x104C

theorem mirHatch_canonical (q : MirReq) (opcode : Nat) : KeepsCanonical (mirHatch q opcode) := fun s hs =>
  hatchCommand_canonical opcode _ (hs.same (by simp [Same]))

theorem mirPublish_canonical {s : State} (opcode : Nat) (q : MirReq) (hs : Canonical s) :
    Canonical (mirPublish (if mirUnderway s then s else mirHatch q opcode s)) := by
  refine hatchComplete_canonical _ ?_
  split
  · exact hs
  · exact mirHatch_canonical q opcode s hs

theorem mirRead_canonical (opcode : Nat) (q : MirReq) : KeepsCanonical (mirRead opcode q) := fun s hs => by
  unfold mirRead
  split
  · exact hs
  · extract_lets published
    have hpublished : Canonical published := mirPublish_canonical opcode q hs
    split
    · exact hpublished.same (by simp [Same])
    · exact hpublished

theorem mirSet_canonical (q : MirReq) : KeepsCanonical (mirSet q) := fun s hs => by
  unfold mirSet
  split
  · exact hs
  · extract_lets published code shown
    have hpublished : Canonical published := mirPublish_canonical 2 q hs
    split
    · exact hpublished
    · exact hpublished.same (by simp [Same, shown])

/-! ### Register reads -/

theorem readOrZero_same (r : Reader) (w : Window) (off : Nat) (g : Option Reg) (s : State) :
    Same s (readOrZero r w off g s).1 := by
  unfold readOrZero
  split
  · exact ⟨rfl, rfl, rfl⟩
  · split <;> simp [Same]

theorem regRead_canonical (r : Reader) (w : Window) (off : Nat) : KeepsCanonical (regRead r w off) := fun s hs => by
  unfold regRead
  dsimp only
  split
  · exact hs.same (by simp [Same])
  · split
    · exact hs.same (by simp [Same])
    · exact fenceRead_canonical r s hs
    · refine hs.same ?_
      split
      · split
        · exact afterWrites_same (fun s => hostRead_same _ _ _ _ _ s (readOrZero_same r w off _)) _ _ _ s
        · exact hostRead_same _ _ _ _ _ s (readOrZero_same r w off _)
      · exact hostRead_same _ _ _ _ _ s (readOrZero_same r w off _)

theorem windowRegRead_canonical (port : Port) (w : Window) (offset len : Nat) :
    KeepsCanonical (windowRegRead port w offset len) := fun s hs =>
  KeepsCanonical.foldl (f := fun s (p : Nat × Nat × Nat) => regRead ⟨port, p.2.1, p.2.2⟩ w p.1 s)
    (fun p => regRead_canonical ⟨port, p.2.1, p.2.2⟩ w p.1) _ s hs

/-! ### Register writes -/

theorem writeReg_canonical (port : Port) (w : Window) (off v : Nat) (g : Reg) :
    KeepsCanonical (writeReg port w off v g) :=
  fun s hs => by
    unfold writeReg
    dsimp only
    split
    case h_6 => exact writeHatchCmd_canonical port.req v s hs
    case h_19 o e width =>
      split
      · exact hs
      · exact (applyObject_canonical port.req false o e _).writeObject _ _ _ _ _ _ _ s hs
    all_goals exact hs.same (by simp [Same])

theorem regWrite_canonical (port : Port) (w : Window) (off v : Nat) : KeepsCanonical (regWrite port w off v) := by
  refine KeepsCanonical.hostWrite (fun s hs => ?_) _ _ _ _
  split
  · exact hs
  · next g _ =>
    split
    · refine writeReg_canonical port w off v g _ ?_
      split <;> exact hs.same (by simp [Same])
    · exact hs.same (by simp [Same])

theorem writeDword_canonical (port : Port) (w : Window) (d : Nat × Nat × List Bool) :
    KeepsCanonical (writeDword port w · d) := fun s hs => by
  dsimp only [writeDword]
  split
  · exact hs
  · split
    · exact regWrite_canonical _ _ _ _ s hs
    · exact hs.same (by simp [Same])

theorem postedWrite_canonical (port : Port) (w : Window) (h : HostWrite) : KeepsCanonical (postedWrite port w h) :=
  fun s hs => by
    unfold postedWrite
    split
    · exact hs.same (by simp [Same])
    · exact KeepsCanonical.foldl (writeDword_canonical port w) _ s hs

theorem viaRegister_canonical (r : Req) (w : Window) (off v : Nat) (o : Obj) (e : Nat) :
    KeepsCanonical (viaRegister r w off v o e) := by
  cases r with
  | linkA => exact regWrite_canonical .a w off v
  | linkB => exact regWrite_canonical .b w off v
  | sideband => exact dictCommand_canonical .sideband o e _

theorem maskCommand_canonical (r : Req) (sn : Nat) (m : Bool) : KeepsCanonical (maskCommand r sn m) := by
  cases r with
  | linkA => exact regWrite_canonical .a .bar0 0x3008 _
  | linkB => exact regWrite_canonical .b .bar0 0x3008 _
  | sideband => exact dictCommand_canonical .sideband .sourceMask sn _

/-! ### What waits -/

theorem redo_canonical (r : Req) (a : Access) : KeepsCanonical (Access.redo r a) := fun s hs => by
  unfold Access.redo
  split
  · exact hs.same (by simp [Same])
  · split
    case h_1 => exact regRead_canonical _ _ _ s hs
    case h_2 => exact regWrite_canonical _ _ _ _ s hs
    case h_5 =>
      split
      · exact dictCommand_canonical _ _ _ _ s hs
      · exact hs
    all_goals exact hs.same (by simp [Same])

theorem retryHeld_canonical : KeepsCanonical retryHeld := fun s hs =>
  KeepsCanonical.foldl (f := fun s (x : Req × Access) => x.2.redo x.1 s) (fun x => redo_canonical x.1 x.2) _
    { releaseFaults s with held := [] } (hs.same (by simp [Same]))

theorem passTime_canonical : KeepsCanonical passTime := fun s hs =>
  imageTick_canonical _ (retryHeld_canonical _ (ledgerFlow_canonical _ (hs.same (by simp [Same]))))

/-! ### The test access port -/

theorem dapScanExit_canonical : KeepsCanonical dapScanExit := fun s hs => by
  unfold dapScanExit
  split
  · exact keeperDiscard_canonical 6 s hs
  · exact hs

theorem dapRun_canonical (op : Nat) : KeepsCanonical (dapRun op) := fun s hs => by
  unfold dapRun
  split
  case h_3 => exact dapRelease_canonical s hs
  case h_5 => exact dapScanExit_canonical s hs
  all_goals exact hs.same (by simp [Same])

theorem dapWrite_canonical (reg v : Nat) : KeepsCanonical (dapWrite reg v) := fun s hs => by
  unfold dapWrite
  split
  case h_4 => exact dapRun_canonical _ s hs
  all_goals exact hs

theorem hydapAccess_canonical (dr : BitVec 40) : KeepsCanonical (hydapAccess dr) := fun s hs => by
  unfold hydapAccess
  dsimp only
  split
  · exact hs
  · split
    · exact hs
    · exact dapWrite_canonical _ _ _ hs

end Sys2Proof.Machine
end

section
/-!
The steps with which what waits may go on leave what waits as it is.
-/

namespace Sys2Proof.Machine

open Sys2Proof

/-- What waits for an island or a bank, and for a place in the Fault Ledger, is as it was. -/
abbrev SameWaiting (s t : State) : Prop := t.held = s.held ∧ t.xlate = s.xlate

theorem SameWaiting.trans {s t u : State} (h : SameWaiting s t) (k : SameWaiting t u) : SameWaiting s u :=
  ⟨k.1.trans h.1, k.2.trans h.2⟩

theorem foldl_sameWaiting {α : Type} {f : State → α → State} (hf : ∀ s a, SameWaiting s (f s a)) (l : List α)
    (s : State) : SameWaiting s (l.foldl f s) := by
  induction l generalizing s with
  | nil => exact ⟨rfl, rfl⟩
  | cons a l ih => exact (hf s a).trans (ih _)

section
variable {f : State → State}

@[simp] theorem cutIsland_sameWaiting (i : Nat) (s : State) : SameWaiting s (cutIsland i s) := by
  unfold cutIsland
  split
  · exact ⟨rfl, rfl⟩
  · split <;> exact ⟨rfl, rfl⟩

theorem underCut_sameWaiting (hf : ∀ s, SameWaiting s (f s)) (c : Ckpt) (s : State) : SameWaiting s (underCut c f s) :=
  hf s

theorem crossing_sameWaiting (hf : ∀ s, SameWaiting s (f s)) (ids : List Nat) (s : State) :
    SameWaiting s (crossing ids f s) := by
  unfold crossing
  split
  · exact hf s
  · split
    · exact (foldl_sameWaiting (fun s i => cutIsland_sameWaiting i s) _ s).trans (hf _)
    · exact underCut_sameWaiting hf _ s

theorem receiving_sameWaiting {α : Type} (hf : ∀ s, SameWaiting s (f s)) (x : Sent α) (ids : List Nat) (s : State) :
    SameWaiting s (receiving x ids f s) := by
  unfold receiving
  split
  · exact hf s
  · split
    · exact (foldl_sameWaiting (fun s i => cutIsland_sameWaiting i s) _ s).trans (hf _)
    · exact underCut_sameWaiting hf _ s

theorem handshake_sameWaiting (hf : ∀ s, SameWaiting s (f s)) (ids : List Nat) (s : State) :
    SameWaiting s (handshake ids f s) := by
  unfold handshake
  split
  · exact ⟨rfl, rfl⟩
  · split
    · exact ⟨rfl, rfl⟩
    · split
      · exact foldl_sameWaiting (fun s i => by simp [SameWaiting]) _ s
      · exact (foldl_sameWaiting (fun s i => by simp [SameWaiting]) _ s).trans (hf _)

theorem onIslands_sameWaiting (hf : ∀ s, SameWaiting s (f s)) (ids : List Nat) (s : State) :
    SameWaiting s (onIslands ids f s) := handshake_sameWaiting (crossing_sameWaiting hf ids) ids s

@[simp] theorem throttleEngage_sameWaiting (banks : List Nat) (s : State) : SameWaiting s (throttleEngage banks s) := by
  unfold throttleEngage
  dsimp only
  split <;> simp [SameWaiting]

theorem bankApply_sameWaiting {α : Type} (hf : ∀ s, SameWaiting s (f s)) (bank : Nat) (x : Sent α) (s : State) :
    SameWaiting s (bankApply bank x f s) := by
  have hnotified : ∀ s, SameWaiting s (notifyHeld bank (receiving x [idBank bank] f) s) := fun s => by
    unfold notifyHeld
    dsimp only
    split
    · exact ⟨rfl, rfl⟩
    · exact receiving_sameWaiting hf x _ s
  unfold bankApply guarded
  split
  · exact hnotified s
  · simp [SameWaiting]

end

/-! ### The steps of a Store bank -/

@[simp] theorem setFlush_sameWaiting (f : Globals → Globals) (s : State) : SameWaiting s (setFlush f s) := ⟨rfl, rfl⟩

@[simp] theorem flushCheck_sameWaiting (s : State) : SameWaiting s (flushCheck s) := by
  unfold flushCheck
  split <;> simp [SameWaiting]

@[simp] theorem flushLeave_sameWaiting (tn : Nat) (f : Flush) (s : State) : SameWaiting s (flushLeave tn f s) := by
  unfold flushLeave
  split <;> simp [SameWaiting]

@[simp] theorem applyEvent_sameWaiting (sn : Nat) (s : State) : SameWaiting s (applyEvent sn s) := by
  unfold applyEvent
  dsimp only
  split
  · simp [SameWaiting]
  · simp [SameWaiting]
  · split <;> simp [SameWaiting]

@[simp] theorem acceptClaim_sameWaiting (tn : Nat) (c : Cls) (sn : Nat) (note : Bool) (s : State) :
    SameWaiting s (acceptClaim tn c sn note s) := by
  unfold acceptClaim
  dsimp only
  split <;> simp [SameWaiting]

@[simp] theorem eoiTransition_sameWaiting (sn : Nat) (s : State) : SameWaiting s (eoiTransition sn s) := by
  simp only [eoiTransition]
  split_ifs <;> simp [SameWaiting]

@[simp] theorem acceptEoi_sameWaiting (tn : Nat) (c : Cls) (sn : Nat) (s : State) :
    SameWaiting s (acceptEoi tn c sn s) := by
  unfold acceptEoi
  dsimp only
  split <;> simp [SameWaiting]

@[simp] theorem eoiError_sameWaiting (island tn : Nat) (c : Cls) (sn reason : Nat) (s : State) :
    SameWaiting s (eoiError island tn c sn reason s) := by
  unfold eoiError
  dsimp only
  split <;> simp [SameWaiting]

@[simp] theorem decideClaim_sameWaiting (tn : Nat) (c : Cls) (sn : Nat) (note : Bool) (s : State) :
    SameWaiting s (decideClaim tn c sn note s) := by
  unfold decideClaim
  dsimp only
  split <;> simp [SameWaiting]

@[simp] theorem applyClaimReq_sameWaiting (bank : Nat) (r : ClaimReq) (s : State) :
    SameWaiting s (applyClaimReq bank r s) := by
  cases r with
  | claim tn c sn note => simp [SameWaiting, applyClaimReq]
  | eoi tn c sn =>
    simp only [applyClaimReq]
    split <;> simp [SameWaiting]

@[simp] theorem claimStep_sameWaiting (bank : Nat) (s : State) : SameWaiting s (claimStep bank s) := by
  unfold claimStep
  split
  · exact ⟨rfl, rfl⟩
  · exact bankApply_sameWaiting (fun s => by simp [SameWaiting]) _ _ s

@[simp] theorem letterboxReject_sameWaiting (port : Port) (requester : BitVec 16) (offset reason room sn : Nat)
    (s : State) : SameWaiting s (letterboxReject port requester offset reason room sn s) := by
  simp [SameWaiting, letterboxReject]

@[simp] theorem tellPending_sameWaiting (sn : Nat) (old new : Source) (s : State) :
    SameWaiting s (tellPending sn old new s) := by
  unfold tellPending
  dsimp only
  split <;> simp [SameWaiting]

@[simp] theorem storeNote_sameWaiting (port : Port) (sn : Nat) (note : List Byte) (s : State) :
    SameWaiting s (storeNote port sn note s) := by
  unfold storeNote
  dsimp only
  split
  · simp [SameWaiting]
  · split <;> simp [SameWaiting]

@[simp] theorem applyRequest_sameWaiting (e : Event) (s : State) : SameWaiting s (applyRequest e s) := by
  cases e with
  | letterbox port requester offset sn room note =>
    simp only [applyRequest]
    split
    · simp [SameWaiting]
    · cases note <;> simp [SameWaiting]
  | wired sn assert level =>
    simp only [applyRequest]
    split <;> split <;> simp [SameWaiting]
  | raise sn => simp [SameWaiting, applyRequest]
  | warn sn => simp [SameWaiting, applyRequest]
  | ipi sn tn ch => simp [SameWaiting, applyRequest]

@[simp] theorem updateApply_sameWaiting (key : Nat) (s : State) : SameWaiting s (updateApply key s) := by
  unfold updateApply
  split
  · exact ⟨rfl, rfl⟩
  · exact bankApply_sameWaiting (fun s => by simp [SameWaiting]) _ _ s

@[simp] theorem grantOne_sameWaiting (key : Nat) (s : State) : SameWaiting s (grantOne key s) := by
  unfold grantOne
  split
  · exact ⟨rfl, rfl⟩
  · split
    · exact ⟨rfl, rfl⟩
    · split <;> simp [SameWaiting]

@[simp] theorem updateOrdered_sameWaiting (key : Nat) (s : State) : SameWaiting s (updateOrdered key s) := by
  unfold updateOrdered
  split
  · exact ⟨rfl, rfl⟩
  · dsimp only
    split_ifs <;> simp [SameWaiting]

@[simp] theorem updateStep_sameWaiting (g : Nat) (s : State) : SameWaiting s (updateStep g s) := by
  unfold updateStep
  split
  · exact ⟨rfl, rfl⟩
  · exact handshake_sameWaiting (fun s => by simp [SameWaiting]) _ s

/-! ### The Outbound channel -/

@[simp] theorem creditWaitEnds_sameWaiting (p : Port) (s : State) : SameWaiting s (creditWaitEnds p s) := by
  unfold creditWaitEnds
  dsimp only
  split
  · simp [SameWaiting]
  · cases p <;> simp [SameWaiting]

@[simp] theorem emitTo_sameWaiting (r : LinkReq) (p : Port) (s : State) : SameWaiting s (r.emitTo p s) := by
  cases r with
  | delivery k tn c sn pane wake => cases pane <;> cases wake <;> simp [SameWaiting, LinkReq.emitTo]
  | _ => simp [SameWaiting, LinkReq.emitTo]

@[simp] theorem outboundStep_sameWaiting (port : Port) (s : State) : SameWaiting s (outboundStep port s) :=
  onIslands_sameWaiting (fun s => by
    split
    · exact ⟨rfl, rfl⟩
    · split <;> simp [SameWaiting]) _ s

/-! ### The mirror MRAM and its roots -/

@[simp] theorem throttleRelease_sameWaiting (s : State) : SameWaiting s (throttleRelease s) := ⟨rfl, rfl⟩

@[simp] theorem mirrorFault_sameWaiting (c : Nat) (s : State) : SameWaiting s (mirrorFault c s) := by
  simp [SameWaiting, mirrorFault]

@[simp] theorem retireSlot_sameWaiting (la : Nat) (s : State) : SameWaiting s (retireSlot la s) := by
  unfold retireSlot
  dsimp only
  split <;> simp [SameWaiting]

@[simp] theorem verifyWrite_sameWaiting (l : Line) (check : WriteCheck) (s : State) :
    SameWaiting s (verifyWrite l check s) := by
  unfold verifyWrite
  dsimp only
  split <;> split <;> simp [SameWaiting]

@[simp] theorem writeSlot_sameWaiting (l : Line) (image : Durable) (s : State) : SameWaiting s (writeSlot l image s) :=
  ⟨rfl, rfl⟩

theorem writeImage_sameWaiting {done : State → State} (hdone : ∀ s, SameWaiting s (done s)) (l : Line)
    (image : Durable) (check : WriteCheck) (s : State) : SameWaiting s (writeImage l image check done s) := by
  unfold writeImage
  dsimp only
  split
  · simp [SameWaiting]
  · exact (verifyWrite_sameWaiting l check s).trans ((writeSlot_sameWaiting l image _).trans (hdone _))

@[simp] theorem writeLine_sameWaiting (l : Line) (check : WriteCheck) (s : State) :
    SameWaiting s (writeLine l check s) := by
  have hwritten : ∀ (image : Durable) (done : State → State), (∀ s, SameWaiting s (done s)) →
      SameWaiting s (writeImage l image check done s) := fun image _ hdone => writeImage_sameWaiting hdone l image check s
  unfold writeLine
  dsimp only
  split
  · split
    · split
      · exact hwritten _ _ fun _ => ⟨rfl, rfl⟩
      · exact ⟨rfl, rfl⟩
    · split
      · exact hwritten _ _ fun _ => ⟨rfl, rfl⟩
      · exact ⟨rfl, rfl⟩
  · split
    · exact hwritten _ _ fun _ => ⟨rfl, rfl⟩
    · exact ⟨rfl, rfl⟩

@[simp] theorem mirrorStep_sameWaiting (channel line : Nat) (check : WriteCheck) (s : State) :
    SameWaiting s (mirrorStep channel line check s) :=
  onIslands_sameWaiting (fun s => by split <;> simp [SameWaiting]) _ s

@[simp] theorem writeStripes_sameWaiting (image : Durable) (lines : List Line) (s : State) :
    SameWaiting s (writeStripes image lines s) :=
  foldl_sameWaiting (fun s stripe => foldl_sameWaiting (f := fun s la =>
    let s := writeSlot (lineOf la) image s
    { s with durab := { s.durab with written := insertNew s.durab.written (lineOf la) } }) (fun _ _ => ⟨rfl, rfl⟩) stripe s) _ s

@[simp] theorem writeContexts_sameWaiting (image : Durable) (s : State) : SameWaiting s (writeContexts image s) :=
  ⟨rfl, rfl⟩

@[simp] theorem rootCommitted_sameWaiting (epoch : Nat) (map : SlotMap) (s : State) :
    SameWaiting s (rootCommitted epoch map s) := ⟨rfl, rfl⟩

@[simp] theorem commitRoot_sameWaiting (kind : RootKind) (epoch : Nat) (image : Durable) (lines : List Line)
    (s : State) : SameWaiting s (commitRoot kind epoch image lines s) := by
  simp [SameWaiting, commitRoot]

@[simp] theorem endItem_sameWaiting (q slot code : Nat) (result : List Byte) (s : State) :
    SameWaiting s (endItem q slot code result s) := by
  unfold endItem releaseEngine
  split <;> simp [SameWaiting]

@[simp] theorem answerItems_sameWaiting (epoch : Nat) (items : List (Nat × Nat)) (s : State) :
    SameWaiting s (answerItems epoch items s) :=
  foldl_sameWaiting (fun s p => by split <;> simp [SameWaiting, endOk]) _ s

@[simp] theorem failLedgerReads_sameWaiting (s : State) : SameWaiting s (failLedgerReads s) := by
  have hfences := foldl_sameWaiting
    (fun s (r : Reader × Nat) => show SameWaiting s ((s.conductBit r.1.port.req 3).answerRead r.1 0) by simp [SameWaiting])
    s.ledger.fenceReads s
  exact hfences.trans (foldl_sameWaiting (fun s r => by simp [SameWaiting]) _ _)

@[simp] theorem fenceReadsDone_sameWaiting (s : State) : SameWaiting s (fenceReadsDone s) :=
  foldl_sameWaiting (fun s r => by split <;> simp [SameWaiting, finishFence]) _ s

@[simp] theorem persistAll_sameWaiting (s : State) : SameWaiting s (persistAll s) :=
  foldl_sameWaiting (f := fun s p => persisted p s) (fun s p => by simp [SameWaiting, persisted]) _ _

@[simp] theorem clearRdy_sameWaiting (s : State) : SameWaiting s (clearRdy s) := by
  simp [SameWaiting, clearRdy]

@[simp] theorem enterScan_sameWaiting (s : State) : SameWaiting s (enterScan s) := by
  simp [SameWaiting, enterScan]

@[simp] theorem startCheckpoint_sameWaiting (s : State) : SameWaiting s (startCheckpoint s) := ⟨rfl, rfl⟩

@[simp] theorem finishCheckpoint_sameWaiting (c : Ckpt) (s : State) : SameWaiting s (finishCheckpoint c s) := by
  simp only [finishCheckpoint]
  split_ifs <;> simp [SameWaiting]

@[simp] theorem rootStep_sameWaiting (s : State) : SameWaiting s (rootStep s) :=
  onIslands_sameWaiting (fun s => by
    split
    · exact ⟨rfl, rfl⟩
    · split <;> simp [SameWaiting]) _ s

/-! ### What waits goes on -/

/-- With nothing that waits, nothing goes on. -/
theorem retryHeld_of_none {s : State} (hheld : s.held = []) (hfaults : s.xlate.heldFaults = []) : retryHeld s = s := by
  obtain ⟨now, free, pending, out, held, dur, mram, durab, nv, keeper, power, dap, fabric, wired, queues, xlate⟩ := s
  subst hheld
  obtain ⟨⟩ := xlate
  subst hfaults
  rfl

/-- With nothing in the ports' streams and no read of BAR4 that waits, nothing flows. -/
theorem ledgerFlow_of_none {s : State} (hstream : s.ledger.stream = []) (hreads : s.ledger.reads = []) :
    ledgerFlow s = s := by
  simp [ledgerFlow, flowPort, readsDone, hstream, hreads]

/-- Where nothing waited, nothing goes on after a step that keeps what waits. -/
theorem retryHeld_of_sameWaiting {s t : State} (h : SameWaiting s t) (hnone : nothingWaits s) : retryHeld t = t :=
  retryHeld_of_none (h.1.trans hnone.1) (h.2 ▸ hnone.2.1)

end Sys2Proof.Machine
end

section
/-!
Quiet commands leave the stores as they are.
-/

namespace Sys2Proof.Machine

open Sys2Proof

/-! ### The frame of a command -/

section
variable {s t : State} {f : State → State}

/-- A command whose effect leaves the stores as they are does so. -/
theorem same_of_answer (h : answer s f = .next t) (hf : ∀ s, Same s (f s)) : Same s t := by
  obtain rfl := Host.Outcome.next.inj h
  exact hf (cleared s)

/-- Where nothing waits, nothing goes on after a step that leaves the stores and what waits as they are. -/
theorem same_of_resuming (hnone : nothingWaits s) (h : answer s (fun s => retryHeld (f s)) = .next t)
    (hf : ∀ s, Same s (f s)) (hwaits : ∀ s, SameWaiting s (f s)) : Same s t := by
  obtain rfl := Host.Outcome.next.inj h
  have hnone' : nothingWaits (cleared s) := hnone
  have hdone : retryHeld (f (cleared s)) = f (cleared s) := retryHeld_of_sameWaiting (hwaits _) hnone'
  have hsame := hf (cleared s)
  rw [← hdone] at hsame
  exact hsame

end

section
variable {s t : State} {port : Port} {island : Island} {tn : Fin 4096} {cls : Cls}

theorem execDapRelease_same (hnone : nothingWaits s) (h : execDapRelease s = .next t) : Same s t := by
  obtain rfl := Host.Outcome.next.inj h
  obtain ⟨-, -, hstream, hreads⟩ := hnone
  have hreleased : ∀ s : State, s.ledger.stream = [] → s.ledger.reads = [] → Same s (dapRelease s) :=
    fun s hstream hreads => by
      have hledger : (releaseHalts s).ledger = s.ledger := releaseHalts_ledger s
      have hflow : resumeHalts s = releaseHalts s :=
        ledgerFlow_of_none (by rw [hledger, hstream]) (by rw [hledger, hreads])
      simp [Same, dapRelease, hflow]
  have hcommand : Same (cleared s) (dapCommand 3 dapRelease (cleared s)) := by
    unfold dapCommand
    split
    · exact ⟨rfl, rfl, rfl⟩
    · exact hreleased _ hstream hreads
  exact hcommand

end

/-! ### Quiet commands, case by case -/

section
variable {s t : State} {port : Port} {island : Island} {tn : Fin 4096} {cls : Cls}

theorem execPortReset_same {cause : PortResetCause} (h : execPortReset port cause s = .next t) : Same s t :=
  same_of_answer h fun s => by cases cause <;> simp [Same]

theorem execLockLoss_same (h : execLockLoss island s = .next t) : Same s t :=
  same_of_answer h fun s => by
    cases islandId island with
    | none => exact ⟨rfl, rfl, rfl⟩
    | some i =>
      dsimp only
      split_ifs <;> simp [Same]

theorem execIntakeForward_same {gather : Fin 64} (h : execIntakeForward port gather s = .next t) : Same s t :=
  same_of_answer h <| fun s => onIslands_same _ _ s fun s => by
    split
    · exact ⟨rfl, rfl, rfl⟩
    · split <;> simp [Same]

theorem execOffer_same {delivery : Fin 64} (h : execOffer delivery s = .next t) : Same s t :=
  same_of_answer h <| fun s => handshake_same _ _ s fun s => by
    dsimp only
    split <;> simp [Same]

theorem execRetraction_same {delivery : Fin 64} (h : execRetraction delivery s = .next t) : Same s t :=
  same_of_answer h <| fun s => handshake_same _ _ s fun s => by
    dsimp only
    split <;> simp [Same]

theorem execBankClaim_same {bank : Fin 32} (h : execBankClaim bank s = .next t) : Same s t :=
  same_of_answer h <| fun s => handshake_same _ _ s fun s => by split <;> simp [Same]

theorem execBankEoi_same {bank : Fin 32} (h : execBankEoi bank s = .next t) : Same s t :=
  same_of_answer h <| fun s => handshake_same _ _ s fun s => by split <;> simp [Same]

theorem execLouvreExpiry_same (h : execLouvreExpiry tn cls s = .next t) : Same s t :=
  same_of_answer h <| fun s => onIslands_same _ _ s fun s => by split <;> simp [Same]

theorem execWatchdogExpiry_same (h : execWatchdogExpiry tn cls s = .next t) : Same s t := by
  unfold execWatchdogExpiry at h
  split at h
  · exact same_of_answer h fun s => onIslands_same _ _ s fun s => guarded_same _ s fun s => by simp [Same]
  · exact same_of_answer h fun _ => ⟨rfl, rfl, rfl⟩

theorem execHatchTimeout_same (h : execHatchTimeout s = .next t) : Same s t :=
  same_of_answer h fun s => by
    simp only [whenServing]
    split
    · split
      · exact ⟨rfl, rfl, rfl⟩
      · split <;> simp [Same]
    · exact ⟨rfl, rfl, rfl⟩

theorem execSidebandHatchWaitExpiry_same (h : execSidebandHatchWaitExpiry s = .next t) : Same s t :=
  same_of_answer h fun s => onSideband_same _ s fun s => by split <;> simp [Same]

theorem execSmbusRetry_same {packet : Nat} (h : execSmbusRetry (packet := packet) s = .next t) : Same s t :=
  same_of_answer h fun s => onSideband_same _ s fun s => by
    split
    · exact ⟨rfl, rfl, rfl⟩
    · simp [Same]

theorem execSwingCommit_same (h : execSwingCommit s = .next t) : Same s t :=
  same_of_answer h fun s => by split <;> simp [Same]

theorem execHostReadTimeout_same {read : HostReadId} (h : execHostReadTimeout read s = .next t) : Same s t :=
  same_of_answer h fun s => by split <;> simp [Same]

theorem execInvalidationFence_same (h : execInvalidationFence s = .next t) : Same s t :=
  same_of_answer h fun s => by
    split
    · exact ⟨rfl, rfl, rfl⟩
    · split
      · exact ⟨rfl, rfl, rfl⟩
      · exact onIslands_same _ _ s fun s => by dsimp only; split <;> simp [Same]

theorem execLedgerCopy_same {island : Fin 4} (h : execLedgerCopy island s = .next t) : Same s t :=
  same_of_answer h fun s => onIslands_same _ _ s fun s => by
    dsimp only
    split
    · exact ⟨rfl, rfl, rfl⟩
    · split
      · exact ⟨rfl, rfl, rfl⟩
      · split
        · exact ⟨rfl, rfl, rfl⟩
        · split
          case h_1 h | h_2 h | h_3 h => simp [Same, same_of_translate h]

theorem execNonceExpiry_same {req : Req} (h : execNonceExpiry req s = .next t) : Same s t :=
  same_of_answer h fun s => by
    have helapsed (at' : Nat) : Same s ((s.elapseTo at').modAuth req fun a => { a with nonce := none }) :=
      State.elapseTo_same s at'
    exact iteInduction (motive := fun t => Same s t) (fun _ => ⟨rfl, rfl, rfl⟩) (fun _ => helapsed _)

theorem execCutToken_same (h : execCutToken island s = .next t) : Same s t :=
  same_of_answer h fun s => by cases islandId island <;> simp [Same]

theorem execIslandDoze_same (h : execIslandDoze island s = .next t) : Same s t :=
  same_of_answer h fun s => by cases islandId island <;> simp [Same]

theorem execIslandRetain_same (h : execIslandRetain island s = .next t) : Same s t :=
  same_of_answer h fun s => by
    cases islandId island with
    | none => exact ⟨rfl, rfl, rfl⟩
    | some i =>
      dsimp only
      split
      · exact ⟨rfl, rfl, rfl⟩
      · split <;> simp [Same]

theorem execIslandWake_same (h : execIslandWake island s = .next t) : Same s t :=
  same_of_answer h fun s => by cases islandId island <;> simp [Same]

theorem execMgmtVectorSend_same {enable funcMask : Bool}
    (h : execMgmtVectorSend port (enable := enable) (funcMask := funcMask) s = .next t) : Same s t :=
  same_of_answer h fun s => by
    dsimp only
    split
    · exact ⟨rfl, rfl, rfl⟩
    · split <;> simp [Same]

theorem execPageMove_same {island : Fin 4} {logical : Fin 4096} {physical : Fin 4352}
    (h : execPageMove island logical physical s = .next t) : Same s t :=
  same_of_answer h fun s => onIslands_same _ _ s fun s => by split <;> simp [Same, movePage]

theorem execPageRetire_same {island : Fin 4} {logical : Fin 4096} {physical : Fin 4352}
    (h : execPageRetire island logical physical s = .next t) : Same s t :=
  same_of_answer h fun s => onIslands_same _ _ s fun s => by split <;> simp [Same, movePage]

end

/-- A quiet command leaves the stores as they are, those with which what waits may go on where nothing waits. -/
theorem same_of_quiet {c : Instr} {s t : State} (hquiet : c.quiet = true)
    (hresumes : c.resumes = true → nothingWaits s) (h : exec c s = .next t) : Same s t := by
  cases c <;> simp only [exec] at h
  -- commands with which what waits may go on
  case stateUpdate gather =>
    exact same_of_resuming (hresumes rfl) h (updateStep_same gather) (updateStep_sameWaiting gather)
  case outboundIssue port =>
    exact same_of_resuming (hresumes rfl) h (outboundStep_same port) (outboundStep_sameWaiting port)
  case mirrorWrite channel line check =>
    exact same_of_resuming (hresumes rfl) h (mirrorStep_same channel line check)
      (mirrorStep_sameWaiting channel line check)
  case rootCommit => exact same_of_resuming (hresumes rfl) h rootStep_same rootStep_sameWaiting
  case dapRelease => exact execDapRelease_same (hresumes rfl) h
  -- commands whose effect is a case distinction of its own
  case portReset => exact execPortReset_same h
  case lockLoss => exact execLockLoss_same h
  case intakeForward => exact execIntakeForward_same h
  case offer => exact execOffer_same h
  case retraction => exact execRetraction_same h
  case bankClaim => exact execBankClaim_same h
  case bankEoi => exact execBankEoi_same h
  case louvreExpiry => exact execLouvreExpiry_same h
  case watchdogExpiry => exact execWatchdogExpiry_same h
  case hatchTimeout => exact execHatchTimeout_same h
  case sidebandHatchWaitExpiry => exact execSidebandHatchWaitExpiry_same h
  case smbusRetry => exact execSmbusRetry_same h
  case swingCommit => exact execSwingCommit_same h
  case hostReadTimeout => exact execHostReadTimeout_same h
  case invalidationFence => exact execInvalidationFence_same h
  case ledgerCopy => exact execLedgerCopy_same h
  case nonceExpiry => exact execNonceExpiry_same h
  case cutToken => exact execCutToken_same h
  case islandDoze => exact execIslandDoze_same h
  case islandRetain => exact execIslandRetain_same h
  case islandWake => exact execIslandWake_same h
  case mgmtVectorSend => exact execMgmtVectorSend_same h
  case pageMove => exact execPageMove_same h
  case pageRetire => exact execPageRetire_same h
  -- commands whose effect is one operation
  case strapSample | pgoodAssert | recoveryComplete | pwrwarnAssert | pwrwarnDeassert | flr | d3hotEntry |
      pinQualify | sillFrame | laneTimeout | letterboxSingleWrite | letterboxDoubleWrite | selection | deliver |
      claimRead | claimAnswer | eoi | mctpMessage | describe | release | responseDelivered | setEndpointId |
      getEndpointId | getEndpointUuid | getMctpVersionSupport | getMessageTypeSupport |
      getVendorDefinedMessageSupport | entdaa | setdasa | setnewda | rstdaa | rstact | enec | disec | setmwl |
      setmrl | getmwl | getmrl | getpid | getbcr | getdcr | getstatus | getmxds | hotJoin | smbclkTimeout |
      vddioLoss | getVersion | getCapabilities | negotiateAlgorithms | getDigests | getCertificate | challenge |
      getMeasurements | imageStageTimeout | pollTick | ringFetchComplete | completionWrite | swingFoldEnd |
      timerExpiry | hostReadComplete | walkReadComplete | autoCheckpoint | peek | halt | scanEnter |
      extest | extestPulse | extestTrain | samplePreload | idcode | bypass | hydap | hyscan | intxMessage |
      bootRomVerify | busMasterEnableWrite | d3hotExit | perstDeassert | linkUp | creditWaitOver | tjExcursion |
      holdupLow =>
    exact same_of_answer h fun s => by simp [Same]
  all_goals exact Bool.noConfusion hquiet

/-- Settles O6: it holds. -/
theorem quietCommandsKeepTheStores : Obligations.QuietCommandsKeepTheStores := by
  unfold Obligations.QuietCommandsKeepTheStores
  exact fun _ _ _ hquiet hresumes h => same_of_quiet hquiet hresumes h

end Sys2Proof.Machine
end

section
/-!
Every command keeps the byte memories canonical.
-/

namespace Sys2Proof.Machine

open Sys2Proof

/-! ### Commands that write a store, case by case -/

section
variable {s t : State} {storm : StormInput} {boot : BootInput} {island : Island}

theorem execColdPowerOn_canonical (h : execColdPowerOn s = .next t) (hs : Canonical s) : Canonical t :=
  canonical_of_answer h hs fun s hs => stopWithoutCut_canonical s hs

theorem execVddCoreLoss_canonical (h : execVddCoreLoss s = .next t) (hs : Canonical s) : Canonical t :=
  canonical_of_answer h hs fun s hs => by
    have hstopped := stopWithoutCut_canonical s hs
    dsimp only
    split
    · exact hs
    · split
      · exact hstopped
      · exact hs

theorem execPgoodDeassert_canonical (h : execPgoodDeassert storm s = .next t) (hs : Canonical s) : Canonical t :=
  canonical_of_answer h hs fun s hs => by
    dsimp only
    split
    · exact stormOrStop_canonical storm _ hs
    · split
      · exact stopWithoutCut_canonical _ hs
      · exact hs

theorem execPwrfail_canonical (h : execPwrfail storm s = .next t) (hs : Canonical s) : Canonical t :=
  canonical_of_answer h hs fun s hs => by
    dsimp only
    split
    · exact hs
    · split
      · exact stormOrStop_canonical storm _ hs
      · split
        · exact stopWithoutCut_canonical _ hs
        · exact hs

theorem waitVhold_canonical (b : BootInput) : KeepsCanonical (waitVhold b) := fun s hs => by
  unfold waitVhold
  split
  · exact hs.same (State.elapseTo_same s _)
  · exact hs

theorem execKeeperRelease_canonical (h : execKeeperRelease boot s = .next t) (hs : Canonical s) : Canonical t :=
  canonical_of_answer h hs fun s hs => by
    split
    · exact release_canonical boot _ (waitVhold_canonical boot s hs)
    · exact hs

theorem execStormRestart_canonical (h : execStormRestart boot s = .next t) (hs : Canonical s) : Canonical t :=
  canonical_of_answer h hs fun s hs => by
    split
    · exact hs
    · split
      · exact release_canonical boot _ (waitVhold_canonical boot _ (hs.same (State.elapseTo_same s _)))
      · exact hs

theorem execTransitionRecord_canonical (h : execTransitionRecord s = .next t) (hs : Canonical s) : Canonical t :=
  canonical_of_answer h hs fun s hs => by
    split
    · exact transitionRecord_canonical s hs
    · exact hs

theorem tamperEffect_canonical (cause : Nat) : KeepsCanonical (tamperEffect cause) := fun s hs => by
  have hsignalled : ∀ zeroize, Canonical (tamperSignalled (lockdownNow cause zeroize s)) := fun zeroize => by
    have hlocked := lockdownNow_canonical cause zeroize s hs
    unfold tamperSignalled
    split
    · exact hlocked.same (State.mgmt_same _ 10)
    · exact hlocked
  unfold tamperEffect
  split
  · unfold tamperRepeated
    extract_lets u
    have hlocked : Canonical u := hsignalled _
    split
    · exact hlocked.same (State.raise_same u _)
    · exact hlocked
  · split
    · exact tamperResponse_canonical cause s hs
    · unfold tamperAwaited
      extract_lets action u
      have hlocked : Canonical u := hsignalled _
      exact ⟨hlocked.1, hlocked.2⟩

theorem execTamper_canonical {temperature : Bool} (h : execTamper temperature s = .next t) (hs : Canonical s) :
    Canonical t := by
  refine canonical_of_answer (f := fun s => if !s.keeper.vddAux ||
      !s.nv.tamperEnable.getLsbD ((if temperature then 2 else 1) - 1) then s
    else tamperEffect (if temperature then 2 else 1) s) h hs fun s hs => ?_
  exact iteInduction (motive := Canonical) (fun _ => hs) (fun _ => tamperEffect_canonical _ s hs)

theorem execZeroizeDone_canonical (h : execZeroizeDone s = .next t) (hs : Canonical s) : Canonical t :=
  canonical_of_answer h hs fun s hs => by
    dsimp only
    split
    · exact hs
    · exact ⟨rfl, hs.2⟩

theorem execLockReturn_canonical (h : execLockReturn island s = .next t) (hs : Canonical s) : Canonical t :=
  canonical_of_answer h hs fun s hs => by
    split
    · exact hs
    · exact retryHeld_canonical _ (ledgerFlow_canonical _ (lockReturns_canonical _ s hs))

theorem execLockTimeout_canonical (h : execLockTimeout island s = .next t) (hs : Canonical s) : Canonical t :=
  canonical_of_answer h hs fun s hs => by
    split
    · exact hs
    · exact retryHeld_canonical _ (lockTimesOut_canonical _ s hs)

/-- What waits goes on after an effect that leaves the stores as they are. -/
theorem retrying_canonical {f : State → State} (hf : ∀ s, Same s (f s)) : KeepsCanonical fun s => retryHeld (f s) :=
  fun s hs => retryHeld_canonical _ (hs.same (hf s))

theorem execEngineServe_canonical {island : Fin 16} (h : execEngineServe island s = .next t) (hs : Canonical s) :
    Canonical t :=
  canonical_of_answer h hs fun s hs => by
    split
    · exact hs
    · split
      · exact serveStep_canonical _ _ s hs
      · exact hs.same (by simp [Same])

theorem execSwing_canonical {q : Fin 256} (h : execSwing q s = .next t) (hs : Canonical s) : Canonical t :=
  canonical_of_answer h hs fun s hs => by
    split
    · exact hs
    · exact serveKind_canonical 3 q s hs

theorem execBar4Write_canonical {port : Port} {write : HostWrite} (h : execBar4Write port write s = .next t)
    (hs : Canonical s) : Canonical t :=
  canonical_of_answer h hs fun s hs => by
    dsimp only
    split_ifs
    case neg => exact enterStream_canonical _ s hs
    all_goals exact hs.same (by simp [Same])

theorem execBar4Read_canonical {port : Port} {offset length : Nat} (h : execBar4Read port offset length s = .next t)
    (hs : Canonical s) : Canonical t :=
  canonical_of_answer h hs fun s hs => by
    dsimp only
    split_ifs
    case neg => exact ledgerFlow_canonical _ hs
    all_goals exact hs.same (by simp [Same])

theorem execRcRead_canonical {port : Port} {window : Window} {offset length : Nat}
    (h : execRcRead port window offset (length := length) s = .next t) (hs : Canonical s) : Canonical t :=
  canonical_of_answer h hs fun s hs => by
    split
    · split
      · exact hs.same (State.emit_same s _)
      · exact hs
    · exact windowRegRead_canonical port window offset length s hs

end

/-! ### Every command -/

theorem exec_canonical {c : Instr} {s t : State} (h : exec c s = .next t) (hs : Canonical s) : Canonical t := by
  by_cases hquiet : c.quiet = true ∧ c.resumes = false
  · exact hs.same (same_of_quiet hquiet.1 (by simp [hquiet.2]) h)
  cases c <;> simp only [exec] at h
  -- supplies, the Keeper's release and resets, authorization, tamper and lasting losses of lock
  case coldPowerOn => exact execColdPowerOn_canonical h hs
  case vddAuxLoss => exact canonical_of_answer h hs stopWithoutCut_canonical
  case vddCoreLoss => exact execVddCoreLoss_canonical h hs
  case pgoodDeassert => exact execPgoodDeassert_canonical h hs
  case keeperRelease => exact execKeeperRelease_canonical h hs
  case pwrfail => exact execPwrfail_canonical h hs
  case stormRestart => exact execStormRestart_canonical h hs
  case lockReturn => exact execLockReturn_canonical h hs
  case lockTimeout => exact execLockTimeout_canonical h hs
  case tamper => exact execTamper_canonical h hs
  case zeroizeDone => exact execZeroizeDone_canonical h hs
  case transitionRecord => exact execTransitionRecord_canonical h hs
  case krst => exact canonical_of_answer h hs (keeperDiscard_canonical 3)
  case scanExit => exact canonical_of_answer h hs (dapScanExit_canonical.dapCommand 5)
  case dapRelease => exact canonical_of_answer h hs (dapRelease_canonical.dapCommand 3)
  case hydapAccess dr => exact canonical_of_answer h hs (hydapAccess_canonical dr)
  case keeperResetCapture req key storm =>
    exact canonical_of_answer h hs ((keeperCapture_canonical storm).keeperResetWrite req 0 key)
  case keeperResetDiscard req key =>
    exact canonical_of_answer h hs ((keeperDiscard_canonical 5).keeperResetWrite req 1 key)
  -- reads and writes of registers and of objects
  case rcRead => exact execRcRead_canonical h hs
  case maskConfirmRead | syncRead | mgmtEventRead | entryWindowSnapshot =>
    exact canonical_of_answer h hs (regRead_canonical _ _ _)
  case targetReset | mgmtEnableWrite | hatchClaim | hatchRefresh | hatchRelease | hatchRead | hatchWrite |
      hatchReadClear | hatchDone | queueProdWrite | invalidate | resume | retract | zeroIndex |
      entryWindowCommit | xlateInv =>
    exact canonical_of_answer h hs (regWrite_canonical _ _ _ _)
  case thresholdWrite | louvreWrite | targetControlWrite | shutterClose | shutterOpen | deadboltSet |
      ignCountClr | queueEnable | queueDisable | queueConfigWrite | flConsume | dirtyBudgetWrite | ceilingWrite
      =>
    exact canonical_of_answer h hs (viaRegister_canonical _ _ _ _ _ _)
  case lineConfigWrite | laneControlWrite | imageStageData | imageVerify | imageApply | imageDiscard |
      sourceConfigWrite | raise | withdraw | targetRoomWrite | roomReachWrite | invalidateRange | mirrorDisable
      | mirrorEnable | newNonce | setState | debug | authNone =>
    exact canonical_of_answer h hs (dictCommand_canonical _ _ _ _)
  case sourceMask | sourceUnmask => exact canonical_of_answer h hs (maskCommand_canonical _ _ _)
  case registerWrite => exact canonical_of_answer h hs (postedWrite_canonical _ _ _)
  case imageApplyEnd => exact canonical_of_answer h hs (imageApplied_canonical.onArrival _)
  case hatchComplete => exact canonical_of_answer h hs hatchComplete_canonical.whenServing
  case get => exact canonical_of_answer h hs (KeepsCanonical.mirRun (mirRead_canonical 1) 1).onSideband
  case set => exact canonical_of_answer h hs (KeepsCanonical.mirRun mirSet_canonical 2).onSideband
  case getClear => exact canonical_of_answer h hs (KeepsCanonical.mirRun (mirRead_canonical 3) 3).onSideband
  -- commands with which a held access may go on
  case stateUpdate gather => exact canonical_of_answer h hs (retrying_canonical (updateStep_same gather))
  case outboundIssue port => exact canonical_of_answer h hs (retrying_canonical (outboundStep_same port))
  case mirrorWrite channel line check =>
    exact canonical_of_answer h hs (retrying_canonical (mirrorStep_same channel line check))
  case rootCommit => exact canonical_of_answer h hs (retrying_canonical rootStep_same)
  -- work items and the Ledger's streams
  case engineServe => exact execEngineServe_canonical h hs
  case swing => exact execSwing_canonical h hs
  case ipiMulticast | routeBatch | timerArm | timerCancel | ledgerAppend | fence | hostStore | checkpoint |
      roomReassign | xlateInvalidate =>
    exact canonical_of_answer h hs (serveKind_canonical _ _)
  case bar4Write => exact execBar4Write_canonical h hs
  case bar4Read => exact execBar4Read_canonical h hs
  case ledgerFenceRead port => exact canonical_of_answer h hs (fenceRead_canonical _)
  case piecePersist island => exact canonical_of_answer h hs ((persistStep_canonical island).onIslands _)
  all_goals exact absurd ⟨rfl, rfl⟩ hquiet

/-- A nanosecond with no command keeps them canonical too. -/
theorem tick_canonical {s t : State} (h : tick s = .next t) (hs : Canonical s) : Canonical t :=
  canonical_of_answer h hs passTime_canonical

/-- Settles O4: it holds. -/
theorem storesStayCanonical : Obligations.StoresStayCanonical := by
  unfold Obligations.StoresStayCanonical
  intro s t h hmem hbuffer
  have hs : Canonical s := ⟨hmem, hbuffer⟩
  unfold step at h
  split at h
  · exact tick_canonical h hs
  · exact exec_canonical h hs

end Sys2Proof.Machine
end

section
/-!
The fields of a state as a command finds it, of what it answers, and of a state in which islands are busy.
-/

namespace Sys2Proof.Machine

open Sys2Proof

/-! ### A state as a command finds it -/

@[simp] theorem cleared_out (s : State) : (cleared s).out = [] := rfl
@[simp] theorem cleared_now (s : State) : (cleared s).now = s.now := rfl
@[simp] theorem cleared_free (s : State) : (cleared s).free = s.free := rfl
@[simp] theorem cleared_pending (s : State) : (cleared s).pending = s.pending := rfl
@[simp] theorem cleared_held (s : State) : (cleared s).held = s.held := rfl
@[simp] theorem cleared_dur (s : State) : (cleared s).dur = s.dur := rfl
@[simp] theorem cleared_mram (s : State) : (cleared s).mram = s.mram := rfl
@[simp] theorem cleared_durab (s : State) : (cleared s).durab = s.durab := rfl
@[simp] theorem cleared_nv (s : State) : (cleared s).nv = s.nv := rfl
@[simp] theorem cleared_power (s : State) : (cleared s).power = s.power := rfl
@[simp] theorem cleared_dap (s : State) : (cleared s).dap = s.dap := rfl
@[simp] theorem cleared_fabric (s : State) : (cleared s).fabric = s.fabric := rfl
@[simp] theorem cleared_wired (s : State) : (cleared s).wired = s.wired := rfl
@[simp] theorem cleared_queues (s : State) : (cleared s).queues = s.queues := rfl
@[simp] theorem cleared_xlate (s : State) : (cleared s).xlate = s.xlate := rfl
@[simp] theorem cleared_ledger (s : State) : (cleared s).ledger = s.ledger := rfl
@[simp] theorem cleared_portA (s : State) : (cleared s).portA = s.portA := rfl
@[simp] theorem cleared_portB (s : State) : (cleared s).portB = s.portB := rfl
@[simp] theorem cleared_conduct (s : State) : (cleared s).conduct = s.conduct := rfl
@[simp] theorem cleared_auth (s : State) : (cleared s).auth = s.auth := rfl
@[simp] theorem cleared_scratch (s : State) : (cleared s).scratch = s.scratch := rfl
@[simp] theorem cleared_hatch (s : State) : (cleared s).hatch = s.hatch := rfl
@[simp] theorem cleared_sideband (s : State) : (cleared s).sideband = s.sideband := rfl
@[simp] theorem cleared_image (s : State) : (cleared s).image = s.image := rfl
@[simp] theorem cleared_running (s : State) : (cleared s).running = s.running := rfl
@[simp] theorem cleared_src (s : State) (sn : Nat) : (cleared s).src sn = s.src sn := rfl
@[simp] theorem cleared_tgt (s : State) (tn : Nat) : (cleared s).tgt tn = s.tgt tn := rfl
@[simp] theorem cleared_dslot (s : State) (tn : Nat) (c : Cls) : (cleared s).dslot tn c = s.dslot tn c := rfl
@[simp] theorem cleared_rankSlot (s : State) (tn : Nat) (c : Cls) : (cleared s).rankSlot tn c = s.rankSlot tn c := rfl
@[simp] theorem cleared_island (s : State) (i : Nat) : (cleared s).island i = s.island i := rfl
@[simp] theorem cleared_clocked (s : State) (i : Nat) : (cleared s).clocked i = s.clocked i := rfl
@[simp] theorem cleared_queue (s : State) (q : Nat) : (cleared s).queue q = s.queue q := rfl
@[simp] theorem cleared_qvol (s : State) (q : Nat) : (cleared s).qvol q = s.qvol q := rfl
@[simp] theorem cleared_gathered (s : State) (g : Nat) : (cleared s).gathered g = s.gathered g := rfl
@[simp] theorem cleared_xroom (s : State) (m : Nat) : (cleared s).xroom m = s.xroom m := rfl
@[simp] theorem cleared_xisland (s : State) (i : Nat) : (cleared s).xisland i = s.xisland i := rfl
@[simp] theorem cleared_lane (s : State) (n : Nat) : (cleared s).lane n = s.lane n := rfl
@[simp] theorem cleared_linkReaches (s : State) (p : Port) (m : Nat) : (cleared s).linkReaches p m = s.linkReaches p m := rfl
@[simp] theorem cleared_mayTouch (s : State) (r : Req) (m : Nat) : (cleared s).mayTouch r m = s.mayTouch r m := rfl

/-! ### What a command answers -/

@[simp] theorem answered_pending (s t : State) : (answered s t).pending = s.pending := rfl
@[simp] theorem answered_out (s t : State) : (answered s t).out = t.out.filter (Output.reaches s) := rfl
@[simp] theorem answered_now (s t : State) : (answered s t).now = t.now := rfl
@[simp] theorem answered_free (s t : State) : (answered s t).free = t.free := rfl
@[simp] theorem answered_held (s t : State) : (answered s t).held = t.held := rfl
@[simp] theorem answered_mram (s t : State) : (answered s t).mram = t.mram := rfl
@[simp] theorem answered_durab (s t : State) : (answered s t).durab = t.durab := rfl
@[simp] theorem answered_keeper (s t : State) : (answered s t).keeper = t.keeper := rfl
@[simp] theorem answered_power (s t : State) : (answered s t).power = t.power := rfl
@[simp] theorem answered_dap (s t : State) : (answered s t).dap = t.dap := rfl
@[simp] theorem answered_fabric (s t : State) : (answered s t).fabric = t.fabric := rfl
@[simp] theorem answered_wired (s t : State) : (answered s t).wired = t.wired := rfl
@[simp] theorem answered_queues (s t : State) : (answered s t).queues = t.queues := rfl
@[simp] theorem answered_xlate (s t : State) : (answered s t).xlate = t.xlate := rfl
@[simp] theorem answered_portA (s t : State) : (answered s t).portA = t.portA := rfl
@[simp] theorem answered_portB (s t : State) : (answered s t).portB = t.portB := rfl
@[simp] theorem answered_conduct (s t : State) : (answered s t).conduct = t.conduct := rfl
@[simp] theorem answered_auth (s t : State) : (answered s t).auth = t.auth := rfl
@[simp] theorem answered_scratch (s t : State) : (answered s t).scratch = t.scratch := rfl
@[simp] theorem answered_hatch (s t : State) : (answered s t).hatch = t.hatch := rfl
@[simp] theorem answered_sideband (s t : State) : (answered s t).sideband = t.sideband := rfl
@[simp] theorem answered_image (s t : State) : (answered s t).image = t.image := rfl
@[simp] theorem answered_port (s t : State) (p : Port) : (answered s t).port p = t.port p := by cases p <;> rfl
@[simp] theorem answered_src (s t : State) (sn : Nat) : (answered s t).src sn = t.src sn := rfl
@[simp] theorem answered_tgt (s t : State) (tn : Nat) : (answered s t).tgt tn = t.tgt tn := rfl
@[simp] theorem answered_dslot (s t : State) (tn : Nat) (c : Cls) : (answered s t).dslot tn c = t.dslot tn c := rfl
@[simp] theorem answered_rankSlot (s t : State) (tn : Nat) (c : Cls) :
    (answered s t).rankSlot tn c = t.rankSlot tn c := rfl
@[simp] theorem answered_queue (s t : State) (q : Nat) : (answered s t).queue q = t.queue q := rfl
@[simp] theorem answered_qvol (s t : State) (q : Nat) : (answered s t).qvol q = t.qvol q := rfl
@[simp] theorem answered_island (s t : State) (i : Nat) : (answered s t).island i = t.island i := rfl

/-! ### A state in which islands are busy -/

section
variable (s : State) (ids : List Nat)

@[simp] theorem begun_free : (begun s ids).free = s.free := by rw [begun_frame]
@[simp] theorem begun_pending : (begun s ids).pending = s.pending := by rw [begun_frame]
@[simp] theorem begun_held : (begun s ids).held = s.held := by rw [begun_frame]
@[simp] theorem begun_mram : (begun s ids).mram = s.mram := by rw [begun_frame]
@[simp] theorem begun_durab : (begun s ids).durab = s.durab := by rw [begun_frame]
@[simp] theorem begun_keeper : (begun s ids).keeper = s.keeper := by rw [begun_frame]
@[simp] theorem begun_dap : (begun s ids).dap = s.dap := by rw [begun_frame]
@[simp] theorem begun_wired : (begun s ids).wired = s.wired := by rw [begun_frame]
@[simp] theorem begun_queues : (begun s ids).queues = s.queues := by rw [begun_frame]
@[simp] theorem begun_xlate : (begun s ids).xlate = s.xlate := by rw [begun_frame]
@[simp] theorem begun_portA : (begun s ids).portA = s.portA := by rw [begun_frame]
@[simp] theorem begun_portB : (begun s ids).portB = s.portB := by rw [begun_frame]
@[simp] theorem begun_conduct : (begun s ids).conduct = s.conduct := by rw [begun_frame]
@[simp] theorem begun_auth : (begun s ids).auth = s.auth := by rw [begun_frame]
@[simp] theorem begun_scratch : (begun s ids).scratch = s.scratch := by rw [begun_frame]
@[simp] theorem begun_hatch : (begun s ids).hatch = s.hatch := by rw [begun_frame]
@[simp] theorem begun_sideband : (begun s ids).sideband = s.sideband := by rw [begun_frame]
@[simp] theorem begun_image : (begun s ids).image = s.image := by rw [begun_frame]
@[simp] theorem begun_src (sn : Nat) : (begun s ids).src sn = s.src sn := src_of_dur (begun_dur s ids)
@[simp] theorem begun_tgt (tn : Nat) : (begun s ids).tgt tn = s.tgt tn := tgt_of_dur (begun_dur s ids)
@[simp] theorem begun_dslot (tn : Nat) (c : Cls) : (begun s ids).dslot tn c = s.dslot tn c :=
  dslot_of_fabric (begun_fabric s ids)
@[simp] theorem begun_queue (q : Nat) : (begun s ids).queue q = s.queue q := by simp only [State.queue, begun_dur]
@[simp] theorem begun_qvol (q : Nat) : (begun s ids).qvol q = s.qvol q := by simp only [State.qvol, begun_queues]
@[simp] theorem busyAll_now : (busyAll s ids).now = s.now := by rw [busyAll_frame]
@[simp] theorem busyAll_free : (busyAll s ids).free = s.free := by rw [busyAll_frame]
@[simp] theorem busyAll_pending : (busyAll s ids).pending = s.pending := by rw [busyAll_frame]
@[simp] theorem busyAll_out : (busyAll s ids).out = s.out := by rw [busyAll_frame]
@[simp] theorem busyAll_held : (busyAll s ids).held = s.held := by rw [busyAll_frame]
@[simp] theorem busyAll_dur : (busyAll s ids).dur = s.dur := by rw [busyAll_frame]
@[simp] theorem busyAll_mram : (busyAll s ids).mram = s.mram := by rw [busyAll_frame]
@[simp] theorem busyAll_nv : (busyAll s ids).nv = s.nv := by rw [busyAll_frame]
@[simp] theorem busyAll_keeper : (busyAll s ids).keeper = s.keeper := by rw [busyAll_frame]
@[simp] theorem busyAll_dap : (busyAll s ids).dap = s.dap := by rw [busyAll_frame]
@[simp] theorem busyAll_fabric : (busyAll s ids).fabric = s.fabric := by rw [busyAll_frame]
@[simp] theorem busyAll_wired : (busyAll s ids).wired = s.wired := by rw [busyAll_frame]
@[simp] theorem busyAll_queues : (busyAll s ids).queues = s.queues := by rw [busyAll_frame]
@[simp] theorem busyAll_xlate : (busyAll s ids).xlate = s.xlate := by rw [busyAll_frame]
@[simp] theorem busyAll_ledger : (busyAll s ids).ledger = s.ledger := by rw [busyAll_frame]
@[simp] theorem busyAll_portA : (busyAll s ids).portA = s.portA := by rw [busyAll_frame]
@[simp] theorem busyAll_portB : (busyAll s ids).portB = s.portB := by rw [busyAll_frame]
@[simp] theorem busyAll_conduct : (busyAll s ids).conduct = s.conduct := by rw [busyAll_frame]
@[simp] theorem busyAll_auth : (busyAll s ids).auth = s.auth := by rw [busyAll_frame]
@[simp] theorem busyAll_scratch : (busyAll s ids).scratch = s.scratch := by rw [busyAll_frame]
@[simp] theorem busyAll_hatch : (busyAll s ids).hatch = s.hatch := by rw [busyAll_frame]
@[simp] theorem busyAll_sideband : (busyAll s ids).sideband = s.sideband := by rw [busyAll_frame]
@[simp] theorem busyAll_image : (busyAll s ids).image = s.image := by rw [busyAll_frame]
@[simp] theorem busyAll_port (p : Port) : (busyAll s ids).port p = s.port p := by cases p <;> simp [State.port]
@[simp] theorem busyAll_src (sn : Nat) : (busyAll s ids).src sn = s.src sn := src_of_dur (busyAll_dur s ids)
@[simp] theorem busyAll_tgt (tn : Nat) : (busyAll s ids).tgt tn = s.tgt tn := tgt_of_dur (busyAll_dur s ids)
@[simp] theorem busyAll_dslot (tn : Nat) (c : Cls) : (busyAll s ids).dslot tn c = s.dslot tn c :=
  dslot_of_fabric (busyAll_fabric s ids)
@[simp] theorem busyAll_queue (q : Nat) : (busyAll s ids).queue q = s.queue q := by simp only [State.queue, busyAll_dur]
@[simp] theorem busyAll_qvol (q : Nat) : (busyAll s ids).qvol q = s.qvol q := by simp only [State.qvol, busyAll_queues]

end

end Sys2Proof.Machine
end

section
/-!
Every command completes; the reset state.
-/

namespace Sys2Proof.Machine

open Sys2Proof

/-! ### Every command completes -/

/-- Every command answers with what some effect makes of the state. -/
theorem exec_answers (c : Instr) (s : State) : ∃ f, exec c s = answer s f := by
  cases c <;> simp only [exec]
  case watchdogExpiry tn cls =>
    unfold execWatchdogExpiry
    split <;> exact ⟨_, rfl⟩
  all_goals exact ⟨_, rfl⟩

/-- Settles O2: it holds. -/
theorem everyCommandCompletes : Obligations.EveryCommandCompletes := by
  unfold Obligations.EveryCommandCompletes
  intro c s
  obtain ⟨f, hf⟩ := exec_answers c s
  exact ⟨_, hf, rfl⟩

/-! ### The reset state -/

theorem reset_src (sn : Nat) : (State.reset.src sn).state = .idle ∧ (State.reset.src sn).priority = 128 ∧
    (State.reset.src sn).mask = false := by
  have hrecord : mget (srcDefault State.reset.dur sn) State.reset.dur.sources sn = Source.initial := rfl
  simp only [State.src, hrecord]
  split <;> exact ⟨rfl, rfl, rfl⟩

theorem reset_tgt (tn : Nat) : State.reset.tgt tn = Target.initial := rfl

theorem reset_reach (m : Nat) : State.reset.reach m = BitVec.ofNat 16 (2 ^ m) := by
  have hmasks : State.reset.dur.g.reach = (List.range 16).map fun m => BitVec.ofNat 16 (2 ^ m) := rfl
  unfold State.reach
  rw [hmasks, List.getD_eq_getElem?_getD, List.getElem?_map]
  rcases Nat.lt_or_ge m 16 with hm | hm
  · simp [List.getElem?_range hm]
  · simp [List.getElem?_eq_none (l := List.range 16) (i := m) (by simpa using hm)]

/-- Settles O3: it holds. -/
theorem resetStateIsAsGiven : Obligations.ResetStateIsAsGiven := by
  unfold Obligations.ResetStateIsAsGiven
  refine ⟨⟨rfl, rfl, rfl, rfl, rfl, rfl, rfl, rfl, rfl, rfl, rfl, rfl, reset_src, ?_, ?_, reset_reach⟩, rfl, rfl, rfl⟩
  · intro tn c
    rw [reset_tgt]
    cases c <;> exact ⟨rfl, rfl, rfl⟩
  · exact fun q => ⟨rfl, rfl, rfl, rfl⟩

end Sys2Proof.Machine
end

section
/-!
The passage of time, and the step.
-/

namespace Sys2Proof.Machine

open Sys2Proof

/-! ### The passage of time -/

/-- A fold whose every step changes the queues alone changes the queues alone. -/
theorem foldl_queues {α : Type} {f : State → α → State} (hf : ∀ t a, f t a = { t with queues := (f t a).queues })
    (l : List α) (s : State) : l.foldl f s = { s with queues := (l.foldl f s).queues } := by
  induction l generalizing s with
  | nil => rfl
  | cons a l ih => rw [List.foldl_cons, ih, hf s a]

/-- Waiting queues gain their waiting time, and nothing else changes (R433). -/
theorem waitQueues_frame (ns : Nat) (s : State) : waitQueues ns s = { s with queues := (waitQueues ns s).queues } :=
  foldl_queues (fun t p => foldl_queues (fun t k => by dsimp only; split <;> rfl) (List.range 16) t) s.queues.engine s

/-- What the passage of time changes: the time, the queues' and the ports' waiting times, and the throttle's. -/
theorem elapse_frame (ns : Nat) (s : State) : s.elapse ns =
    { s with
      now := s.now + ns
      queues := (s.elapse ns).queues
      portA := s.portA.elapse ns
      portB := s.portB.elapse ns
      durab := { s.durab with throttleTime := (s.elapse ns).durab.throttleTime } } := by
  have hwait := waitQueues_frame ns s
  unfold State.elapse
  rw [hwait]
  dsimp only
  split <;> rfl

section
variable (ns at' : Nat) (s : State)

@[simp] theorem elapse_now : (s.elapse ns).now = s.now + ns := by rw [elapse_frame]
@[simp] theorem elapse_free : (s.elapse ns).free = s.free := by rw [elapse_frame]
@[simp] theorem elapse_pending : (s.elapse ns).pending = s.pending := by rw [elapse_frame]
@[simp] theorem elapse_out : (s.elapse ns).out = s.out := by rw [elapse_frame]
@[simp] theorem elapse_held : (s.elapse ns).held = s.held := by rw [elapse_frame]
@[simp] theorem elapse_dur : (s.elapse ns).dur = s.dur := by rw [elapse_frame]
@[simp] theorem elapse_mram : (s.elapse ns).mram = s.mram := by rw [elapse_frame]
@[simp] theorem elapse_nv : (s.elapse ns).nv = s.nv := by rw [elapse_frame]
@[simp] theorem elapse_keeper : (s.elapse ns).keeper = s.keeper := by rw [elapse_frame]
@[simp] theorem elapse_power : (s.elapse ns).power = s.power := by rw [elapse_frame]
@[simp] theorem elapse_dap : (s.elapse ns).dap = s.dap := by rw [elapse_frame]
@[simp] theorem elapse_fabric : (s.elapse ns).fabric = s.fabric := by rw [elapse_frame]
@[simp] theorem elapse_wired : (s.elapse ns).wired = s.wired := by rw [elapse_frame]
@[simp] theorem elapse_xlate : (s.elapse ns).xlate = s.xlate := by rw [elapse_frame]
@[simp] theorem elapse_ledger : (s.elapse ns).ledger = s.ledger := by rw [elapse_frame]
@[simp] theorem elapse_conduct : (s.elapse ns).conduct = s.conduct := by rw [elapse_frame]
@[simp] theorem elapse_auth : (s.elapse ns).auth = s.auth := by rw [elapse_frame]
@[simp] theorem elapse_hatch : (s.elapse ns).hatch = s.hatch := by rw [elapse_frame]
@[simp] theorem elapse_sideband : (s.elapse ns).sideband = s.sideband := by rw [elapse_frame]
@[simp] theorem elapse_image : (s.elapse ns).image = s.image := by rw [elapse_frame]
@[simp] theorem elapse_ckpt : (s.elapse ns).durab.ckpt = s.durab.ckpt := by rw [elapse_frame]

/-- Time that passes until a moment is none, or the time to it. -/
theorem elapseTo_eq : s.elapseTo at' = s ∨ s.elapseTo at' = s.elapse (at' - s.now) := by
  unfold State.elapseTo
  split
  · exact .inr rfl
  · exact .inl rfl

@[simp] theorem elapseTo_now : (s.elapseTo at').now = max s.now at' := by
  unfold State.elapseTo
  split
  · simp only [elapse_now]
    omega
  · omega

@[simp] theorem elapseTo_free : (s.elapseTo at').free = s.free := by
  rcases elapseTo_eq at' s with h | h <;> simp [h]
@[simp] theorem elapseTo_pending : (s.elapseTo at').pending = s.pending := by
  rcases elapseTo_eq at' s with h | h <;> simp [h]
@[simp] theorem elapseTo_out : (s.elapseTo at').out = s.out := by
  rcases elapseTo_eq at' s with h | h <;> simp [h]
@[simp] theorem elapseTo_held : (s.elapseTo at').held = s.held := by
  rcases elapseTo_eq at' s with h | h <;> simp [h]
@[simp] theorem elapseTo_dur : (s.elapseTo at').dur = s.dur := by
  rcases elapseTo_eq at' s with h | h <;> simp [h]
@[simp] theorem elapseTo_mram : (s.elapseTo at').mram = s.mram := by
  rcases elapseTo_eq at' s with h | h <;> simp [h]
@[simp] theorem elapseTo_nv : (s.elapseTo at').nv = s.nv := by
  rcases elapseTo_eq at' s with h | h <;> simp [h]
@[simp] theorem elapseTo_keeper : (s.elapseTo at').keeper = s.keeper := by
  rcases elapseTo_eq at' s with h | h <;> simp [h]
@[simp] theorem elapseTo_power : (s.elapseTo at').power = s.power := by
  rcases elapseTo_eq at' s with h | h <;> simp [h]
@[simp] theorem elapseTo_dap : (s.elapseTo at').dap = s.dap := by
  rcases elapseTo_eq at' s with h | h <;> simp [h]
@[simp] theorem elapseTo_fabric : (s.elapseTo at').fabric = s.fabric := by
  rcases elapseTo_eq at' s with h | h <;> simp [h]
@[simp] theorem elapseTo_wired : (s.elapseTo at').wired = s.wired := by
  rcases elapseTo_eq at' s with h | h <;> simp [h]
@[simp] theorem elapseTo_xlate : (s.elapseTo at').xlate = s.xlate := by
  rcases elapseTo_eq at' s with h | h <;> simp [h]
@[simp] theorem elapseTo_ledger : (s.elapseTo at').ledger = s.ledger := by
  rcases elapseTo_eq at' s with h | h <;> simp [h]
@[simp] theorem elapseTo_conduct : (s.elapseTo at').conduct = s.conduct := by
  rcases elapseTo_eq at' s with h | h <;> simp [h]
@[simp] theorem elapseTo_auth : (s.elapseTo at').auth = s.auth := by
  rcases elapseTo_eq at' s with h | h <;> simp [h]
@[simp] theorem elapseTo_hatch : (s.elapseTo at').hatch = s.hatch := by
  rcases elapseTo_eq at' s with h | h <;> simp [h]
@[simp] theorem elapseTo_sideband : (s.elapseTo at').sideband = s.sideband := by
  rcases elapseTo_eq at' s with h | h <;> simp [h]
@[simp] theorem elapseTo_image : (s.elapseTo at').image = s.image := by
  rcases elapseTo_eq at' s with h | h <;> simp [h]
@[simp] theorem elapseTo_ckpt : (s.elapseTo at').durab.ckpt = s.durab.ckpt := by
  rcases elapseTo_eq at' s with h | h <;> simp [h]

end

/-- With nothing that waits and no image that is applied, a nanosecond is the time alone. -/
theorem passTime_of_none {s : State} (hnone : nothingWaits s) (himage : s.image.state ≠ .applying) :
    passTime s = s.elapse 1 := by
  obtain ⟨hheld, hfaults, hstream, hreads⟩ := hnone
  have hflow : ledgerFlow (s.elapse 1) = s.elapse 1 := ledgerFlow_of_none (by simpa) (by simpa)
  have hretry : retryHeld (s.elapse 1) = s.elapse 1 := retryHeld_of_none (by simpa) (by simpa)
  have himage' : ((s.elapse 1).image.state == .applying) = false := by simpa using himage
  rw [passTime, hflow, hretry, imageTick, himage', Bool.false_and, Bool.false_and, if_neg Bool.false_ne_true]

/-- Settles O1: it holds. -/
theorem stepRunsTheFrontCommand : Obligations.StepRunsTheFrontCommand := by
  unfold Obligations.StepRunsTheFrontCommand
  refine ⟨fun c rest s => rfl, fun s hpending hnone himage => ?_⟩
  have hpass : passTime (cleared s) = (cleared s).elapse 1 := passTime_of_none hnone himage
  have hstep : step s = .next (answered s ((cleared s).elapse 1)) := by
    unfold step
    rw [hpending]
    exact answer_eq hpass
  refine ⟨_, hstep, ?_⟩
  simp [hpending, answered]

end Sys2Proof.Machine
end

section
/-!
Losses of a supply and a cold power-on: the core stops without a cut.
-/

namespace Sys2Proof.Machine

open Sys2Proof

/-- A relation that steps compose to holds between the ends of a fold whose every step meets it. -/
theorem foldl_rel {α : Type} {R : State → State → Prop} (hrefl : ∀ s, R s s)
    (htrans : ∀ {s t u}, R s t → R t u → R s u) {f : State → α → State} (hf : ∀ s a, R s (f s a)) (l : List α)
    (s : State) : R s (l.foldl f s) := by
  induction l generalizing s with
  | nil => exact hrefl s
  | cons a l ih => exact htrans (hf s a) (ih _)

/-! ### The core loses its state -/

/-- The Ledger and the count of free values apart, the state is as it was. -/
def LedgerAndDraws (s t : State) : Prop := t = { s with ledger := t.ledger, free := t.free }

theorem LedgerAndDraws.trans {s t u : State} (h : LedgerAndDraws s t) (k : LedgerAndDraws t u) :
    LedgerAndDraws s u := by
  unfold LedgerAndDraws at *
  rw [k, h]

theorem freeBytes_ledgerAndDraws (a : Nat) (es : List Bool) (s : State) : LedgerAndDraws s (freeBytes a es s) := by
  fun_induction freeBytes a es s with
  | case1 => rfl
  | case2 a e es s ih =>
    refine LedgerAndDraws.trans ?_ ih
    split <;> rfl

theorem loseInbox_ledgerAndDraws (s : State) : LedgerAndDraws s (loseInbox s) :=
  (foldl_rel (R := LedgerAndDraws) (fun _ => rfl) LedgerAndDraws.trans
    (f := fun s (p : Piece) => freeBytes (64 * p.line) p.enables s)
    (fun s _ => freeBytes_ledgerAndDraws _ _ s) s.ledger.inbox s).trans rfl

section
variable (s : State)

@[simp] theorem loseInbox_mram : (loseInbox s).mram = s.mram := by rw [loseInbox_ledgerAndDraws s]
@[simp] theorem loseInbox_keeper : (loseInbox s).keeper = s.keeper := by rw [loseInbox_ledgerAndDraws s]
@[simp] theorem loseInbox_pending : (loseInbox s).pending = s.pending := by rw [loseInbox_ledgerAndDraws s]
@[simp] theorem loseInbox_now : (loseInbox s).now = s.now := by rw [loseInbox_ledgerAndDraws s]

/-- With nothing in a Ledger island no byte is lost. -/
theorem loseInbox_mem (h : s.ledger.inbox = []) : (loseInbox s).ledger.mem = s.ledger.mem := by
  unfold loseInbox
  rw [h]
  rfl

@[simp] theorem coreOff_mram : (coreOff s).mram = s.mram := rfl
@[simp] theorem coreOff_dur : (coreOff s).dur = .initial := rfl
@[simp] theorem coreOff_mem : (coreOff s).ledger.mem = s.ledger.mem := rfl
@[simp] theorem coreOff_now : (coreOff s).now = s.now := rfl
@[simp] theorem coreOff_sec : (coreOff s).nv.sec = s.nv.sec := rfl
@[simp] theorem coreOff_ownerKey : (coreOff s).nv.ownerKey = s.nv.ownerKey := rfl
@[simp] theorem coreOff_pendingSealed : (coreOff s).nv.pendingSealed = s.nv.pendingSealed := rfl

@[simp] theorem stopWithoutCut_mram : (stopWithoutCut s).mram = s.mram := loseInbox_mram s
@[simp] theorem stopWithoutCut_dur : (stopWithoutCut s).dur = .initial := rfl
@[simp] theorem stopWithoutCut_now : (stopWithoutCut s).now = s.now := loseInbox_now s
@[simp] theorem stopWithoutCut_sec : (stopWithoutCut s).nv.sec = s.nv.sec := by simp [stopWithoutCut]
@[simp] theorem stopWithoutCut_ownerKey : (stopWithoutCut s).nv.ownerKey = s.nv.ownerKey := by simp [stopWithoutCut]
@[simp] theorem stopWithoutCut_pendingSealed : (stopWithoutCut s).nv.pendingSealed = s.nv.pendingSealed := by
  simp [stopWithoutCut]
@[simp] theorem stopWithoutCut_pstate : (stopWithoutCut s).keeper.pstate = .p4 := rfl
@[simp] theorem stopWithoutCut_rdy : (stopWithoutCut s).keeper.rdy = false := rfl
@[simp] theorem stopWithoutCut_unqualifiedLoss :
    (stopWithoutCut s).keeper.unqualifiedLoss = s.keeper.unqualifiedLoss := by simp [stopWithoutCut, coreOff]

theorem stopWithoutCut_mem (h : s.ledger.inbox = []) : (stopWithoutCut s).ledger.mem = s.ledger.mem :=
  loseInbox_mem s h

end

/-- Settles O8: it holds. -/
theorem supplyLossKeepsRootsAndLedger : Obligations.SupplyLossKeepsRootsAndLedger := by
  unfold Obligations.SupplyLossKeepsRootsAndLedger
  refine ⟨fun s => ⟨_, rfl, ?_⟩, fun s => ⟨_, rfl, ?_⟩, fun s hcore hpow => ?_⟩
  · exact ⟨by simp, by simp, rfl, by simp, by simp, rfl, rfl, fun h => stopWithoutCut_mem (cleared s) h⟩
  · exact ⟨rfl, by simp, by simp, by simp, rfl, rfl, fun h => stopWithoutCut_mem (cleared s) h⟩
  · have hexec : exec .vddCoreLoss s = .next (answered s (
        let t := stopWithoutCut (cleared s)
        { t with keeper := { t.keeper with
          vddCore := false
          stormEndAt := none
          nextCause := 2
          unqualifiedLoss := if !s.keeper.pwrfail && s.powered then satAdd 32 t.keeper.unqualifiedLoss 1
            else t.keeper.unqualifiedLoss } })) := by
      change execVddCoreLoss s = _
      unfold execVddCoreLoss
      refine answer_eq ?_
      simp [hcore, hpow]
    refine ⟨_, hexec, rfl, rfl, rfl, ?_, by simp, by simp, rfl, rfl, fun h => stopWithoutCut_mem (cleared s) h⟩
    cases hfail : s.keeper.pwrfail <;> simp [hpow]

end Sys2Proof.Machine
end

section
/-!
Keeper resets of MODE DISCARD: the core stops and no root is written.
-/

namespace Sys2Proof.Machine

open Sys2Proof

/-! ### Keeper resets -/

/-- The judgement of a write does not look at the islands' power levels. -/
theorem judgeWrite_power (s : State) (p : Power) (r : Req) (image : Bool) (o : Obj) (e : Nat) (bs : List Byte) :
    judgeWrite { s with power := p } r image o e bs = judgeWrite s r image o e bs := by
  rfl

/-- What wakes an island changes the power levels alone. -/
theorem wakeUp_frame (s : State) (i : Nat) : s.wakeUp i = { s with power := (s.wakeUp i).power } := by
  unfold State.wakeUp
  split <;> rfl

theorem judgeWrite_wakeUp (s : State) (i : Nat) (r : Req) (image : Bool) (o : Obj) (e : Nat) (bs : List Byte) :
    judgeWrite (s.wakeUp i) r image o e bs = judgeWrite s r image o e bs := by
  rw [wakeUp_frame]
  exact judgeWrite_power ..

/-- A KeeperReset that a requester may write has its effect. -/
theorem keeperResetWrite_of_none {s : State} {r : Req} {mode : Byte} {key : BitVec 16} (f : State → State)
    (hserves : mgmtServes s = true) (hreach : reqReaches s r = true)
    (hjudge : judgeWrite s r false .keeperReset 0 (mode :: leBytes 2 key.toNat ++ [0]) = none) :
    keeperResetWrite r mode key f s = f (s.wakeUp idManagement) := by
  have hhi : Obj.keeperReset.desc.hi = 0 := by decide
  have htype : Obj.keeperReset.desc.type ≠ 1 := by decide
  have hclamps : Obj.keeperReset.clamps (mode :: leBytes 2 key.toNat ++ [0]) = false := by
    simp [Obj.clamps, Obj.legal, hhi, htype]
  unfold keeperResetWrite
  rw [if_neg (by simp [hserves, hreach]), writeObject_of_none _ _ _ _ ((judgeWrite_wakeUp ..).trans hjudge), hclamps]
  rfl

/-- The state in which a Keeper reset of MODE DISCARD stops the core: the pieces in the Ledger islands persistent, the
reads that waited ended, the pieces in the ports' streams dropped. -/
def discardReady (s : State) : State := dropStreams (clearRdy (fenceReadsDone (persistAll s)))

theorem discardReady_sameGuard (s : State) :
    SameGuard { s with keeper := { s.keeper with rdy := false } } (discardReady s) := by
  have hended := (persistAll_sameGuard s).trans (fenceReadsDone_sameGuard _)
  have hcleared := clearRdy_sameGuard (fenceReadsDone (persistAll s))
  obtain ⟨hnv, hkeeper, hauth, hdap, hmram, hclosed⟩ := hcleared
  exact ⟨hnv.trans hended.nv, by rw [← hended.keeper]; exact hkeeper, hauth.trans hended.auth,
    hdap.trans hended.dap, hmram.trans hended.mram, hclosed.trans hended.closed⟩

theorem discardReady_mem (s : State) : (discardReady s).ledger.mem = s.ledger.mem := by
  simp [discardReady]

theorem keeperDiscard_of_powered {s : State} (cause : Nat) (hram : s.keeper.ramStopped = false)
    (haux : s.keeper.vddAux = true) (hstate : s.keeper.pstate ≠ .p4) :
    keeperDiscard cause s =
      let t := keeperResetClears (coreOff (discardReady s))
      { t with conduct := ⟨.initial, .initial, .initial⟩, keeper := { t.keeper with nextCause := cause } } := by
  have hruns : ¬(s.keeper.ramStopped || !s.keeper.vddAux) = true := by simp [hram, haux]
  unfold keeperDiscard discardReady
  exact (if_neg hruns).trans (if_neg hstate)

/-- A Keeper reset of MODE DISCARD stops the core as its cause says. -/
theorem keeperDiscard_discarded {s u : State} (cause : Nat) (hram : s.keeper.ramStopped = false)
    (haux : s.keeper.vddAux = true) (hstate : s.keeper.pstate ≠ .p4) (hu : SameGuard s u)
    (hmem : u.ledger.mem = s.ledger.mem) : Discarded cause s (answered s (keeperDiscard cause u)) := by
  obtain ⟨hnv, hkeeper, -, -, hmram, -⟩ := hu
  have hready := discardReady_sameGuard u
  rw [keeperDiscard_of_powered (s := u) cause (by rwa [hkeeper]) (by rwa [hkeeper]) (by rwa [hkeeper])]
  have hkept : (coreOff (discardReady u)).mram = s.mram := hready.mram.trans hmram
  have hbytes : (coreOff (discardReady u)).ledger.mem = s.ledger.mem := (discardReady_mem u).trans hmem
  generalize hoff : coreOff (discardReady u) = off at hkept hbytes
  refine ⟨?_, ?_, rfl, ?_, ?_, ?_, ?_, hkept, ?_, ?_, hbytes, rfl⟩
  all_goals subst hoff
  · rfl
  · rfl
  · simp [keeperResetClears, coreOff, hready.keeper, hkeeper]
  · rfl
  · rfl
  · rfl
  · simp [keeperResetClears, hready.nv, hnv]
  · simp [keeperResetClears, hready.nv, hnv]

/-- Settles O9: it holds. -/
theorem discardStopsWithoutARoot : Obligations.DiscardStopsWithoutARoot := by
  unfold Obligations.DiscardStopsWithoutARoot
  refine ⟨fun s hram haux hstate => ⟨_, rfl, ?_⟩, fun r key s hram haux hstate hserves hreach hjudge => ?_⟩
  · exact keeperDiscard_discarded 3 hram haux hstate (u := cleared s) ⟨rfl, rfl, rfl, rfl, rfl, rfl⟩ rfl
  · refine ⟨_, answer_eq (keeperResetWrite_of_none _ hserves hreach hjudge), ?_⟩
    refine keeperDiscard_discarded 5 hram haux hstate ?_ (by simp)
    rw [wakeUp_frame]
    exact ⟨rfl, rfl, rfl, rfl, rfl, rfl⟩

end Sys2Proof.Machine
end

section
/-!
The steps of a Storm sequence: what its cut leaves as it is, and the root that it writes.
-/

namespace Sys2Proof.Machine

open Sys2Proof

/-! ### The Storm sequence -/

/-- What the steps of a Storm sequence before its cut leave as it is: the Keeper and its store, the mirror MRAM, the
bytes of the Ledger, the stand-alone durable objects and the bookkeeping of write-behind. -/
structure KeepsRoots (s t : State) : Prop where
  nv : t.nv = s.nv
  keeper : t.keeper = s.keeper
  mram : t.mram = s.mram
  mem : t.ledger.mem = s.ledger.mem
  g : t.dur.g = s.dur.g
  durab : t.durab = s.durab

theorem KeepsRoots.refl (s : State) : KeepsRoots s s := ⟨rfl, rfl, rfl, rfl, rfl, rfl⟩

theorem KeepsRoots.trans {s t u : State} (h : KeepsRoots s t) (k : KeepsRoots t u) : KeepsRoots s u :=
  ⟨k.nv.trans h.nv, k.keeper.trans h.keeper, k.mram.trans h.mram, k.mem.trans h.mem, k.g.trans h.g,
    k.durab.trans h.durab⟩

theorem KeepsRoots.foldl {α : Type} {f : State → α → State} (hf : ∀ s a, KeepsRoots s (f s a)) (l : List α)
    (s : State) : KeepsRoots s (l.foldl f s) :=
  foldl_rel .refl .trans hf l s

section
variable (s : State)

theorem modSlot_keepsRoots (tn : Nat) (c : Cls) (f : DSlot → DSlot) : KeepsRoots s (s.modSlot tn c f) :=
  ⟨rfl, rfl, rfl, rfl, rfl, rfl⟩

theorem modFabric_keepsRoots (f : Fabric → Fabric) : KeepsRoots s (s.modFabric f) := ⟨rfl, rfl, rfl, rfl, rfl, rfl⟩

theorem emit_keepsRoots (o : Output) : KeepsRoots s (s.emit o) := ⟨rfl, rfl, rfl, rfl, rfl, rfl⟩

theorem modPort_keepsRoots (p : Port) (f : PortState → PortState) : KeepsRoots s (s.modPort p f) := by
  constructor <;> simp

theorem modQVol_keepsRoots (q : Nat) (f : QVol → QVol) : KeepsRoots s (s.modQVol q f) :=
  ⟨rfl, rfl, rfl, rfl, rfl, rfl⟩

theorem answerRead_keepsRoots (r : Reader) (v : Word) : KeepsRoots s (s.answerRead r v) := by
  constructor <;> simp

theorem takeSelect_keepsRoots (m : Select) : KeepsRoots s (takeSelect m s) := by
  cases m
  all_goals exact ⟨rfl, rfl, rfl, rfl, rfl, rfl⟩

theorem judgeClaim_keepsRoots (r : Reader) (tn : Nat) (c : Cls) : KeepsRoots s (judgeClaim r tn c s) := by
  unfold judgeClaim
  split
  · exact answerRead_keepsRoots ..
  · split
    · exact answerRead_keepsRoots ..
    · exact (modSlot_keepsRoots ..).trans (modFabric_keepsRoots ..)

theorem judgeNext_keepsRoots (tn : Nat) (c : Cls) (ps : List Reader) : KeepsRoots s (judgeNext tn c ps s) := by
  induction ps generalizing s with
  | nil => exact modSlot_keepsRoots ..
  | cons p ps ih =>
    unfold judgeNext
    extract_lets
    split
    · exact (judgeClaim_keepsRoots ..).trans (modSlot_keepsRoots ..)
    · exact (judgeClaim_keepsRoots ..).trans (ih _)

theorem finishClaim_keepsRoots (tn : Nat) (c : Cls) (lost pane : Bool) :
    KeepsRoots s (finishClaim tn c lost pane s) := by
  unfold finishClaim
  extract_lets
  split
  · extract_lets t u
    have hanswered : KeepsRoots s t := (modSlot_keepsRoots ..).trans (answerRead_keepsRoots ..)
    refine KeepsRoots.trans ?_ (judgeNext_keepsRoots ..)
    subst u
    split
    · exact hanswered.trans (takeSelect_keepsRoots ..)
    · exact hanswered
  · exact .refl s

theorem stormSettle_keepsRoots (key : Nat) : KeepsRoots s (stormSettle s key) := by
  unfold stormSettle
  extract_lets tn c t d
  have hclaimed : KeepsRoots s t := by
    subst t
    split
    · exact finishClaim_keepsRoots ..
    · exact .refl s
  exact (hclaimed.trans (modSlot_keepsRoots ..)).trans (KeepsRoots.foldl (fun s r => answerRead_keepsRoots ..) _ _)

theorem creditWaitEnds_keepsRoots (p : Port) : KeepsRoots s (creditWaitEnds p s) := by
  unfold creditWaitEnds
  extract_lets
  split
  · exact modPort_keepsRoots ..
  · exact (modPort_keepsRoots ..).trans ⟨rfl, rfl, rfl, rfl, rfl, rfl⟩

theorem emitTo_keepsRoots (r : LinkReq) (p : Port) : KeepsRoots s (r.emitTo p s) := by
  refine (creditWaitEnds_keepsRoots s p).trans ?_
  cases r with
  | delivery id tn c sn pane wake => cases pane <;> cases wake <;> exact ⟨rfl, rfl, rfl, rfl, rfl, rfl⟩
  | completion => exact emit_keepsRoots ..
  | hostStore => exact emit_keepsRoots ..
  | itemRead => exact ⟨rfl, rfl, rfl, rfl, rfl, rfl⟩
  | ringFetch => exact ⟨rfl, rfl, rfl, rfl, rfl, rfl⟩
  | ledgerCopy => exact emit_keepsRoots ..

theorem issueAll_keepsRoots (p : Port) : KeepsRoots s (issueAll p s) := by
  unfold issueAll
  split
  · exact (modPort_keepsRoots ..).trans (KeepsRoots.foldl (fun s r => emitTo_keepsRoots s r p) _ _)
  · exact .refl s

theorem abortHatch_keepsRoots (cause : Nat) : KeepsRoots s (abortHatch cause s) := by
  unfold abortHatch
  split
  · exact .refl s
  · constructor <;> simp [releaseHatch]

theorem failLedgerReads_keepsRoots : KeepsRoots s (failLedgerReads s) := by
  refine ((KeepsRoots.foldl (fun s r => ?_) _ _).trans (KeepsRoots.foldl (fun s r => emit_keepsRoots ..) _ _)).trans
    ⟨rfl, rfl, rfl, rfl, rfl, rfl⟩
  constructor <;> simp

theorem pauseShift_keepsRoots (i dt : Nat) : KeepsRoots s (pauseShift i dt s) := by
  unfold pauseShift
  extract_lets
  split_ifs <;> exact ⟨rfl, rfl, rfl, rfl, rfl, rfl⟩

theorem releaseHalts_keepsRoots : KeepsRoots s (releaseHalts s) :=
  (KeepsRoots.foldl (f := fun s (p : Nat × Nat) => pauseShift p.1 (s.now + 1 - p.2) s)
    (fun s _ => pauseShift_keepsRoots s _ _) s.dap.haltedAt s).trans ⟨rfl, rfl, rfl, rfl, rfl, rfl⟩

theorem persisted_keepsRoots (p : Piece) : KeepsRoots s (persisted p s) := by
  constructor
  case mem => simp
  all_goals rfl

theorem persistAll_keepsRoots : KeepsRoots s (persistAll s) :=
  have hemptied (inbox : List Piece) : KeepsRoots s (s.modLedger fun l => { l with inbox := inbox }) :=
    ⟨rfl, rfl, rfl, rfl, rfl, rfl⟩
  (hemptied _).trans (KeepsRoots.foldl (f := fun s p => persisted p s) (fun s p => persisted_keepsRoots s p) _ _)

theorem dropStreams_keepsRoots : KeepsRoots s (dropStreams s) := ⟨rfl, rfl, rfl, rfl, rfl, rfl⟩

end

/-- Before its cut the Storm sequence settles what is under way; then the epoch advances and the storm is counted. -/
theorem stormCut_keeps (vhold : Nat) (s : State) :
    ∃ t, KeepsRoots { s with keeper := { s.keeper with pstate := .p3, rdy := false } } t ∧
      (stormCut vhold s).dur.g = { t.dur.g with
        epoch := t.dur.g.epoch + 1
        stormCount := satAdd 64 t.dur.g.stormCount 1
        vholdAtStorm := vhold % 65536 } ∧ stormCut vhold s = { t with dur := (stormCut vhold s).dur } := by
  unfold stormCut
  extract_lets _ halted _ t u v w owed x
  refine ⟨w, ?_, rfl, rfl⟩
  · have hcleared : KeepsRoots { s with keeper := { s.keeper with pstate := .p3, rdy := false } } (clearRdy t) := by
      refine KeepsRoots.trans ?_ (failLedgerReads_keepsRoots _)
      obtain ⟨hnv, hkeeper, hmram, hmem, hg, hdurab⟩ := releaseHalts_keepsRoots s
      exact ⟨hnv, by rw [← hkeeper], hmram, hmem, hg, hdurab⟩
    exact ((((hcleared.trans (abortHatch_keepsRoots _ 3)).trans (modFabric_keepsRoots ..)).trans
      (issueAll_keepsRoots _ .a)).trans (issueAll_keepsRoots _ .b)).trans
      (KeepsRoots.foldl stormSettle_keepsRoots _ _)

/-- What writes of lines to their next slots leave as it is: all but the slots with their spares and the bookkeeping
of write-behind; of the latter the map in force. -/
structure WritesSlots (s t : State) : Prop where
  frame : t = { s with mram := t.mram, durab := t.durab }
  current : t.durab.current = s.durab.current
  a0 : t.mram.a0 = s.mram.a0
  a1 : t.mram.a1 = s.mram.a1
  b0 : t.mram.b0 = s.mram.b0
  b1 : t.mram.b1 = s.mram.b1
  base : t.mram.base = s.mram.base

theorem WritesSlots.refl (s : State) : WritesSlots s s := ⟨rfl, rfl, rfl, rfl, rfl, rfl, rfl⟩

theorem WritesSlots.trans {s t u : State} (h : WritesSlots s t) (k : WritesSlots t u) : WritesSlots s u where
  frame := by
    rw [k.frame, h.frame]
  current := k.current.trans h.current
  a0 := k.a0.trans h.a0
  a1 := k.a1.trans h.a1
  b0 := k.b0.trans h.b0
  b1 := k.b1.trans h.b1
  base := k.base.trans h.base

theorem writeContexts_writesSlots (image : Durable) (s : State) : WritesSlots s (writeContexts image s) := by
  refine ⟨rfl, rfl, ?_, ?_, ?_, ?_, ?_⟩
  all_goals
    unfold writeContexts
    dsimp only
    split <;> rfl

theorem retireSlot_writesSlots (la : Nat) (s : State) : WritesSlots s (retireSlot la s) := by
  unfold retireSlot
  extract_lets
  split
  · exact .refl s
  · exact ⟨rfl, rfl, rfl, rfl, rfl, rfl, rfl⟩

theorem captureLine_writesSlots (failed : List Nat) (x : State × List Nat) (la : Nat) :
    WritesSlots x.1 (captureLine failed x la).1 := by
  obtain ⟨s, lost⟩ := x
  unfold captureLine
  extract_lets l bad
  split
  rename_i heq
  obtain ⟨rfl, rfl⟩ := heq
  split
  · exact ⟨rfl, rfl, rfl, rfl, rfl, rfl, rfl⟩
  · extract_lets t written _ u
    have hretired : WritesSlots s t := by
      subst t
      split
      · exact retireSlot_writesSlots ..
      · exact .refl s
    refine hretired.trans ?_
    subst u
    dsimp only
    split
    · exact .refl t
    · exact ⟨rfl, rfl, rfl, rfl, rfl, rfl, rfl⟩

/-- A fold of captured lines writes slots only. -/
theorem captureLines_writesSlots (failed : List Nat) (las : List Nat) (x : State × List Nat) :
    WritesSlots x.1 (las.foldl (captureLine failed) x).1 := by
  induction las generalizing x with
  | nil => exact .refl x.1
  | cons la las ih => exact (captureLine_writesSlots failed x la).trans (ih _)

theorem captureStripes_writesSlots (failed : List Nat) (stripes : List (List Nat)) (x : State × List Nat) :
    WritesSlots x.1 (stripes.foldl (fun x stripe => stripe.foldl (captureLine failed) x) x).1 := by
  induction stripes generalizing x with
  | nil => exact .refl x.1
  | cons stripe stripes ih => exact (captureLines_writesSlots failed stripe x).trans (ih _)

theorem capture_writesSlots (i : StormInput) (s : State) : WritesSlots s (capture i s).1 :=
  ((writeContexts_writesSlots s.dur s).trans (captureLines_writesSlots i.failed _ (writeContexts s.dur s, []))).trans
    (captureStripes_writesSlots i.failed _ _)

/-- The Storm root: both copies are written, as far as power lasts, with one KIND 1 root of the epoch. -/
theorem stormRoot_spec (i : StormInput) (s : State) :
    ∃ (m : Mram) (head : RootHead) (map : SlotMap) (lost retired : List Nat),
      m.a0 = s.mram.a0 ∧ m.a1 = s.mram.a1 ∧ m.b0 = s.mram.b0 ∧ m.b1 = s.mram.b1 ∧ m.base = s.mram.base ∧
      head.kind = .storm ∧ head.epoch = s.dur.g.epoch ∧ head.prevEpoch = s.dur.g.lastRootEpoch ∧
      head.captureUs = i.captureUs % 2 ^ 32 ∧ map.context = !s.durab.current.context ∧
      (stormRoot i s).mram = m.writeBoth (Place.of head map lost retired) i.ending ∧
      stormRoot i s = { s with mram := (stormRoot i s).mram, durab := (stormRoot i s).durab } := by
  have h := capture_writesSlots i s
  unfold stormRoot
  extract_lets lines before
  generalize capture i s = x at h ⊢
  obtain ⟨t, lost⟩ := x
  obtain ⟨hframe, hcurrent, ha0, ha1, hb0, hb1, hbase⟩ := h
  dsimp only at hframe hcurrent ha0 ha1 hb0 hb1 hbase ⊢
  have hg : t.dur = s.dur := by rw [hframe]
  refine ⟨t.mram, _, _, lost, _, ha0, ha1, hb0, hb1, hbase, ?_, ?_, ?_, ?_, ?_, rfl, ?_⟩
  · rfl
  · exact congrArg (·.g.epoch) hg
  · exact congrArg (·.g.lastRootEpoch) hg
  · rfl
  · exact congrArg (!·.context) hcurrent
  · rw [hframe]

end Sys2Proof.Machine
end

section
/-!
A Storm sequence ends in Off.
-/

namespace Sys2Proof.Machine

open Sys2Proof

/-- What a Storm sequence that runs to its last step leaves and writes. -/
structure StormWrote (i : StormInput) (s t : State) : Prop where
  keeper : t.keeper = { s.keeper with pstate := .p3, rdy := false }
  nv : t.nv = s.nv
  mem : t.ledger.mem = s.ledger.mem
  unmirrored : s.dur.g.mirrorEnable = false ∨ s.keeper.scan = true → t.mram = s.mram
  mirrored : s.dur.g.mirrorEnable = true → s.keeper.scan = false →
    ∃ (m : Mram) (head : RootHead) (map : SlotMap) (lost retired : List Nat),
      m.a0 = s.mram.a0 ∧ m.a1 = s.mram.a1 ∧ m.b0 = s.mram.b0 ∧ m.b1 = s.mram.b1 ∧ m.base = s.mram.base ∧
      head.kind = .storm ∧ head.epoch = s.dur.g.epoch + 1 ∧ head.prevEpoch = s.dur.g.lastRootEpoch ∧
      head.captureUs = i.captureUs % 2 ^ 32 ∧ map.context = !s.durab.current.context ∧
      t.mram = m.writeBoth (Place.of head map lost retired) i.ending

/-- The state in which a Storm sequence writes its root: the cut taken, the pieces in the Ledger islands persistent, those
in the streams dropped. -/
def stormReady (i : StormInput) (s : State) : State := dropStreams (persistAll (stormCut i.vhold10mV s))

theorem stormReady_keeps (i : StormInput) (s : State) :
    (stormReady i s).keeper = { s.keeper with pstate := .p3, rdy := false } ∧ (stormReady i s).nv = s.nv ∧
      (stormReady i s).ledger.mem = s.ledger.mem ∧ (stormReady i s).mram = s.mram ∧
      (stormReady i s).durab = s.durab ∧ (stormReady i s).dur.g.mirrorEnable = s.dur.g.mirrorEnable ∧
      (stormReady i s).dur.g.epoch = s.dur.g.epoch + 1 ∧
      (stormReady i s).dur.g.lastRootEpoch = s.dur.g.lastRootEpoch := by
  obtain ⟨t, hkeeps, hg, hcut⟩ := stormCut_keeps i.vhold10mV s
  have hready : KeepsRoots (stormCut i.vhold10mV s) (stormReady i s) :=
    (persistAll_keepsRoots _).trans (dropStreams_keepsRoots _)
  have hdurab : (stormCut i.vhold10mV s).durab = t.durab := by rw [hcut]
  have hkeeper : (stormCut i.vhold10mV s).keeper = t.keeper := by rw [hcut]
  have hnv : (stormCut i.vhold10mV s).nv = t.nv := by rw [hcut]
  have hmem : (stormCut i.vhold10mV s).ledger.mem = t.ledger.mem := by rw [hcut]
  have hmram : (stormCut i.vhold10mV s).mram = t.mram := by rw [hcut]
  refine ⟨hready.keeper.trans (hkeeper.trans hkeeps.keeper), hready.nv.trans (hnv.trans hkeeps.nv),
    hready.mem.trans (hmem.trans hkeeps.mem), hready.mram.trans (hmram.trans hkeeps.mram),
    hready.durab.trans (hdurab.trans hkeeps.durab), ?_⟩
  rw [hready.g, hg, hkeeps.g]
  exact ⟨rfl, rfl, rfl⟩

theorem stormSequence_eq (i : StormInput) (s : State) :
    stormSequence i s =
      let t := if (stormReady i s).dur.g.mirrorEnable && !s.keeper.scan then stormRoot i (stormReady i s)
        else stormReady i s
      { t with now := t.now + 1000 * i.captureUs } := rfl

theorem stormSequence_wrote (i : StormInput) (s : State) : StormWrote i s (stormSequence i s) := by
  obtain ⟨hkeeper, hnv, hmem, hmram, hdurab, hmirror, hepoch, hlast⟩ := stormReady_keeps i s
  obtain ⟨m, head, map, lost, retired, ha0, ha1, hb0, hb1, hbase, hkind, hat, hprev, hus, hmap, hroot, hframe⟩ :=
    stormRoot_spec i (stormReady i s)
  rw [stormSequence_eq]
  generalize stormReady i s = t at *
  generalize stormRoot i t = r at *
  by_cases h : (t.dur.g.mirrorEnable && !s.keeper.scan) = true
  · rw [if_pos h]
    simp only [Bool.and_eq_true, Bool.not_eq_true'] at h
    refine ⟨?_, ?_, ?_, fun hoff => ?_, fun _ _ => ⟨m, head, map, lost, retired, ?_⟩⟩
    · exact (congrArg State.keeper hframe).trans hkeeper
    · exact (congrArg State.nv hframe).trans hnv
    · exact (congrArg (·.ledger.mem) hframe).trans hmem
    · rw [← hmirror, h.1, h.2] at hoff
      simp at hoff
    · rw [← hmram, ← hepoch, ← hlast, ← hdurab]
      exact ⟨ha0, ha1, hb0, hb1, hbase, hkind, hat, hprev, hus, hmap, hroot⟩
  · rw [if_neg h]
    refine ⟨hkeeper, hnv, hmem, fun _ => hmram, fun hon hscan => absurd ?_ h⟩
    simp [hmirror, hon, hscan]

theorem runStorm_ended {i : StormInput} {s u : State} (hnv : u.nv = s.nv) (hmram : u.mram = s.mram)
    (hmem : u.ledger.mem = s.ledger.mem) (hg : u.dur.g = s.dur.g) (hdurab : u.durab = s.durab)
    (hscan : u.keeper.scan = s.keeper.scan) : StormEnded i s (answered s (runStorm i u)) := by
  obtain ⟨hkeeper, hkept, hbytes, hoff, hon⟩ := stormSequence_wrote i u
  unfold runStorm
  generalize stormSequence i u = t at *
  rw [hmram, hg, hscan] at hoff
  rw [hmram, hg, hscan, hdurab] at hon
  exact ⟨rfl, rfl, rfl, rfl, rfl, rfl, rfl, rfl, rfl, (congrArg NvStore.sec hkept).trans (congrArg NvStore.sec hnv),
    (congrArg NvStore.ownerKey hkept).trans (congrArg NvStore.ownerKey hnv), hbytes.trans hmem, rfl, hoff, hon⟩

theorem runStorm_keeper (i : StormInput) (u : State) :
    (runStorm i u).keeper.nextCause = 2 ∧ (runStorm i u).keeper.pwrfail = u.keeper.pwrfail ∧
      (runStorm i u).keeper.pgood = u.keeper.pgood ∧ (runStorm i u).keeper.deadbolts = u.keeper.deadbolts := by
  have hkeeper := (stormSequence_wrote i u).keeper
  have hfail := congrArg Keeper.pwrfail hkeeper
  have hgood := congrArg Keeper.pgood hkeeper
  have hdeadbolts := congrArg Keeper.deadbolts hkeeper
  unfold runStorm
  generalize stormSequence i u = t at *
  exact ⟨rfl, hfail, hgood, hdeadbolts⟩

/-- What a Keeper reset clears is nothing of what a Storm sequence ends with. -/
theorem StormEnded.keeperResetClears {i : StormInput} {s t : State} (h : StormEnded i s (answered s t)) (cause : Nat) :
    StormEnded i s (answered s { keeperResetClears t with
      keeper := { (keeperResetClears t).keeper with nextCause := cause } }) := by
  obtain ⟨hp4, hrdy, hcore, hend, hdur, hfabric, hhatch, ha, hb, hsec, howner, hmem, hpending, hoff, hon⟩ := h
  exact ⟨hp4, hrdy, hcore, hend, hdur, hfabric, hhatch, ha, hb, hsec, howner, hmem, hpending, hoff, hon⟩

theorem stormOrStop_of_runs {s : State} (i : StormInput) (hram : s.keeper.ramStopped = false)
    (hlock : s.keeper.lockStopped = false) : stormOrStop i s = runStorm i s := by
  have hram' : ¬s.keeper.ramStopped = true := by simp [hram]
  have hlock' : ¬s.keeper.lockStopped = true := by simp [hlock]
  unfold stormOrStop
  exact (if_neg hram').trans (if_neg hlock')

theorem keeperCapture_of_runs {s : State} (i : StormInput) (hrun : s.inRun = true) (hram : s.keeper.ramStopped = false)
    (hlock : s.keeper.lockStopped = false) :
    keeperCapture i s =
      let t := keeperResetClears (runStorm i s)
      { t with keeper := { t.keeper with nextCause := if i.ending = .complete then 4 else 2 } } := by
  unfold keeperCapture
  exact if_pos (by simp [hrun, hram, hlock])

/-- A Keeper reset of MODE CAPTURE is a Storm sequence, whose next release has the reset's cause where power lasted. -/
theorem keeperCapture_ended {i : StormInput} {s u : State} (hrun : u.inRun = true)
    (hram : u.keeper.ramStopped = false) (hlock : u.keeper.lockStopped = false) (hnv : u.nv = s.nv)
    (hmram : u.mram = s.mram) (hmem : u.ledger.mem = s.ledger.mem) (hg : u.dur.g = s.dur.g)
    (hdurab : u.durab = s.durab) (hkeeper : u.keeper = s.keeper) :
    StormEnded i s (answered s (keeperCapture i u)) ∧
      (keeperCapture i u).keeper.nextCause = (if i.ending = .complete then 4 else 2) ∧
      (keeperCapture i u).keeper.deadbolts = s.keeper.deadbolts &&& 0b10110 := by
  have hended : StormEnded i s (answered s (runStorm i u)) :=
    runStorm_ended hnv hmram hmem hg hdurab (congrArg Keeper.scan hkeeper)
  obtain ⟨-, -, -, hdeadbolts⟩ := runStorm_keeper i u
  rw [keeperCapture_of_runs i hrun hram hlock]
  generalize runStorm i u = t at *
  rw [← hkeeper]
  exact ⟨hended.keeperResetClears _, rfl, congrArg (· &&& 0b10110) hdeadbolts⟩

/-- A qualified PWRFAIL# with VDD_AUX, in a controller that runs, begins a Storm sequence. -/
theorem exec_pwrfail_of_runs {s : State} (storm : StormInput) (hrun : s.inRun = true)
    (hram : s.keeper.ramStopped = false) (hlock : s.keeper.lockStopped = false) (haux : s.keeper.vddAux = true) :
    exec (.pwrfail storm) s = .next (answered s (runStorm storm
      { cleared s with keeper := { s.keeper with pwrfail := true } })) := by
  change execPwrfail storm s = _
  unfold execPwrfail
  refine answer_eq ?_
  have haux' : ¬(!(cleared s).keeper.vddAux) = true := by simp [haux]
  exact (if_neg haux').trans ((if_pos hrun).trans (stormOrStop_of_runs storm hram hlock))

theorem exec_pgoodDeassert_of_runs {s : State} (storm : StormInput) (hrun : s.inRun = true)
    (hram : s.keeper.ramStopped = false) (hlock : s.keeper.lockStopped = false) (hfail : s.keeper.pwrfail = false) :
    exec (.pgoodDeassert storm) s = .next (answered s (runStorm storm
      { cleared s with keeper := { s.keeper with pgood := false } })) := by
  change execPgoodDeassert storm s = _
  unfold execPgoodDeassert
  refine answer_eq ((if_pos ?_).trans (stormOrStop_of_runs storm hram hlock))
  rw [Bool.and_eq_true]
  exact ⟨hrun, by simp [hfail]⟩

/-- Settles O10: it holds. -/
theorem stormEndsInOff : Obligations.StormEndsInOff := by
  unfold Obligations.StormEndsInOff
  intro storm s hrun hram hlock
  refine ⟨fun haux => ⟨_, exec_pwrfail_of_runs storm hrun hram hlock haux, ?_⟩,
    fun hfail => ⟨_, exec_pgoodDeassert_of_runs storm hrun hram hlock hfail, ?_⟩,
    fun r key hserves hreach hjudge => ⟨_, answer_eq (keeperResetWrite_of_none _ hserves hreach hjudge), ?_⟩⟩
  · obtain ⟨hcause, hfail, -, hdeadbolts⟩ :=
      runStorm_keeper storm { cleared s with keeper := { s.keeper with pwrfail := true } }
    exact ⟨hfail, runStorm_ended rfl rfl rfl rfl rfl rfl, hcause, hdeadbolts⟩
  · obtain ⟨hcause, -, hgood, hdeadbolts⟩ :=
      runStorm_keeper storm { cleared s with keeper := { s.keeper with pgood := false } }
    exact ⟨hgood, runStorm_ended rfl rfl rfl rfl rfl rfl, hcause, hdeadbolts⟩
  · rw [wakeUp_frame]
    exact keeperCapture_ended hrun hram hlock rfl rfl rfl rfl rfl rfl

end Sys2Proof.Machine
end

section
/-!
The steps of a Store bank, and the restoring of a root: what they leave as it is.
-/

namespace Sys2Proof.Machine

open Sys2Proof

/-! ### What a Store bank's step changes -/

/-- A step of a Store bank changes source records, the lines it makes dirty and what waits between islands, nothing
else. -/
def BankStep (s t : State) : Prop :=
  t = { s with
    dur := { s.dur with sources := t.dur.sources }
    durab := { s.durab with dirty := t.durab.dirty }
    fabric := t.fabric }

theorem BankStep.refl (s : State) : BankStep s s := rfl

theorem BankStep.trans {s t u : State} (h : BankStep s t) (k : BankStep t u) : BankStep s u := by
  unfold BankStep at *
  rw [k, h]

theorem BankStep.foldl {α : Type} {f : State → α → State} (hf : ∀ s a, BankStep s (f s a)) (l : List α)
    (s : State) : BankStep s (l.foldl f s) :=
  foldl_rel .refl .trans hf l s

section
variable (s : State)

theorem modFabric_bankStep (f : Fabric → Fabric) : BankStep s (s.modFabric f) := rfl

theorem putSrc_bankStep (sn : Nat) (r : Source) : BankStep s (s.putSrc sn r) := rfl

theorem arrive_bankStep (g : Nat) (x : Sent Event) : BankStep s (s.arrive g x) := rfl

theorem submit_bankStep (i g : Nat) (e : Event) : BankStep s (s.submit i g e) := by
  unfold State.submit
  split <;> rfl

theorem raise_bankStep (sn : Nat) : BankStep s (s.raise sn) := submit_bankStep ..

theorem notifyRoute_bankStep (sn : Nat) (t : Option Nat) (c : Cls) (k : Option Cand) :
    BankStep s (s.notifyRoute sn t c k) := by
  cases t <;> rfl

theorem maskTimed_bankStep (sn : Nat) (was now : Bool) : BankStep s (maskTimed sn was now s) := by
  unfold maskTimed
  split <;> rfl

theorem holderReset_bankStep (tn : Nat) (c : Cls) (sn : Nat) : BankStep s (holderReset tn c sn s) := by
  unfold holderReset
  split
  · exact (putSrc_bankStep ..).trans (notifyRoute_bankStep ..)
  · rfl

theorem applyRoute_bankStep (n : Route) : BankStep s (applyRoute n s) := by
  unfold applyRoute
  extract_lets r ipi target room cls r' t
  have hput : BankStep s t := (putSrc_bankStep ..).trans (maskTimed_bankStep ..)
  split_ifs
  · rfl
  · exact hput.trans (notifyRoute_bankStep ..)
  · exact hput.trans ((notifyRoute_bankStep ..).trans (notifyRoute_bankStep ..))
  · exact hput

theorem eoiTransition_bankStep (sn : Nat) : BankStep s (eoiTransition sn s) := by
  unfold eoiTransition
  extract_lets
  split
  · exact (putSrc_bankStep ..).trans (notifyRoute_bankStep ..)
  · exact putSrc_bankStep ..

theorem applyEvent_bankStep (sn : Nat) : BankStep s (applyEvent sn s) := by
  unfold applyEvent
  extract_lets
  split
  · exact (putSrc_bankStep ..).trans (notifyRoute_bankStep ..)
  · rfl
  · split
    · rfl
    · exact putSrc_bankStep ..

/-- A held source released by a reset: a Store bank's step, after which the target may leave the flush barrier. -/
theorem releaseSource_cases (barrier : Bool) (tn : Nat) (c : Cls) (sn : Nat) :
    ∃ t, BankStep s t ∧ (releaseSource barrier tn c sn s = t ∨
      barrier = true ∧ releaseSource barrier tn c sn s = flushLeave tn .reset t) := by
  unfold releaseSource
  split
  · exact ⟨s, .refl s, .inl rfl⟩
  · extract_lets t r u
    have hreset : BankStep s t := holderReset_bankStep ..
    have hmoved : BankStep t u := by
      subst u
      split
      · rfl
      · split
        · exact applyRoute_bankStep ..
        · rfl
    refine ⟨u, hreset.trans hmoved, ?_⟩
    split
    · rename_i h
      exact .inr ⟨(Bool.and_eq_true_iff.mp h).1, rfl⟩
    · exact .inl rfl

theorem releaseSource_bankStep (tn : Nat) (c : Cls) (sn : Nat) : BankStep s (releaseSource false tn c sn s) := by
  obtain ⟨t, hstep, h | ⟨hfalse, -⟩⟩ := releaseSource_cases s false tn c sn
  · rwa [h]
  · exact absurd hfalse (by decide)

end

/-! ### The restoring of a root -/

/-- What follows the restored image leaves as it is: the Keeper, the mirror MRAM, the stand-alone durable objects, the
queues' volatile part, the time and whether the ports may train. -/
structure KeepsRestored (s t : State) : Prop where
  now : t.now = s.now
  keeper : t.keeper = s.keeper
  mram : t.mram = s.mram
  g : t.dur.g = s.dur.g
  queues : t.queues = s.queues
  readyA : t.portA.ready = s.portA.ready
  readyB : t.portB.ready = s.portB.ready

theorem KeepsRestored.refl (s : State) : KeepsRestored s s := ⟨rfl, rfl, rfl, rfl, rfl, rfl, rfl⟩

theorem KeepsRestored.trans {s t u : State} (h : KeepsRestored s t) (k : KeepsRestored t u) : KeepsRestored s u :=
  ⟨k.now.trans h.now, k.keeper.trans h.keeper, k.mram.trans h.mram, k.g.trans h.g, k.queues.trans h.queues,
    k.readyA.trans h.readyA, k.readyB.trans h.readyB⟩

theorem KeepsRestored.foldl {α : Type} {f : State → α → State} (hf : ∀ s a, KeepsRestored s (f s a)) (l : List α)
    (s : State) : KeepsRestored s (l.foldl f s) :=
  foldl_rel .refl .trans hf l s

theorem BankStep.keepsRestored {s t : State} (h : BankStep s t) : KeepsRestored s t := by
  unfold BankStep at h
  rw [h]
  exact ⟨rfl, rfl, rfl, rfl, rfl, rfl, rfl⟩

section
variable (s : State)

theorem recoverTargets_keepsRestored : KeepsRestored s (recoverTargets s) := by
  unfold recoverTargets
  extract_lets active t
  have hreleased : KeepsRestored s t := (BankStep.foldl (fun s _ => releaseSource_bankStep s ..) _ _).keepsRestored
  exact hreleased.trans (modFabric_bankStep ..).keepsRestored

theorem notifyPending_keepsRestored : KeepsRestored s (notifyPending s) :=
  (BankStep.foldl (fun s _ => notifyRoute_bankStep s ..) _ _).keepsRestored

theorem raiseAgain_keepsRestored (e : Event) : KeepsRestored s (raiseAgain s e) := by
  unfold raiseAgain
  split
  · exact (raise_bankStep ..).keepsRestored
  · exact (submit_bankStep ..).keepsRestored
  · exact .refl s

theorem mirrorFault_keepsRestored (c : Nat) : KeepsRestored s (mirrorFault c s) := by
  refine KeepsRestored.trans ?_ (raise_bankStep ..).keepsRestored
  exact ⟨rfl, rfl, rfl, rfl, rfl, rfl, rfl⟩

theorem mirrorFaults_keepsRestored (cs : List Nat) : KeepsRestored s (mirrorFaults cs s) :=
  KeepsRestored.foldl (fun s c => mirrorFault_keepsRestored s c) _ _

theorem backlogAll_keepsRestored : KeepsRestored s (backlogAll s) := by
  unfold backlogAll
  extract_lets
  split
  · exact .refl s
  · exact ⟨rfl, rfl, rfl, rfl, rfl, rfl, rfl⟩

/-- What follows the restored image, with the queues' volatile part at its values after recovery. -/
theorem restored_keepsRestored (owed : List Event) (cs : List Nat) :
    KeepsRestored (recoverQueues s)
      (let t := notifyPending (recoverTargets (lanesAfterRecovery (recoverQueues s)))
       backlogAll (mirrorFaults cs (owed.foldl raiseAgain (t.modDur fun d => { d with owedRaises := [] })))) := by
  extract_lets t
  have hlanes : KeepsRestored (recoverQueues s) (lanesAfterRecovery (recoverQueues s)) :=
    ⟨rfl, rfl, rfl, rfl, rfl, rfl, rfl⟩
  have hnotified : KeepsRestored (recoverQueues s) t :=
    (hlanes.trans (recoverTargets_keepsRestored _)).trans (notifyPending_keepsRestored _)
  have howed : KeepsRestored t (t.modDur fun d => { d with owedRaises := [] }) := ⟨rfl, rfl, rfl, rfl, rfl, rfl, rfl⟩
  exact (((hnotified.trans howed).trans (KeepsRestored.foldl raiseAgain_keepsRestored _ _)).trans
    (mirrorFaults_keepsRestored _ cs)).trans (backlogAll_keepsRestored _)

/-- The restored root gives the epoch; every queue is disabled. -/
theorem restoreRoot_spec (b : BootInput) (c : Chosen) (p : Place) :
    (restoreRoot b c p s).now = s.now ∧ (restoreRoot b c p s).keeper = s.keeper ∧
      (restoreRoot b c p s).mram = s.mram ∧
      (restoreRoot b c p s).dur.g.epoch = p.head.epoch ∧
      (restoreRoot b c p s).queues.vol = (recoverQueues s).queues.vol ∧
      (restoreRoot b c p s).portA.ready = s.portA.ready ∧ (restoreRoot b c p s).portB.ready = s.portB.ready := by
  unfold restoreRoot
  split
  rename_i d lostLas _
  extract_lets
  obtain ⟨hnow, hkeeper, hmram, hg, hqueues, ha, hb⟩ := restored_keepsRestored _ _ _
  refine ⟨hnow, hkeeper, hmram, ?_, ?_, ha, hb⟩
  · exact (congrArg Globals.epoch hg).trans rfl
  · exact congrArg _ hqueues

end

end Sys2Proof.Machine
end

section
/-!
The Keeper's release.
-/

namespace Sys2Proof.Machine

open Sys2Proof

/-! ### The Keeper's release -/

/-- The Keeper's check of its store at the release leaves all but the store, the mirror MRAM, the Ledger and the
Keeper's memory of a tamper as it is. -/
def StoreChecked (s t : State) : Prop :=
  t = { s with
    keeper := { s.keeper with tampered := t.keeper.tampered, zeroizing := t.keeper.zeroizing }
    nv := t.nv
    mram := t.mram
    ledger := t.ledger }

theorem StoreChecked.trans {s t u : State} (h : StoreChecked s t) (k : StoreChecked t u) : StoreChecked s u := by
  unfold StoreChecked at *
  rw [k, h]

theorem storeRead_storeChecked (b : BootInput) (s : State) : StoreChecked s (storeRead b s) := by
  unfold storeRead
  split <;> rfl

theorem markRecorded_storeChecked (s : State) : StoreChecked s (markRecorded s) := by
  unfold markRecorded
  split <;> rfl

theorem zeroizationBegun_storeChecked (s : State) : StoreChecked s (zeroizationBegun s) := by
  unfold zeroizationBegun
  dsimp only
  split_ifs <;> rfl

theorem bootStore_storeChecked (b : BootInput) (s : State) : StoreChecked s (bootStore b s) :=
  ((storeRead_storeChecked b s).trans (markRecorded_storeChecked _)).trans (zeroizationBegun_storeChecked _)

theorem restoreState_of_none {b : BootInput} {s : State}
    (h : (chooseRoot b (s.mram.marked b.badPlaces)).root = none) :
    restoreState b s = { s with
      mram := s.mram.marked b.badPlaces
      dur := .initial
      keeper := { s.keeper with restoring := true, restoreKind := .mirrorStart } } := by
  unfold restoreState
  simp only [h]
  rfl

theorem restoreState_of_some {b : BootInput} {s : State} {p : Place}
    (h : (chooseRoot b (s.mram.marked b.badPlaces)).root = some p) :
    restoreState b s =
      { restoreRoot b (chooseRoot b (s.mram.marked b.badPlaces)) p { s with mram := s.mram.marked b.badPlaces } with
        keeper := { s.keeper with restoring := true, restoreKind := .recovery } } := by
  unfold restoreState
  simp only [h]

/-- What is listed for every key, and unlisted, is read. -/
theorem mget_map_of {α : Type} {P : α → Prop} {d : α} {f : Nat → α} (hd : P d) (hf : ∀ i, P (f i)) (l : List Nat)
    (k : Nat) : P (mget d (l.map fun i => (i, f i)) k) := by
  induction l with
  | nil => exact hd
  | cons i l ih =>
    simp only [List.map_cons, mget]
    split
    · exact hf i
    · exact ih

/-- After recovery every queue is disabled (R449). -/
theorem recoverQueues_disabled (s : State) (q : Nat) : ((recoverQueues s).qvol q).state = .disabled :=
  mget_map_of (P := fun v : QVol => v.state = .disabled) rfl (fun _ => rfl) _ q

/-- The durable state restored: a root's, or the first boot's. -/
def Restored (b : BootInput) (t : State) : Prop :=
  match (chooseRoot b t.mram).root with
  | none => t.dur = .initial ∧ t.keeper.restoreKind = .mirrorStart
  | some p => t.dur.g.epoch = p.head.epoch ∧ t.keeper.restoreKind = .recovery ∧
      ∀ q, q < 256 → (t.qvol q).state = .disabled

theorem restoreState_spec (b : BootInput) (s : State) :
    Restored b (restoreState b s) ∧ (restoreState b s).now = s.now ∧
      (∃ kind, (restoreState b s).keeper = { s.keeper with restoring := true, restoreKind := kind }) ∧
      (restoreState b s).portA.ready = s.portA.ready ∧ (restoreState b s).portB.ready = s.portB.ready := by
  unfold Restored
  cases hroot : (chooseRoot b (s.mram.marked b.badPlaces)).root with
  | none =>
    rw [restoreState_of_none hroot]
    dsimp only
    rw [hroot]
    exact ⟨⟨rfl, rfl⟩, rfl, ⟨_, rfl⟩, rfl, rfl⟩
  | some p =>
    obtain ⟨hnow, hkeeper, hmram, hepoch, hvol, ha, hb⟩ := restoreRoot_spec
      { s with mram := s.mram.marked b.badPlaces } b (chooseRoot b (s.mram.marked b.badPlaces)) p
    rw [restoreState_of_some hroot]
    generalize restoreRoot b (chooseRoot b (s.mram.marked b.badPlaces)) p
      { s with mram := s.mram.marked b.badPlaces } = t at *
    dsimp only at hmram ⊢
    rw [hmram, hroot]
    refine ⟨⟨hepoch, rfl, fun q hq => ?_⟩, hnow, ⟨_, rfl⟩, ha, hb⟩
    have hq : t.qvol q = (recoverQueues s).qvol q := congrArg (mget QVol.initial · q) hvol
    exact (congrArg QVol.state hq).trans (recoverQueues_disabled s q)

/-- The state in which the Keeper starts the core (R776): what a pending Keeper reset clears is cleared, the volatile
state gone, the ports free to train where PERST# allows it. -/
def coreStarted (s : State) : State :=
  let s := if s.keeper.pendingReset.isSome then
      { keeperResetClears s with conduct := ⟨.initial, .initial, .initial⟩ }
    else s
  let s := { coreOff s with conduct := s.conduct }
  { s with
    portA := { s.portA with ready := !s.portA.perst }
    portB := { s.portB with ready := !s.portB.perst }
    keeper := { s.keeper with
      pstate := .p5
      vddCore := true
      vddio := true
      pwrfail := false
      pendingReset := none
      stormEndAt := none
      nextCause := 2 } }

theorem release_eq (b : BootInput) (s : State) :
    release b s =
      let t := restoreState b (bootStore b
        { coreStarted s with durab := { (coreStarted s).durab with warn := (coreStarted s).keeper.pwrwarn } })
      { t with keeper := { t.keeper with
        holdupLow := decide (b.vholdMv < 5000)
        resetCause := { cause := s.keeper.pendingReset.getD s.keeper.nextCause
                        recovered := t.keeper.restoreKind = .recovery
                        holdupLow := decide (b.vholdMv < 5000)
                        ms := (t.now - t.keeper.pgoodAt) / 1000000 % 65536 } } } := rfl

theorem coreStarted_keeper (s : State) :
    (coreStarted s).keeper.pstate = .p5 ∧ (coreStarted s).keeper.rdy = false ∧
      (coreStarted s).keeper.vddCore = true ∧ (coreStarted s).keeper.pendingReset = none ∧
      (coreStarted s).keeper.stormEndAt = none ∧ (coreStarted s).portA.ready = !s.portA.perst ∧
      (coreStarted s).portB.ready = !s.portB.perst := by
  unfold coreStarted
  dsimp only
  refine ⟨rfl, rfl, rfl, rfl, rfl, ?_, ?_⟩
  · split <;> rfl
  · split <;> rfl

theorem release_released {b : BootInput} {s u : State} (hkeeper : u.keeper = s.keeper)
    (ha : u.portA.perst = s.portA.perst) (hb : u.portB.perst = s.portB.perst) :
    Released b s (answered s (release b u)) := by
  obtain ⟨hp5, hrdy, hcore, hpending, hend, hreadyA, hreadyB⟩ := coreStarted_keeper u
  have hcause : u.keeper.pendingReset.getD u.keeper.nextCause = s.keeper.pendingReset.getD s.keeper.nextCause := by
    rw [hkeeper]
  rw [release_eq, hcause]
  generalize hstart : ({ coreStarted u with
    durab := { (coreStarted u).durab with warn := (coreStarted u).keeper.pwrwarn } } : State) = v
  have hvKeeper : v.keeper = (coreStarted u).keeper := by rw [← hstart]
  have hvA : v.portA = (coreStarted u).portA := by rw [← hstart]
  have hvB : v.portB = (coreStarted u).portB := by rw [← hstart]
  rw [← hvKeeper] at hp5 hrdy hcore hpending hend
  rw [← hvA, ha] at hreadyA
  rw [← hvB, hb] at hreadyB
  clear hstart hvKeeper hvA hvB
  have hchecked := bootStore_storeChecked b v
  generalize bootStore b v = w at *
  obtain ⟨hrestored, -, ⟨kind, hrestoring⟩, hwA, hwB⟩ := restoreState_spec b w
  generalize restoreState b w = t at *
  unfold StoreChecked at hchecked
  rw [hchecked] at hrestoring hwA hwB
  refine ⟨?_, ?_, ?_, ?_, ?_, ?_, rfl, rfl, hwA.trans hreadyA, hwB.trans hreadyB, rfl, hrestored⟩
  · exact (congrArg Keeper.pstate hrestoring).trans hp5
  · exact (congrArg Keeper.rdy hrestoring).trans hrdy
  · exact (congrArg Keeper.vddCore hrestoring).trans hcore
  · exact congrArg Keeper.restoring hrestoring
  · exact (congrArg Keeper.pendingReset hrestoring).trans hpending
  · exact (congrArg Keeper.stormEndAt hrestoring).trans hend

theorem release_now (b : BootInput) (s : State) : (release b s).now = s.now := by
  rw [release_eq]
  dsimp only
  rw [(restoreState_spec b _).2.1, bootStore_storeChecked]
  unfold coreStarted
  dsimp only
  split <;> rfl

/-- The time that passes leaves a port's PERST# ball as it is. -/
theorem elapseTo_perst (at' : Nat) (s : State) :
    (s.elapseTo at').portA.perst = s.portA.perst ∧ (s.elapseTo at').portB.perst = s.portB.perst := by
  rcases elapseTo_eq at' s with h | h
  · simp [h]
  · rw [h, elapse_frame]
    exact ⟨rfl, rfl⟩

theorem waitVhold_kept (b : BootInput) (s : State) :
    (waitVhold b s).keeper = s.keeper ∧ (waitVhold b s).portA.perst = s.portA.perst ∧
      (waitVhold b s).portB.perst = s.portB.perst ∧ s.now ≤ (waitVhold b s).now := by
  unfold waitVhold
  split
  · exact ⟨elapseTo_keeper .., (elapseTo_perst ..).1, (elapseTo_perst ..).2, by simp⟩
  · exact ⟨rfl, rfl, rfl, Nat.le_refl _⟩

theorem mayRelease_of_keeper {b : BootInput} {s t : State} (h : t.keeper = s.keeper) :
    mayRelease b t = mayRelease b s := by
  unfold mayRelease
  rw [h]

/-- Settles O11: it holds. -/
theorem releaseEntersRecovery : Obligations.ReleaseEntersRecovery := by
  unfold Obligations.ReleaseEntersRecovery
  intro b s hmay
  refine ⟨?_, fun hstorm => ?_⟩
  · have hexec : exec (.keeperRelease b) s = .next (answered s (release b (waitVhold b (cleared s)))) :=
      answer_eq (if_pos hmay)
    obtain ⟨hkeeper, ha, hb, -⟩ := waitVhold_kept b (cleared s)
    exact ⟨_, hexec, release_released hkeeper ha hb⟩
  · obtain ⟨e, he⟩ := Option.isSome_iff_exists.mp hstorm
    have hlast := elapseTo_perst (e + 1000000) (cleared s)
    have hsame : ((cleared s).elapseTo (e + 1000000)).keeper = s.keeper := elapseTo_keeper ..
    have hexec : exec (.stormRestart b) s =
        .next (answered s (release b (waitVhold b ((cleared s).elapseTo (e + 1000000))))) := by
      change execStormRestart b s = _
      unfold execStormRestart
      refine answer_eq ?_
      rw [show (cleared s).keeper.stormEndAt = some e from he]
      exact if_pos ((mayRelease_of_keeper (b := b) (s := s) rfl).trans hmay)
    obtain ⟨hkeeper, ha, hb, hnow⟩ := waitVhold_kept b ((cleared s).elapseTo (e + 1000000))
    refine ⟨_, hexec, release_released (hkeeper.trans hsame) (ha.trans hlast.1) (hb.trans hlast.2), fun e' he' => ?_⟩
    obtain rfl : e = e' := Option.some.inj (he.symm.trans he')
    rw [answered_now, release_now]
    refine le_trans ?_ hnow
    simp

end Sys2Proof.Machine
end

section
/-!
The end of the restart: the commit of its root.
-/

namespace Sys2Proof.Machine

open Sys2Proof

/-! ### The end of the restart -/

/-- What follows the commit that ends the restart leaves as it is: the Keeper and its store, the mirror MRAM, the bytes
of the Ledger, and the epochs. -/
structure KeepsCommit (s t : State) : Prop where
  keeper : t.keeper = s.keeper
  nv : t.nv = s.nv
  mram : t.mram = s.mram
  mem : t.ledger.mem = s.ledger.mem
  epoch : t.dur.g.epoch = s.dur.g.epoch
  lastRootEpoch : t.dur.g.lastRootEpoch = s.dur.g.lastRootEpoch

theorem KeepsCommit.refl (s : State) : KeepsCommit s s := ⟨rfl, rfl, rfl, rfl, rfl, rfl⟩

theorem KeepsCommit.trans {s t u : State} (h : KeepsCommit s t) (k : KeepsCommit t u) : KeepsCommit s u :=
  ⟨k.keeper.trans h.keeper, k.nv.trans h.nv, k.mram.trans h.mram, k.mem.trans h.mem, k.epoch.trans h.epoch,
    k.lastRootEpoch.trans h.lastRootEpoch⟩

theorem KeepsCommit.foldl {α : Type} {f : State → α → State} (hf : ∀ s a, KeepsCommit s (f s a)) (l : List α)
    (s : State) : KeepsCommit s (l.foldl f s) :=
  foldl_rel .refl .trans hf l s

theorem BankStep.keepsCommit {s t : State} (h : BankStep s t) : KeepsCommit s t := by
  unfold BankStep at h
  rw [h]
  exact ⟨rfl, rfl, rfl, rfl, rfl, rfl⟩

section
variable (s : State)

theorem wiredRequest_bankStep (sn : Nat) (a l : Bool) : BankStep s (wiredRequest sn a l s) := by
  unfold wiredRequest
  split <;> rfl

theorem samplePins_bankStep (g : Nat) : BankStep s (samplePins s g) := by
  unfold samplePins
  extract_lets pins t
  have hsampled : BankStep s t := BankStep.foldl (fun s p => wiredRequest_bankStep s ..) _ _
  clear_value t pins
  split
  · exact hsampled.trans (modFabric_bankStep ..)
  · exact hsampled

theorem startSampling_keepsCommit : KeepsCommit s (startSampling s) :=
  KeepsCommit.trans (t := { s with wired := { s.wired with sampling := true, sampledFrom := s.now } })
    ⟨rfl, rfl, rfl, rfl, rfl, rfl⟩ (BankStep.foldl samplePins_bankStep _ _).keepsCommit

theorem putTgt_keepsCommit (tn : Nat) (r : Target) : KeepsCommit s (s.putTgt tn r) := ⟨rfl, rfl, rfl, rfl, rfl, rfl⟩

theorem mgmt_keepsCommit (n : Nat) : KeepsCommit s (s.mgmt n) := ⟨rfl, rfl, rfl, rfl, rfl, rfl⟩

theorem setFlush_keepsCommit {f : Globals → Globals} (hepoch : ∀ g, (f g).epoch = g.epoch)
    (hlast : ∀ g, (f g).lastRootEpoch = g.lastRootEpoch) : KeepsCommit s (setFlush f s) :=
  ⟨rfl, rfl, rfl, rfl, hepoch _, hlast _⟩

theorem flushCheck_keepsCommit : KeepsCommit s (flushCheck s) := by
  unfold flushCheck
  split
  · exact .refl s
  · refine KeepsCommit.trans ?_ (raise_bankStep ..).keepsCommit
    exact setFlush_keepsCommit s (fun _ => rfl) (fun _ => rfl)

theorem warnTargets_keepsCommit : KeepsCommit s (warnTargets s) := by
  unfold warnTargets
  extract_lets t tns u v w
  have hraised : KeepsCommit s t := (raise_bankStep ..).keepsCommit
  have hmembers : KeepsCommit t u := KeepsCommit.foldl (fun s tn => putTgt_keepsCommit s ..) _ _
  have hflush : KeepsCommit u v := setFlush_keepsCommit u (fun _ => rfl) (fun _ => rfl)
  have hwarned : KeepsCommit v w := by
    subst w
    split
    · exact (BankStep.foldl (fun s tn => submit_bankStep s ..) _ _).keepsCommit
    · exact .refl v
  exact (((hraised.trans hmembers).trans hflush).trans hwarned).trans (flushCheck_keepsCommit _)

theorem resumeTimers_keepsCommit : KeepsCommit s (resumeTimers s) := by
  unfold resumeTimers
  split
  · exact ⟨rfl, rfl, rfl, rfl, rfl, rfl⟩
  · exact .refl s

/-- The controller is about to become ready (R779). -/
def becomesReady (s : State) : Bool :=
  s.inRun && !s.keeper.restoring && s.keeper.serving && !s.keeper.rdy && !s.keeper.lockStopped &&
    !s.keeper.ramStopped && !s.keeper.scan

theorem checkReady_eq : checkReady s =
    if becomesReady s then (resumeTimers { s with keeper := { s.keeper with rdy := true } }).mgmt 0 else s := rfl

/-- The look at whether the controller is ready changes RDY alone of what the commit wrote. -/
theorem checkReady_keepsCommit :
    KeepsCommit { s with keeper := { s.keeper with rdy := s.keeper.rdy || becomesReady s } } (checkReady s) := by
  rw [checkReady_eq]
  cases h : becomesReady s with
  | true =>
    rw [Bool.or_true]
    exact (resumeTimers_keepsCommit _).trans (mgmt_keepsCommit ..)
  | false =>
    rw [Bool.or_false]
    exact .refl s

/-! ### The commit that ends the restart -/

/-- One line of a stripe, as the write of the stripes makes it. -/
def writeStripeLine (image : Durable) (s : State) (la : Nat) : State :=
  let s := writeSlot (lineOf la) image s
  { s with durab := { s.durab with written := insertNew s.durab.written (lineOf la) } }

theorem writeStripes_eq (image : Durable) (lines : List Line) : writeStripes image lines s =
    (lockstep (lines.map Line.la)).foldl (fun s stripe => stripe.foldl (writeStripeLine image) s) s := rfl

theorem writeStripeLine_writesSlots (image : Durable) (la : Nat) : WritesSlots s (writeStripeLine image s la) :=
  ⟨rfl, rfl, rfl, rfl, rfl, rfl, rfl⟩

theorem writeStripes_writesSlots (image : Durable) (lines : List Line) :
    WritesSlots s (writeStripes image lines s) := by
  rw [writeStripes_eq]
  refine foldl_rel WritesSlots.refl WritesSlots.trans (fun s stripe => ?_) _ _
  exact foldl_rel WritesSlots.refl WritesSlots.trans (fun s la => writeStripeLine_writesSlots s image la) _ _

/-- The commit of a root changes the mirror MRAM, the bookkeeping of write-behind and LastRootEpoch. -/
theorem commitRoot_frame (kind : RootKind) (epoch : Nat) (image : Durable) (lines : List Line) :
    commitRoot kind epoch image lines s = { s with
      dur := { s.dur with g := { s.dur.g with lastRootEpoch := epoch } }
      mram := (commitRoot kind epoch image lines s).mram
      durab := (commitRoot kind epoch image lines s).durab } := by
  have h := ((writeContexts_writesSlots image s).trans (writeStripes_writesSlots _ image lines)).frame
  unfold commitRoot
  generalize writeStripes image lines (writeContexts image s) = t at h ⊢
  rw [h]
  rfl

/-- After a first boot the KIND 3 root of the epoch stands in all four places and names slot 0 of every line. -/
theorem commitMirrorStart_spec (epoch : Nat) :
    ∃ p : Place, p.head.kind = .mirrorStart ∧ p.head.epoch = epoch ∧ p.head.prevEpoch = 0 ∧
      p.map = { lines := [], context := false } ∧
      (commitMirrorStart epoch s).mram.base = some (epoch % 2 ^ 32, markCut s (fun _ => true) s.dur) ∧
      (commitMirrorStart epoch s).mram.a0 = some p ∧ (commitMirrorStart epoch s).mram.a1 = some p ∧
      (commitMirrorStart epoch s).mram.b0 = some p ∧ (commitMirrorStart epoch s).mram.b1 = some p ∧
      commitMirrorStart epoch s = { s with
        dur := { s.dur with g := { s.dur.g with lastRootEpoch := epoch } }
        mram := (commitMirrorStart epoch s).mram
        durab := (commitMirrorStart epoch s).durab } :=
  ⟨_, rfl, rfl, rfl, rfl, rfl, rfl, rfl, rfl, rfl, rfl⟩

/-- The restart's commit changes the mirror MRAM, the bookkeeping of write-behind, and the epochs as its kind says. -/
structure RestartCommitted (s t : State) : Prop where
  keeper : t.keeper = s.keeper
  nv : t.nv = s.nv
  mem : t.ledger.mem = s.ledger.mem
  ceiling : t.dur.g.ceiling = s.dur.g.ceiling
  recovery : s.keeper.restoreKind = .recovery → s.dur.g.mirrorEnable = true →
    t.dur.g.epoch = s.dur.g.epoch + 1 ∧ t.dur.g.lastRootEpoch = s.dur.g.epoch + 1
  mirrorStart : s.keeper.restoreKind = .mirrorStart → t.dur.g.lastRootEpoch = s.dur.g.epoch ∧
    t.mram.base = some (s.dur.g.epoch % 2 ^ 32, markCut s (fun _ => true) s.dur) ∧
    ∃ p : Place, p.head.kind = .mirrorStart ∧ p.head.epoch = s.dur.g.epoch ∧ p.head.prevEpoch = 0 ∧
      p.map = { lines := [], context := false } ∧
      t.mram.a0 = some p ∧ t.mram.a1 = some p ∧ t.mram.b0 = some p ∧ t.mram.b1 = some p

theorem restoreCommit_committed : RestartCommitted s (restoreCommit s) := by
  unfold restoreCommit
  split
  · rename_i hkind
    obtain ⟨p, hp, hepoch, hprev, hmap, hbase, ha0, ha1, hb0, hb1, hframe⟩ := commitMirrorStart_spec s s.dur.g.epoch
    generalize commitMirrorStart s.dur.g.epoch s = t at *
    rw [hframe]
    exact ⟨rfl, rfl, rfl, rfl, fun h => absurd (hkind.symm.trans h) (by decide), fun _ =>
      ⟨rfl, hbase, p, hp, hepoch, hprev, hmap, ha0, ha1, hb0, hb1⟩⟩
  · rename_i hkind
    have hstart : s.keeper.restoreKind = .mirrorStart → ∀ q : Prop, q := fun h => absurd h hkind
    split
    · extract_lets t u
      have hframe : u = { t with dur := _, mram := u.mram, durab := u.durab } := commitRoot_frame ..
      clear_value u
      rw [hframe]
      exact ⟨rfl, rfl, rfl, rfl, fun _ _ => ⟨rfl, rfl⟩, fun h => hstart h _⟩
    · rename_i hoff
      exact ⟨rfl, rfl, rfl, rfl, fun _ h => absurd h hoff, fun h => hstart h _⟩

end

end Sys2Proof.Machine
end

section
/-!
The end of the restart: P5 ends, and the controller becomes ready.
-/

namespace Sys2Proof.Machine

open Sys2Proof

/-- P5 ends in the state that PowerCeiling holds. -/
def restartEnded (back : Bool) (s : State) : State :=
  { s with keeper := { s.keeper with restoring := false, recovered := back, pstate := ceilingState s } }

/-- A recovery raises its source and shows in MGMT_EVENT (R651). -/
def recoverySignalled (back : Bool) (s : State) : State := if back then (s.raise 0x101063).mgmt 11 else s

/-- The power warning that came meanwhile has its effect at the banks. -/
def owedWarning (s : State) : State :=
  if s.keeper.warnOwed then warnTargets { s with keeper := { s.keeper with warnOwed := false } } else s

/-- What follows the commit at the end of the restart. -/
def recoveryEnds (back : Bool) (s : State) : State :=
  startSampling (owedWarning (recoverySignalled back (restartEnded back s)))

theorem exec_recoveryComplete {s : State} (hstate : s.keeper.pstate = .p5) (hrestoring : s.keeper.restoring = true)
    (hlock : s.keeper.lockStopped = false) :
    exec .recoveryComplete s = .next (answered s (checkReady
      (recoveryEnds (s.keeper.restoreKind == .recovery) (restoreCommit (cleared s))))) := by
  change execRecoveryComplete s = _
  unfold execRecoveryComplete
  refine answer_eq ((if_neg ?_).trans rfl)
  simp [hstate, hrestoring, hlock]

theorem recoverySignalled_keepsCommit (back : Bool) (s : State) : KeepsCommit s (recoverySignalled back s) := by
  unfold recoverySignalled
  split
  · exact (raise_bankStep ..).keepsCommit.trans (mgmt_keepsCommit ..)
  · exact .refl s

theorem owedWarning_keepsCommit (s : State) :
    KeepsCommit { s with keeper := { s.keeper with warnOwed := false } } (owedWarning s) := by
  unfold owedWarning
  split
  · exact warnTargets_keepsCommit _
  · rename_i h
    rw [Bool.not_eq_true] at h
    rw [← h]
    exact .refl s

/-- The events at the end of the restart leave what the commit wrote as it is; the Keeper's part ends P5. -/
theorem recoveryEnds_keepsCommit (back : Bool) (s : State) :
    KeepsCommit { s with keeper := { s.keeper with
      restoring := false, recovered := back, pstate := ceilingState s, warnOwed := false } } (recoveryEnds back s) := by
  refine KeepsCommit.trans ?_ (startSampling_keepsCommit _)
  refine KeepsCommit.trans ?_ (owedWarning_keepsCommit _)
  obtain ⟨hkeeper, hnv, hmram, hmem, hepoch, hlast⟩ := recoverySignalled_keepsCommit back (restartEnded back s)
  generalize recoverySignalled back (restartEnded back s) = t at *
  exact ⟨by dsimp only; rw [hkeeper]; rfl, hnv, hmram, hmem, hepoch, hlast⟩

/-- The state that PowerCeiling holds is one in which the core runs. -/
theorem ceilingState_inRun {s t : State} (h : t.keeper.pstate = ceilingState s) : t.inRun = true := by
  unfold State.inRun
  rw [h]
  unfold ceilingState
  split_ifs <;> rfl

/-- The end of P5, the commit's state given. -/
theorem recoveryComplete_spec {s c t : State} {back : Bool} (hlock : s.keeper.lockStopped = false)
    (hkeeper : c.keeper = s.keeper) (hceiling : c.dur.g.ceiling = s.dur.g.ceiling)
    (h : checkReady (recoveryEnds back c) = t) :
    t.keeper.pstate = ceilingState s ∧ t.keeper.restoring = false ∧ t.keeper.recovered = back ∧ t.nv = c.nv ∧
      t.ledger.mem = c.ledger.mem ∧ t.mram = c.mram ∧ t.dur.g.epoch = c.dur.g.epoch ∧
      t.dur.g.lastRootEpoch = c.dur.g.lastRootEpoch ∧
      (t.keeper.rdy = true ↔ s.keeper.rdy = true ∨
        (s.keeper.serving = true ∧ s.keeper.ramStopped = false ∧ s.keeper.scan = false)) := by
  have hstate : ceilingState c = ceilingState s := by
    unfold ceilingState
    rw [hceiling]
  have hends := recoveryEnds_keepsCommit back c
  have hready := checkReady_keepsCommit (recoveryEnds back c)
  rw [h] at hready
  clear h
  generalize recoveryEnds back c = u at *
  obtain ⟨hu, hunv, humram, humem, huepoch, hulast⟩ := hends
  obtain ⟨ht, htnv, htmram, htmem, htepoch, htlast⟩ := hready
  rw [hkeeper, hstate] at hu
  have hrun : u.inRun = true := ceilingState_inRun (congrArg Keeper.pstate hu)
  have hbecomes : becomesReady u = (s.keeper.serving && !s.keeper.rdy && !s.keeper.ramStopped && !s.keeper.scan) := by
    unfold becomesReady
    rw [hrun, hu]
    simp [hlock]
  rw [hbecomes, hu] at ht
  rw [ht]
  refine ⟨rfl, rfl, rfl, htnv.trans hunv, htmem.trans humem, htmram.trans humram, htepoch.trans huepoch,
    htlast.trans hulast, ?_⟩
  cases s.keeper.rdy <;> simp [and_assoc]

theorem resumeTimers_ledger (s : State) : (resumeTimers s).ledger = s.ledger := by
  unfold resumeTimers
  split <;> rfl

theorem resumeTimers_fabric (s : State) : (resumeTimers s).fabric = s.fabric := by
  unfold resumeTimers
  split <;> rfl

theorem checkReady_ledger (s : State) : (checkReady s).ledger = s.ledger := by
  rw [checkReady_eq]
  split
  · exact resumeTimers_ledger _
  · rfl

theorem checkReady_fabric (s : State) : (checkReady s).fabric = s.fabric := by
  rw [checkReady_eq]
  split
  · exact resumeTimers_fabric _
  · rfl

theorem exec_bootRomVerify_of_open {s : State} (ok : Bool) (hpowered : s.powered = true) (hrom : s.keeper.romChecked = false)
    (hram : s.keeper.ramStopped = false) (hcore : s.keeper.vddCore = true) :
    exec (.bootRomVerify ok) s = .next (answered s
      (if ok then checkReady { cleared s with keeper := { s.keeper with romChecked := true, serving := true } }
        else { cleared s with keeper := { s.keeper with romChecked := true, bootFail := true } })) := by
  change execBootRomVerify ok s = _
  unfold execBootRomVerify
  refine answer_eq ((if_neg ?_).trans rfl)
  have hpowered' : (cleared s).powered = true := hpowered
  simp [hpowered', hrom, hram, hcore]

/-- Settles O12: it holds. -/
theorem startIsCompleted : Obligations.StartIsCompleted := by
  unfold Obligations.StartIsCompleted
  refine ⟨fun s hstate hrestoring hlock => ⟨_, exec_recoveryComplete hstate hrestoring hlock, ?_⟩,
    fun s hpowered hrom hram hcore => ⟨exec_bootRomVerify_of_open false hpowered hrom hram hcore,
      _, exec_bootRomVerify_of_open true hpowered hrom hram hcore, ?_⟩⟩
  · obtain ⟨hkeeper, hnv, hmem, hceiling, hrecovery, hstart⟩ := restoreCommit_committed (cleared s)
    generalize restoreCommit (cleared s) = c at *
    generalize hdone : checkReady (recoveryEnds (s.keeper.restoreKind == .recovery) c) = t
    obtain ⟨hp, hr, hb, htnv, htmem, htmram, hepoch, hlast, hrdy⟩ :=
      recoveryComplete_spec (s := s) hlock hkeeper hceiling hdone
    refine ⟨hp, hr, hb, htnv.trans hnv, htmem.trans hmem, fun hkind hon => ?_, fun hkind => ?_, hrdy⟩
    · obtain ⟨hat, hroot⟩ := hrecovery hkind hon
      exact ⟨hepoch.trans hat, hlast.trans hroot⟩
    · rw [answered_mram, htmram]
      obtain ⟨hroot, hbase, hplaces⟩ := hstart hkind
      exact ⟨hlast.trans hroot, hbase, hplaces⟩
  · rw [if_pos rfl]
    generalize hserved : ({ cleared s with keeper := { s.keeper with romChecked := true, serving := true } } : State) = u
    obtain ⟨hkeeper, hnv, hmram, -, -, -⟩ := checkReady_keepsCommit u
    have hledger := checkReady_ledger u
    have hfabric := checkReady_fabric u
    generalize checkReady u = t at *
    have hbecomes : becomesReady u = (s.inRun && !s.keeper.restoring && !s.keeper.rdy && !s.keeper.lockStopped &&
        !s.keeper.scan) := by
      subst hserved
      simp [becomesReady, hram, State.inRun]
    have hserving : t.keeper.serving = u.keeper.serving := by rw [hkeeper]
    have hchecked : t.keeper.romChecked = u.keeper.romChecked := by rw [hkeeper]
    have hfail : t.keeper.bootFail = u.keeper.bootFail := by rw [hkeeper]
    have hrdy : t.keeper.rdy = (u.keeper.rdy || becomesReady u) := by rw [hkeeper]
    rw [hbecomes] at hrdy
    subst hserved
    refine ⟨hserving, hchecked, hfail, hnv, hledger, hmram, hfabric, ?_⟩
    rw [answered_keeper, hrdy]
    dsimp only
    cases s.keeper.rdy <;> simp [and_assoc]

end Sys2Proof.Machine
end

section
/-!
What the resets of queues and targets, and the discard of a port's requests, leave as it is.
-/

namespace Sys2Proof.Machine

open Sys2Proof

/-! ### What a port reset leaves as it is -/

/-- What a port's registers hold that neither events nor traffic change. -/
def PortState.settings (p : PortState) : Bool × Bool × BitVec 12 × Bool × Bool × Bool :=
  (p.linkUp, p.busMaster, p.mgmtEnable, p.maskValid, p.perst, p.ready)

/-- The resets of queues and targets, and what becomes of the requests that a port reset discards, leave the conduct
copies, the authorization objects, the Hatch, the Keeper and its store, the mirror MRAM, the bytes of the Ledger, the
settings of both ports and the debug port as they are. -/
structure KeepsPorts (s t : State) : Prop where
  conduct : t.conduct = s.conduct
  auth : t.auth = s.auth
  hatch : t.hatch = s.hatch
  keeper : t.keeper = s.keeper
  nv : t.nv = s.nv
  mram : t.mram = s.mram
  mem : t.ledger.mem = s.ledger.mem
  portA : t.portA.settings = s.portA.settings
  portB : t.portB.settings = s.portB.settings
  dap : t.dap = s.dap

theorem KeepsPorts.refl (s : State) : KeepsPorts s s := ⟨rfl, rfl, rfl, rfl, rfl, rfl, rfl, rfl, rfl, rfl⟩

theorem KeepsPorts.trans {s t u : State} (h : KeepsPorts s t) (k : KeepsPorts t u) : KeepsPorts s u :=
  ⟨k.conduct.trans h.conduct, k.auth.trans h.auth, k.hatch.trans h.hatch, k.keeper.trans h.keeper, k.nv.trans h.nv,
    k.mram.trans h.mram, k.mem.trans h.mem, k.portA.trans h.portA, k.portB.trans h.portB,
    k.dap.trans h.dap⟩

theorem KeepsPorts.foldl {α : Type} {f : State → α → State} (hf : ∀ s a, KeepsPorts s (f s a)) (l : List α)
    (s : State) : KeepsPorts s (l.foldl f s) :=
  foldl_rel .refl .trans hf l s

theorem BankStep.keepsPorts {s t : State} (h : BankStep s t) : KeepsPorts s t := by
  unfold BankStep at h
  rw [h]
  exact ⟨rfl, rfl, rfl, rfl, rfl, rfl, rfl, rfl, rfl, rfl⟩

section
variable (s : State)

theorem mgmt_keepsPorts (n : Nat) : KeepsPorts s (s.mgmt n) := ⟨rfl, rfl, rfl, rfl, rfl, rfl, rfl, rfl, rfl, rfl⟩
theorem modQVol_keepsPorts (q : Nat) (f : QVol → QVol) : KeepsPorts s (s.modQVol q f) :=
  ⟨rfl, rfl, rfl, rfl, rfl, rfl, rfl, rfl, rfl, rfl⟩
theorem modQueue_keepsPorts (q : Nat) (f : Queue → Queue) : KeepsPorts s (s.modQueue q f) :=
  ⟨rfl, rfl, rfl, rfl, rfl, rfl, rfl, rfl, rfl, rfl⟩
theorem modItem_keepsPorts (q slot : Nat) (f : Item → Item) : KeepsPorts s (s.modItem q slot f) :=
  modQueue_keepsPorts ..
theorem modSlot_keepsPorts (tn : Nat) (c : Cls) (f : DSlot → DSlot) : KeepsPorts s (s.modSlot tn c f) :=
  ⟨rfl, rfl, rfl, rfl, rfl, rfl, rfl, rfl, rfl, rfl⟩
theorem modFabric_keepsPorts (f : Fabric → Fabric) : KeepsPorts s (s.modFabric f) :=
  ⟨rfl, rfl, rfl, rfl, rfl, rfl, rfl, rfl, rfl, rfl⟩
theorem modDur_keepsPorts (f : Durable → Durable) : KeepsPorts s (s.modDur f) :=
  ⟨rfl, rfl, rfl, rfl, rfl, rfl, rfl, rfl, rfl, rfl⟩
theorem putTgt_keepsPorts (tn : Nat) (r : Target) : KeepsPorts s (s.putTgt tn r) :=
  ⟨rfl, rfl, rfl, rfl, rfl, rfl, rfl, rfl, rfl, rfl⟩

theorem answerRead_keepsPorts (r : Reader) (v : Word) : KeepsPorts s (s.answerRead r v) := by
  unfold State.answerRead
  split <;> exact ⟨rfl, rfl, rfl, rfl, rfl, rfl, rfl, rfl, rfl, rfl⟩

theorem recordFault_keepsPorts (r : FaultRec) : KeepsPorts s (recordFault r s) := by
  unfold recordFault
  dsimp only
  have hraised (b : Bool) (i : Nat) (u : State) (hu : KeepsPorts s u) :
      KeepsPorts s (if b then u.raiseFrom i 0x101070 else u) := by
    split
    · exact hu.trans (submit_bankStep ..).keepsPorts
    · exact hu
  split <;> exact hraised _ _ _ ⟨rfl, rfl, rfl, rfl, rfl, rfl, rfl, rfl, rfl, rfl⟩

theorem throttleEngage_keepsPorts (banks : List Nat) : KeepsPorts s (throttleEngage banks s) := by
  unfold throttleEngage
  dsimp only
  split
  · exact ⟨rfl, rfl, rfl, rfl, rfl, rfl, rfl, rfl, rfl, rfl⟩
  · refine KeepsPorts.trans ?_ (raise_bankStep ..).keepsPorts
    exact ⟨rfl, rfl, rfl, rfl, rfl, rfl, rfl, rfl, rfl, rfl⟩

theorem reportFault_keepsPorts (r : FaultRec) : KeepsPorts s (reportFault r s) := by
  unfold reportFault
  extract_lets
  split
  · exact recordFault_keepsPorts ..
  · refine KeepsPorts.trans ?_ (throttleEngage_keepsPorts ..)
    exact ⟨rfl, rfl, rfl, rfl, rfl, rfl, rfl, rfl, rfl, rfl⟩

/-! #### Queues -/

theorem queueEvent_keepsPorts (q n : Nat) : KeepsPorts s (queueEvent q n s) :=
  (modQVol_keepsPorts ..).trans (raise_bankStep ..).keepsPorts

theorem idleCheck_keepsPorts (q : Nat) : KeepsPorts s (idleCheck q s) := by
  unfold idleCheck
  dsimp only
  split_ifs
  · exact (modQVol_keepsPorts ..).trans (queueEvent_keepsPorts ..)
  · exact modQVol_keepsPorts ..
  · exact .refl s

theorem drainEnd_keepsPorts (q : Nat) : KeepsPorts s (drainEnd q s) :=
  (modQVol_keepsPorts ..).trans (idleCheck_keepsPorts ..)

theorem drainCheck_keepsPorts (q : Nat) : KeepsPorts s (drainCheck q s) := by
  unfold drainCheck
  split
  · exact drainEnd_keepsPorts ..
  · exact .refl s

theorem unbegun_keepsPorts (q slot : Nat) : KeepsPorts s (unbegun q slot s) := by
  unfold unbegun
  extract_lets
  split
  · exact .refl s
  · exact (modQueue_keepsPorts ..).trans (modQVol_keepsPorts ..)

theorem queueStop_keepsPorts (q cause slot : Nat) : KeepsPorts s (queueStop q cause slot s) := by
  unfold queueStop
  split
  · exact .refl s
  · exact ((unbegun_keepsPorts ..).trans (modQVol_keepsPorts ..)).trans (queueEvent_keepsPorts ..)

theorem releaseEngine_keepsPorts (q slot : Nat) : KeepsPorts s (releaseEngine q slot s) := by
  unfold releaseEngine
  split
  · exact ⟨rfl, rfl, rfl, rfl, rfl, rfl, rfl, rfl, rfl, rfl⟩
  · exact .refl s

theorem releaseStaging_keepsPorts : KeepsPorts s (releaseStaging s) := by
  unfold releaseStaging
  dsimp only
  split
  · exact modDur_keepsPorts ..
  · exact (modDur_keepsPorts ..).trans (modItem_keepsPorts ..)

theorem itemFault_keepsPorts (q slot path iova code level : Nat) :
    KeepsPorts s (itemFault q slot path iova code level s) := by
  unfold itemFault
  split
  · exact .refl s
  · extract_lets e t u
    refine KeepsPorts.trans (t := u) ?_ ((reportFault_keepsPorts ..).trans (queueStop_keepsPorts ..))
    have hended : KeepsPorts s t := (modItem_keepsPorts ..).trans (releaseEngine_keepsPorts ..)
    subst u
    split
    · exact hended.trans (releaseStaging_keepsPorts ..)
    · exact hended

theorem queueDisable_keepsPorts (q : Nat) : KeepsPorts s (queueDisable q s) := by
  unfold queueDisable
  split_ifs
  · exact drainEnd_keepsPorts ..
  · exact .refl s
  · exact ((modQVol_keepsPorts ..).trans (modQVol_keepsPorts ..)).trans (drainCheck_keepsPorts ..)

theorem notIssued_keepsPorts (path q slot step tag kind iova : Nat) (image : List Byte) :
    KeepsPorts s (notIssued path q slot step tag kind iova image s) := reportFault_keepsPorts ..

theorem discardReq_keepsPorts (r : LinkReq) : KeepsPorts s (discardReq r s) := by
  cases r with
  | delivery => exact .refl s
  | completion => exact notIssued_keepsPorts ..
  | hostStore => exact notIssued_keepsPorts ..
  | itemRead => exact itemFault_keepsPorts ..
  | ringFetch => exact (modQVol_keepsPorts ..).trans (idleCheck_keepsPorts ..)
  | ledgerCopy => exact ⟨rfl, rfl, rfl, rfl, rfl, rfl, rfl, rfl, rfl, rfl⟩

theorem disablePortQueues_keepsPorts (p : Port) : KeepsPorts s (disablePortQueues p s) :=
  KeepsPorts.foldl (fun s q => queueDisable_keepsPorts s q) _ _

/-! #### Targets -/

theorem acceptClaim_keepsPorts (tn : Nat) (c : Cls) (sn : Nat) (note : Bool) :
    KeepsPorts s (acceptClaim tn c sn note s) := by
  unfold acceptClaim
  dsimp only
  split <;> exact ⟨rfl, rfl, rfl, rfl, rfl, rfl, rfl, rfl, rfl, rfl⟩

theorem flushCheck_keepsPorts : KeepsPorts s (flushCheck s) := by
  unfold flushCheck
  split
  · exact .refl s
  · refine KeepsPorts.trans ?_ (raise_bankStep ..).keepsPorts
    exact ⟨rfl, rfl, rfl, rfl, rfl, rfl, rfl, rfl, rfl, rfl⟩

theorem flushLeave_keepsPorts (tn : Nat) (f : Flush) : KeepsPorts s (flushLeave tn f s) := by
  unfold flushLeave
  split
  · exact (putTgt_keepsPorts ..).trans (flushCheck_keepsPorts _)
  · exact .refl s

/-- The claim of a class that awaits its answer, judged at its bank before the reset. -/
theorem settleClaim_keepsPorts (tn : Nat) (c : Cls) : KeepsPorts s (settleClaim tn c s).1 := by
  unfold settleClaim
  extract_lets d
  split
  · refine KeepsPorts.trans ?_ (KeepsPorts.foldl (fun s r => answerRead_keepsPorts ..) _ _)
    refine KeepsPorts.trans ?_ (modSlot_keepsPorts ..)
    refine KeepsPorts.trans ?_ (modFabric_keepsPorts ..)
    split
    · dsimp only
      split
      · exact (modFabric_keepsPorts ..).trans (acceptClaim_keepsPorts ..)
      · exact modFabric_keepsPorts ..
    · exact .refl s
  · exact .refl s

theorem releaseSource_keepsPorts (barrier : Bool) (tn : Nat) (c : Cls) (sn : Nat) :
    KeepsPorts s (releaseSource barrier tn c sn s) := by
  obtain ⟨t, hstep, h | ⟨-, h⟩⟩ := releaseSource_cases s barrier tn c sn
  · rw [h]
    exact hstep.keepsPorts
  · rw [h]
    exact hstep.keepsPorts.trans (flushLeave_keepsPorts ..)

theorem releaseHeld_keepsPorts (barrier : Bool) (tn : Nat) (c : Cls) (held : Option Nat) :
    KeepsPorts s (releaseHeld barrier tn c held s) := by
  cases held with
  | none => exact .refl s
  | some sn => exact releaseSource_keepsPorts ..

theorem resetTarget_keepsPorts (barrier : Bool) (tn : Nat) : KeepsPorts s (resetTarget barrier tn s) := by
  unfold resetTarget
  have hnormal := settleClaim_keepsPorts s tn .normal
  generalize settleClaim tn .normal s = x at *
  obtain ⟨t, heldN⟩ := x
  dsimp only at *
  have hfast := settleClaim_keepsPorts t tn .fast
  generalize settleClaim tn .fast t = y at *
  obtain ⟨u, heldF⟩ := y
  dsimp only at *
  refine (hnormal.trans hfast).trans ?_
  iterate 7 refine KeepsPorts.trans ?_ (modFabric_keepsPorts _ _)
  refine KeepsPorts.trans ?_ ((releaseHeld_keepsPorts ..).trans (releaseHeld_keepsPorts ..))
  exact ⟨rfl, rfl, rfl, rfl, rfl, rfl, rfl, rfl, rfl, rfl⟩

theorem resetPortTargets_keepsPorts (p : Port) : KeepsPorts s (resetPortTargets p s) := by
  unfold resetPortTargets
  extract_lets known t
  exact (KeepsPorts.foldl (fun s tn => resetTarget_keepsPorts s true tn) _ _).trans (modFabric_keepsPorts ..)

theorem orphanReads_keepsPorts (p : Port) : KeepsPorts s (orphanReads p s) :=
  ⟨rfl, rfl, rfl, rfl, rfl, rfl, rfl, rfl, rfl, rfl⟩

theorem endStagingOf_keepsPorts (r : Req) : KeepsPorts s (endStagingOf r s) := by
  unfold endStagingOf
  split <;> exact ⟨rfl, rfl, rfl, rfl, rfl, rfl, rfl, rfl, rfl, rfl⟩

theorem dropOut_keepsPorts (p : Port) :
    KeepsPorts s (s.modPort p fun x => { x with out := [], creditWait := 0 }) := by
  cases p <;> exact ⟨rfl, rfl, rfl, rfl, rfl, rfl, rfl, rfl, rfl, rfl⟩

end

/-- The abort that a port reset makes of the Hatch. -/
def resetAborted (p : Port) (s : State) : State := abortOwned p.req 1 (clearCopies p s)

/-- What follows the clear of the copies and the abort leaves the copies as they are. -/
def resetDone (p : Port) (s : State) : State :=
  let s := endStagingOf p.req s
  let reqs := (s.port p).out
  let s := s.modPort p fun x => { x with out := [], creditWait := 0 }
  let s := reqs.foldl (fun s r => discardReq r s) s
  let s := disablePortQueues p (orphanReads p s)
  resetPortTargets p s

theorem portReset_eq (p : Port) (s : State) : portReset p s = (resetDone p (resetAborted p s)).modPort p fun x =>
    { x with
      busMaster := false, d3hot := false, cto := 0, msixEnable := false, msixFuncMask := false,
      msixMasked := true, msixAddr := 0, msixData := 0, pba := false } := rfl

theorem resetDone_keepsPorts (p : Port) (s : State) : KeepsPorts s (resetDone p s) :=
  ((((endStagingOf_keepsPorts s p.req).trans (dropOut_keepsPorts _ p)).trans
    (KeepsPorts.foldl (fun s r => discardReq_keepsPorts s r) _ _)).trans
    ((orphanReads_keepsPorts ..).trans (disablePortQueues_keepsPorts ..))).trans (resetPortTargets_keepsPorts ..)

end Sys2Proof.Machine
end

section
/-!
Port resets.
-/

namespace Sys2Proof.Machine

open Sys2Proof

/-! ### Port resets -/

theorem KeepsPorts.port {s t : State} (h : KeepsPorts s t) (p : Port) : (t.port p).settings = (s.port p).settings := by
  cases p
  · exact h.portA
  · exact h.portB

/-- The conduct copies of a requester whose port is reset: as at reset, but for the log of the abort that takes the Hatch
from it. -/
def resetConduct (h : Hatch) (r : Req) : Conduct :=
  { Conduct.initial with
    status := 4
    abortLog := { valid := true, former := ownerCode (some r), opcode := h.opcode,
                  applied := hatchApplied h, cause := 1 } }

section
variable (p : Port) (s : State)

theorem clearCopies_port : ((clearCopies p s).port p).settings =
    ((s.port p).linkUp, (s.port p).busMaster, 0, false, (s.port p).perst, (s.port p).ready) ∧
    ((clearCopies p s).port p.other).settings = (s.port p.other).settings := by
  cases p <;> exact ⟨rfl, rfl⟩

theorem clearCopies_conduct : (clearCopies p s).conduct = s.conduct.set p.req .initial := by
  cases p <;> rfl

theorem clearCopies_auth : (clearCopies p s).auth = s.auth.set p.req .initial := by
  cases p <;> rfl

theorem clearCopies_kept : (clearCopies p s).hatch = s.hatch ∧ (clearCopies p s).keeper = s.keeper ∧
    (clearCopies p s).nv = s.nv ∧ (clearCopies p s).mram = s.mram ∧
    (clearCopies p s).ledger.mem = s.ledger.mem := by
  cases p <;> exact ⟨rfl, rfl, rfl, rfl, rfl⟩

/-- The log that an abort of the Hatch writes into every copy. -/
def Conduct.hatchAborted (h : Hatch) (r : Req) (cause : Nat) (c : Conduct) : Conduct :=
  { c with
    abortLog := { valid := true, former := ownerCode (some r), opcode := h.opcode,
                  applied := hatchApplied h, cause := cause }
    status := c.status ||| 4 }

/-- The abort of an owner's Hatch use: logged in every copy, the Hatch released, and announced. -/
theorem abortHatch_keepsPorts (cause : Nat) {r : Req} (h : s.hatch.owner = some r) :
    KeepsPorts (releaseHatch ((s.modConducts (Conduct.hatchAborted s.hatch r cause)).mgmt 1))
      (abortHatch cause s) := by
  unfold abortHatch
  rw [h]
  exact (raise_bankStep ..).keepsPorts

/-- The copies cleared and the Hatch taken from the port's requester: what a port reset leaves from here on. -/
theorem resetAborted_of_owner (h : s.hatch.owner = some p.req) :
    KeepsPorts (releaseHatch (((clearCopies p s).modConducts (Conduct.hatchAborted s.hatch p.req 1)).mgmt 1))
      (resetAborted p s) := by
  have hkept := (clearCopies_kept p s).1
  unfold resetAborted abortOwned
  rw [if_pos (by rw [hkept]; exact h), ← hkept]
  exact abortHatch_keepsPorts _ 1 (by rw [hkept]; exact h)

theorem resetAborted_of_not_owner (h : s.hatch.owner ≠ some p.req) : resetAborted p s = clearCopies p s := by
  unfold resetAborted abortOwned
  rw [if_neg (by rw [(clearCopies_kept p s).1]; exact h)]

/-- A port reset in the state before its registers are set. -/
theorem resetDone_spec :
    let t := resetDone p (resetAborted p s)
    (s.hatch.owner ≠ some p.req → t.conduct.get p.req = .initial ∧ t.hatch = s.hatch) ∧
      (s.hatch.owner = some p.req → t.conduct.get p.req = { Conduct.initial with
        status := 4
        abortLog := { valid := true, former := ownerCode (some p.req), opcode := s.hatch.opcode,
                      applied := hatchApplied s.hatch, cause := 1 } } ∧ t.hatch.owner = none) ∧
      t.auth.get p.req = .initial ∧ t.keeper = s.keeper ∧ t.nv = s.nv ∧ t.mram = s.mram ∧
      t.ledger.mem = s.ledger.mem ∧
      (t.port p).settings =
        ((s.port p).linkUp, (s.port p).busMaster, 0, false, (s.port p).perst, (s.port p).ready) ∧
      (t.port p.other).settings = (s.port p.other).settings := by
  extract_lets t
  have hdone : KeepsPorts (resetAborted p s) t := resetDone_keepsPorts p _
  clear_value t
  obtain ⟨hport, hother⟩ := clearCopies_port p s
  obtain ⟨hhatch, hkeeper, hnv, hmram, hmem⟩ := clearCopies_kept p s
  by_cases h : s.hatch.owner = some p.req
  · have hall := (resetAborted_of_owner p s h).trans hdone
    refine ⟨fun hne => absurd h hne, fun _ => ⟨?_, ?_⟩, ?_, hall.keeper.trans hkeeper, hall.nv.trans hnv,
      hall.mram.trans hmram, hall.mem.trans hmem, ?_, ?_⟩
    · rw [hall.conduct]
      change ((clearCopies p s).conduct.all _).get p.req = _
      rw [clearCopies_conduct, Per3.get_all, Per3.get_set]
      rfl
    · rw [hall.hatch]
      rfl
    · rw [hall.auth]
      change (clearCopies p s).auth.get p.req = _
      rw [clearCopies_auth, Per3.get_set]
    · refine (hall.port p).trans (Eq.trans ?_ hport)
      cases p <;> rfl
    · refine (hall.port p.other).trans (Eq.trans ?_ hother)
      cases p <;> rfl
  · rw [resetAborted_of_not_owner p s h] at hdone
    refine ⟨fun _ => ⟨?_, hdone.hatch.trans hhatch⟩, fun howner => absurd howner h, ?_, hdone.keeper.trans hkeeper,
      hdone.nv.trans hnv, hdone.mram.trans hmram, hdone.mem.trans hmem, (hdone.port p).trans hport,
      (hdone.port p.other).trans hother⟩
    · rw [hdone.conduct, clearCopies_conduct, Per3.get_set]
    · rw [hdone.auth, clearCopies_auth, Per3.get_set]

end

/-- A port reset as its registers show it; the link's state and the PERST# ball are as they were. -/
theorem portReset_reset (p : Port) {s u : State} (hhatch : u.hatch = s.hatch) (hkeeper : u.keeper = s.keeper)
    (hnv : u.nv = s.nv) (hmram : u.mram = s.mram) (hmem : u.ledger.mem = s.ledger.mem)
    (hother : (u.port p.other).settings = (s.port p.other).settings) :
    PortWasReset p s (answered s (portReset p u)) ∧ ((portReset p u).port p).linkUp = (u.port p).linkUp ∧
      ((portReset p u).port p).perst = (u.port p).perst ∧ ((portReset p u).port p).ready = (u.port p).ready := by
  obtain ⟨hfree, howned, hauth, htkeeper, htnv, htmram, htmem, htport, htother⟩ := resetDone_spec p u
  rw [portReset_eq]
  generalize resetDone p (resetAborted p u) = t at *
  rw [hhatch] at hfree howned
  rw [hother] at htother
  have hup : (t.port p).linkUp = (u.port p).linkUp := congrArg (·.1) htport
  have henable : (t.port p).mgmtEnable = 0 := congrArg (·.2.2.1) htport
  have hvalid : (t.port p).maskValid = false := congrArg (·.2.2.2.1) htport
  have hperst : (t.port p).perst = (u.port p).perst := congrArg (·.2.2.2.2.1) htport
  have hready : (t.port p).ready = (u.port p).ready := congrArg (·.2.2.2.2.2) htport
  have hotherUp : (t.port p.other).linkUp = (s.port p.other).linkUp := congrArg (·.1) htother
  have hotherMaster : (t.port p.other).busMaster = (s.port p.other).busMaster := congrArg (·.2.1) htother
  unfold PortWasReset
  refine ⟨⟨fun h => ?_, fun h => ?_, ?_, ?_, ?_, ?_, ?_, ?_, ?_, ?_, ?_, ?_, ?_, fun h => ?_, fun h => ?_, ?_, ?_, ?_, ?_,
    rfl⟩, ?_, ?_, ?_⟩
  · simpa using (hfree h).1
  · simpa using (howned h).1
  all_goals simp_all

/-- What the cause of a port reset changes at the port itself (Table BU-2). -/
def PortResetCause.mark (c : PortResetCause) (x : PortState) : PortState :=
  match c with
  | .perstAssert => { x with perst := true, ready := false }
  | _ => x

theorem exec_portReset_of_powered {s : State} (p : Port) (cause : PortResetCause) (hpowered : s.powered = true) :
    exec (.portReset p cause) s =
      .next (answered s (linkGoesDown p ((cleared s).modPort p (PortResetCause.mark cause)))) := by
  have hpowered' (f : PortState → PortState) : ((cleared s).modPort p f).powered = true := by
    unfold State.powered
    rw [State.modPort_keeper]
    exact hpowered
  change execPortReset p cause s = _
  unfold execPortReset
  refine answer_eq ?_
  cases cause with
  | perstAssert => exact if_pos (hpowered' _)
  | hotReset => cases p <;> exact if_pos hpowered
  | linkDown => cases p <;> exact if_pos hpowered

theorem linkGoesDown_reset (p : Port) (s : State) (f : PortState → PortState) :
    PortWasReset p s (answered s (linkGoesDown p ((cleared s).modPort p f))) ∧
      ((linkGoesDown p ((cleared s).modPort p f)).port p).linkUp = false ∧
      ((linkGoesDown p ((cleared s).modPort p f)).port p).perst = (f (s.port p)).perst ∧
      ((linkGoesDown p ((cleared s).modPort p f)).port p).ready = (f (s.port p)).ready := by
  unfold linkGoesDown
  obtain ⟨hreset, hup, hperst, hready⟩ := portReset_reset p (s := s)
    (u := ((cleared s).modPort p f).modPort p fun x => { x with linkUp := false })
    (by simp) (by simp) (by simp) (by simp) (by simp) (by simp)
  exact ⟨hreset, hup.trans (by simp), hperst.trans (by simp), hready.trans (by simp)⟩

/-- Settles O13: it holds. -/
theorem portResetClearsThePort : Obligations.PortResetClearsThePort := by
  unfold Obligations.PortResetClearsThePort
  intro p s hpowered
  refine ⟨fun cause => ?_, fun hup => ?_⟩
  · obtain ⟨hreset, hdown, hperst, hready⟩ := linkGoesDown_reset p s (PortResetCause.mark cause)
    refine ⟨_, exec_portReset_of_powered p cause hpowered, hreset, by simpa using hdown, fun hcause => ?_⟩
    subst hcause
    exact ⟨(congrArg PortState.perst (answered_port ..)).trans hperst,
      (congrArg PortState.ready (answered_port ..)).trans hready⟩
  · obtain ⟨hreset, hlink, -, -⟩ := portReset_reset p (s := s) (u := cleared s) rfl rfl rfl rfl rfl (by simp)
    have hopen : ((cleared s).powered && ((cleared s).port p).linkUp) = true := by
      rw [Bool.and_eq_true, cleared_port]
      exact ⟨hpowered, hup⟩
    rw [cleared_port, hup] at hlink
    exact ⟨_, answer_eq (if_pos hopen), hreset, by rw [answered_port]; exact hlink⟩

end Sys2Proof.Machine
end

section
/-!
Waits, clock losses and the stop of a core that has lost a clock.
-/

namespace Sys2Proof.Machine

open Sys2Proof

/-! ### The stop of a core that has lost a clock -/

/-- A step of the Ledger, with the reads that it lets complete: the Ledger, the conduct copies, the outputs and the count
of free values apart, the state is as it was. -/
def LedgerStep (s t : State) : Prop :=
  t = { s with ledger := t.ledger, conduct := t.conduct, out := t.out, free := t.free }

theorem LedgerStep.refl (s : State) : LedgerStep s s := rfl

theorem LedgerStep.trans {s t u : State} (h : LedgerStep s t) (k : LedgerStep t u) : LedgerStep s u := by
  unfold LedgerStep at *
  rw [k, h]

theorem LedgerStep.foldl {α : Type} {f : State → α → State} (hf : ∀ s a, LedgerStep s (f s a)) (l : List α)
    (s : State) : LedgerStep s (l.foldl f s) :=
  foldl_rel .refl .trans hf l s

section
variable (s : State)

theorem modLedger_ledgerStep (f : Ledger → Ledger) : LedgerStep s (s.modLedger f) := rfl

theorem answerRead_ledgerStep (r : Reader) (v : Word) : LedgerStep s (s.answerRead r v) := by
  unfold State.answerRead
  split <;> rfl

theorem persistAll_ledgerStep : LedgerStep s (persistAll s) :=
  LedgerStep.trans (modLedger_ledgerStep ..) (LedgerStep.foldl (f := fun s p => persisted p s) (fun _ _ => rfl) _ _)

theorem fenceReadsDone_ledgerStep : LedgerStep s (fenceReadsDone s) := by
  refine LedgerStep.foldl (fun s r => ?_) _ _
  split
  · rfl
  · exact (modLedger_ledgerStep ..).trans ((modLedger_ledgerStep ..).trans (answerRead_ledgerStep ..))

theorem failLedgerReads_ledgerStep : LedgerStep s (failLedgerReads s) := by
  unfold failLedgerReads
  extract_lets t u
  have hfences : LedgerStep s t :=
    LedgerStep.foldl (f := fun s (r : Reader × Nat) => (s.conductBit r.1.port.req 3).answerRead r.1 0)
      (fun s r => LedgerStep.trans (t := s.conductBit r.1.port.req 3) rfl (answerRead_ledgerStep ..)) _ _
  have hreads : LedgerStep t u := LedgerStep.foldl
    (f := fun s (r : Port × Nat × Nat × Nat) => s.emit (.readBytes r.1 (List.replicate r.2.2.1 (0 : Byte)) false))
    (fun _ _ => rfl) _ _
  exact (hfences.trans hreads).trans (modLedger_ledgerStep ..)

theorem dropStreams_ledgerStep : LedgerStep s (dropStreams s) := rfl

theorem settleUnlocked_ledgerStep : LedgerStep s (settleUnlocked s) := by
  refine (modLedger_ledgerStep ..).trans (LedgerStep.foldl (fun s p => ?_) _ _)
  split <;> rfl

end

/-- The core's stop, as far as the Ledger goes: RDY has fallen. -/
def lockSettled (s : State) : State := settleUnlocked (dropStreams (clearRdy (fenceReadsDone (persistAll s))))

theorem lockSettled_ledgerStep (s : State) :
    LedgerStep { s with keeper := { s.keeper with rdy := false } } (lockSettled s) := by
  refine LedgerStep.trans (LedgerStep.trans ?_ (failLedgerReads_ledgerStep _))
    ((dropStreams_ledgerStep _).trans (settleUnlocked_ledgerStep _))
  have hended := (persistAll_ledgerStep s).trans (fenceReadsDone_ledgerStep _)
  unfold LedgerStep at *
  generalize fenceReadsDone (persistAll s) = t at *
  rw [hended]

theorem applyPiece_inbox (p : Piece) (l : Ledger) : (applyPiece p l).inbox = l.inbox := by
  unfold applyPiece
  split_ifs <;> rfl

theorem wearing_inbox (island : Nat) (f : Ledger → Ledger) (l : Ledger) :
    (wearing island f l).inbox = (f l).inbox := by
  unfold wearing
  extract_lets l'
  split <;> rfl

theorem persisted_inbox (p : Piece) (s : State) : (persisted p s).ledger.inbox = s.ledger.inbox :=
  wearing_inbox ..

theorem settleUnlocked_inbox (s : State) : (settleUnlocked s).ledger.inbox = [] := by
  unfold settleUnlocked
  extract_lets ps t
  refine foldl_rel (R := fun s t => t.ledger.inbox = s.ledger.inbox) (fun _ => rfl)
    (fun h k => k.trans h) (fun s p => ?_) ps t
  split
  · exact (persisted_inbox ..).trans (applyPiece_inbox ..)
  · rfl

theorem lockStop_eq {s : State} (h : s.keeper.lockStopped = false) :
    lockStop s = { lockSettled s with keeper := { (lockSettled s).keeper with lockStopped := true } } := by
  unfold lockStop
  exact if_neg (by simp [h])

/-- What the stop of a core that has lost a clock changes, and what it leaves. -/
theorem lockStop_spec {s : State} (h : s.keeper.lockStopped = false) :
    LedgerStep { s with keeper := { s.keeper with rdy := false, lockStopped := true } } (lockStop s) ∧
      (lockStop s).ledger.inbox = [] := by
  have hsettled := lockSettled_ledgerStep s
  rw [lockStop_eq h]
  refine ⟨?_, settleUnlocked_inbox _⟩
  unfold LedgerStep at *
  generalize lockSettled s = t at *
  rw [hsettled]

/-! ### Waits and clock losses -/

theorem elapse_port (ns : Nat) (s : State) (p : Port) : (s.elapse ns).port p = (s.port p).elapse ns := by
  rw [elapse_frame]
  cases p <;> rfl

/-- A port that may issue and has something to issue waits on. -/
theorem creditWait_elapse {x : PortState} (ns : Nat) (hout : x.out ≠ []) (hissue : x.canIssue = true) :
    (x.elapse ns).creditWait = x.creditWait + ns := by
  have hempty : x.out.isEmpty = false := by simpa using hout
  simp [PortState.elapse, hempty, hissue]

theorem exec_creditWaitOver_of_wait {s : State} (p : Port) (hout : (s.port p).out ≠ [])
    (hissue : (s.port p).canIssue = true) (hwait : (s.port p).creditWait ≤ 100000) :
    exec (.creditWaitOver p) s = .next (answered s
      (((cleared s).elapse (100001 - (s.port p).creditWait)).modPort p fun x =>
        { x with creditOver := satAdd 64 x.creditOver 1 })) := by
  have hempty : (s.port p).out.isEmpty = false := by simpa using hout
  have hlate : ¬100000 < (s.port p).creditWait := by omega
  change execCreditWaitOver p s = _
  unfold execCreditWaitOver
  refine answer_eq ?_
  rw [cleared_port]
  simp [hempty, hissue, hlate]

section
variable {i : Island} {n : Nat} {s : State}

theorem exec_lockLoss_of_locked (hid : islandId i = some n) (hpowered : s.powered = true) (hn : n ≠ 211)
    (hlost : mget 0 s.power.lockLost n = 0) (hlevel : (s.island n).level ≠ .retained) :
    exec (.lockLoss i) s = .next (answered s ((({ cleared s with
      power := { s.power with lockLost := mput 0 n (s.now + 1) s.power.lockLost }
      keeper := { s.keeper with lockLosses := satAdd 64 s.keeper.lockLosses 1 } }).raise 0x101054).mgmt 9)) := by
  have hpowered' : (cleared s).powered = true := hpowered
  change execLockLoss i s = _
  unfold execLockLoss
  refine answer_eq ?_
  simp [hid, hn, hpowered', hlost, hlevel]

theorem exec_lockLoss_of_retained (hid : islandId i = some n) (hlevel : (s.island n).level = .retained)
    (hwaking : (s.island n).waking = false) : exec (.lockLoss i) s = .next (answered s (cleared s)) := by
  change execLockLoss i s = _
  unfold execLockLoss
  refine answer_eq ?_
  simp [hid, hlevel, hwaking]

/-- The clock's return within 10 µs of its loss. -/
theorem lockReturns_of_soon {m : Nat} {t : State} (hsoon : t.now ≤ mget 0 t.power.lockLost m + 9999) :
    lockReturns m t = { t with power := { t.power with lockLost := mput 0 m 0 t.power.lockLost } } := by
  unfold lockReturns
  dsimp only
  rw [if_neg]
  simp only [Bool.and_eq_true, bne_iff_ne, decide_eq_true_eq, not_and, not_lt]
  omega

theorem exec_lockReturn_of_soon (hid : islandId i = some n)
    (hstream : s.ledger.stream = []) (hreads : s.ledger.reads = [])
    (hsoon : s.now ≤ mget 0 s.power.lockLost n + 9999) :
    exec (.lockReturn i) s = .next (answered s (retryHeld { cleared s with
      power := { s.power with lockLost := mput 0 n 0 s.power.lockLost } })) := by
  change execLockReturn i s = _
  unfold execLockReturn
  refine answer_eq ?_
  rw [hid]
  dsimp only
  rw [lockReturns_of_soon (t := cleared s) hsoon]
  exact congrArg retryHeld (ledgerFlow_of_none hstream hreads)

/-- One access that waits is made again where nothing else waits. -/
theorem retryHeld_of_one {t : State} {r : Req} {a : Access} (hheld : t.held = [(r, a)])
    (hfaults : t.xlate.heldFaults = []) : retryHeld t = a.redo r { t with held := [] } := by
  have hreleased : releaseFaults t = t := by
    unfold releaseFaults
    rw [hfaults]
    obtain ⟨now, free, pending, out, held, dur, mram, durab, nv, keeper, power, dap, fabric, wired, queues, xlate⟩ := t
    obtain ⟨⟩ := xlate
    subst hfaults
    rfl
  unfold retryHeld
  dsimp only
  rw [hreleased, hheld]
  rfl

theorem exec_lockTimeout_of_lost (hid : islandId i = some n) (hpowered : s.powered = true)
    (hlost : mget 0 s.power.lockLost n ≠ 0) (hlock : s.keeper.lockStopped = false) (hnone : nothingWaits s) :
    ∃ t, exec (.lockTimeout i) s = .next t ∧ t.keeper.lockStopped = true ∧
      t.keeper.rdy = false ∧ t.ledger.inbox = [] ∧ t.nv = s.nv ∧ t.mram = s.mram ∧ t.power = s.power ∧
      mget 0 s.power.lockLost n + 9999 ≤ t.now := by
  obtain ⟨hheld, hfaults, -, -⟩ := hnone
  obtain ⟨hstep, hinbox⟩ := lockStop_spec (s := (cleared s).elapseTo (mget 0 s.power.lockLost n - 1 + 10000))
    (by simpa using hlock)
  have hexec : exec (.lockTimeout i) s =
      .next (answered s (lockStop ((cleared s).elapseTo (mget 0 s.power.lockLost n - 1 + 10000)))) := by
    have hpowered' : (cleared s).powered = true := hpowered
    change execLockTimeout i s = _
    unfold execLockTimeout
    refine answer_eq ?_
    rw [hid]
    have htimes : lockTimesOut n (cleared s) =
        lockStop ((cleared s).elapseTo (mget 0 s.power.lockLost n - 1 + 10000)) := by
      unfold lockTimesOut
      exact if_neg (by simp [hlost, hpowered'])
    dsimp only
    rw [htimes]
    generalize lockStop _ = t at *
    unfold LedgerStep at hstep
    exact retryHeld_of_none (by rw [hstep]; simpa using hheld) (by rw [hstep]; simpa using hfaults)
  generalize lockStop _ = t at *
  unfold LedgerStep at hstep
  have hlater : mget 0 s.power.lockLost n + 9999 ≤ ((cleared s).elapseTo (mget 0 s.power.lockLost n - 1 + 10000)).now := by
    rw [elapseTo_now]
    omega
  refine ⟨_, hexec, ?_, ?_, hinbox, ?_, ?_, ?_, ?_⟩
  · rw [answered_keeper, hstep]
  · rw [answered_keeper, hstep]
  · exact (congrArg State.nv hstep).trans (elapseTo_nv ..)
  · exact (congrArg State.mram hstep).trans (elapseTo_mram ..)
  · exact (congrArg State.power hstep).trans (elapseTo_power ..)
  · rw [answered_now, hstep]
    exact hlater

end

/-- Settles O14: it holds. -/
theorem waitsAndClockLossAreSeen : Obligations.WaitsAndClockLossAreSeen := by
  unfold Obligations.WaitsAndClockLossAreSeen
  refine ⟨fun p s hout hissue hwait => ⟨_, exec_creditWaitOver_of_wait p hout hissue hwait, ?_, ?_, ?_, ?_, ?_, ?_, ?_, ?_⟩,
    fun i n s hid hpowered => ⟨exec_lockLoss_of_locked hid hpowered, exec_lockLoss_of_retained hid,
      fun hfaults hstream hreads hsoon => ⟨fun hheld => ?_, fun r a hheld => ?_⟩,
      exec_lockTimeout_of_lost hid hpowered⟩⟩
  · simp [elapse_port, PortState.elapse]
  · have hsum := creditWait_elapse (100001 - (s.port p).creditWait) hout hissue
    simp only [answered_port, State.modPort_port, elapse_port, cleared_port, hsum]
    omega
  · simp
  · simp
  · simp
  · simp
  · simp
  · simp
  · rw [exec_lockReturn_of_soon hid hstream hreads hsoon]
    exact congrArg (fun t => Host.Outcome.next (answered s t)) (retryHeld_of_none hheld hfaults)
  · rw [exec_lockReturn_of_soon hid hstream hreads hsoon]
    exact congrArg (fun t => Host.Outcome.next (answered s t)) (retryHeld_of_one hheld hfaults)

end Sys2Proof.Machine
end

section
/-!
A dictionary write and a register write that nothing stops have their effect at once.
-/

namespace Sys2Proof.Machine

open Sys2Proof

/-! ### A dictionary write that nothing stops -/

/-- The judgement of a write does not look at which islands are busy. -/
theorem judgeWrite_begun (s : State) (ids : List Nat) (r : Req) (image : Bool) (o : Obj) (e : Nat) (bs : List Byte) :
    judgeWrite (begun s ids) r image o e bs = judgeWrite s r image o e bs := by
  rw [begun_frame]
  exact judgeWrite_power (cleared s) ..

/-- An object stands at one island at most. -/
theorem objIslands_nodup (o : Obj) (e : Nat) : (objIslands o e).Nodup := by
  unfold objIslands
  split
  case h_19 =>
    split
    · exact List.nodup_nil
    · split
      · exact List.nodup_singleton _
      · exact List.nodup_nil
    · split
      · exact List.nodup_singleton _
      · exact List.nodup_nil
  all_goals exact List.nodup_singleton _

/-- A requester's dictionary write that no reason stops and no bank holds has its effect at once. -/
theorem dictCommand_of_held {s : State} {r : Req} {o : Obj} {e : Nat} {bs : List Byte} {t : State}
    (hobj : objAt o.index o.sub = some o)
    (hopen : dictOpen s r (objIslands o e) = true)
    (hjudge : judgeWrite s r false o e (bytesAt bs 0 o.desc.len) = none)
    (heffect : (applyAny r o e (bytesAt bs 0 o.desc.len) (begun s (objIslands o e))).clampedBy r
      (o.clamps (bytesAt bs 0 o.desc.len)) = t)
    (hheld : heldBanks (begun s (objIslands o e)) t = []) : dictCommand r o e bs (cleared s) = t := by
  have hrdy : (begun s (objIslands o e)).keeper.rdy = true := by
    simp only [dictOpen, Bool.and_eq_true] at hopen
    rw [begun_keeper]
    exact hopen.1.1.1.2
  have hwrite : (dictWrite r o.index o.sub e bs (begun s (objIslands o e))).1 = t := by
    rw [dictWrite_ready bs hrdy hobj, writeObject_of_none _ _ _ _ ((judgeWrite_begun ..).trans hjudge), heffect]
  rw [dictCommand_open (s := cleared s) bs (objIslands_nodup o e) hopen (by
    change heldBanks (begun s (objIslands o e)) _ = []
    rw [show busyAll (cleared s) (objIslands o e) = begun s (objIslands o e) from rfl, hwrite, hheld])]
  exact hwrite

/-- A requester's dictionary write that no reason stops has its effect at once where every bank has room. -/
theorem dictCommand_taken {s : State} {r : Req} {o : Obj} {e : Nat} {bs : List Byte}
    (hobj : objAt o.index o.sub = some o)
    (hopen : dictOpen s r (objIslands o e) = true) (hroom : roomToDirty s)
    (hjudge : judgeWrite s r false o e (bytesAt bs 0 o.desc.len) = none) :
    dictCommand r o e bs (cleared s) =
      (applyAny r o e (bytesAt bs 0 o.desc.len) (begun s (objIslands o e))).clampedBy r
        (o.clamps (bytesAt bs 0 o.desc.len)) :=
  dictCommand_of_held hobj hopen hjudge rfl (heldBanks_room _ (room_busyAll _ hroom))

@[simp] theorem clampedBy_false (s : State) (r : Req) : s.clampedBy r false = s := rfl

/-- The bytes of an object at its own length. -/
theorem bytesAt_idem (bs : List Byte) (n : Nat) : bytesAt (bytesAt bs 0 n) 0 n = bytesAt bs 0 n := by
  simp [bytesAt]

/-! ### A register write that reaches its register -/

theorem regNow_begun (s : State) (ids : List Nat) (w : Window) (off : Nat) :
    regNow (begun s ids) w off = regNow s w off := by
  have hpresent : Reg.present (begun s ids) = Reg.present s := by
    funext g
    cases g <;> simp only [Reg.present, begun_queue]
  simp only [regNow, hpresent]

theorem regAllowed_begun (s : State) (ids : List Nat) (p : Port) (w : Window) (off : Nat) :
    regAllowed (begun s ids) p w off = regAllowed s p w off := by
  rw [begun_frame]
  rfl

/-- The owner's access to a Hatch register, if it is one (R139). -/
def touched (p : Port) (w : Window) (off : Nat) (s : State) : State :=
  if w = .bar0 then hatchPageTouch p off s else s

/-- A posted write of a register that its link may access has the register's effect at once, where no bank holds it. -/
theorem regWrite_of_held {s : State} {p : Port} {w : Window} {off v : Nat} {ids : List Nat} {g : Reg} {t : State}
    (howner : (regOwner p w off).2 ++ bankOfMask w off v = ids) (hnodup : ids.Nodup)
    (hreg : regNow s w off = some g) (hallowed : regAllowed s p w off = true) (hopen : postedOpen s p ids = true)
    (heffect : writeReg p w off v g (touched p w off (begun s ids)) = t) (hheld : heldBanks (begun s ids) t = []) :
    regWrite p w off v (cleared s) = t := by
  subst howner
  unfold regWrite
  refine (hostWrite_open _ _ hnodup rfl (by rw [postedOpen_cleared, hopen]) ?_).trans ?_
  all_goals
    simp only [show ∀ l, busyAll (cleared s) l = begun s l from fun _ => rfl, regNow_begun, hreg, regAllowed_begun,
      hallowed, if_true]
    rw [touched] at heffect
  · rw [heffect, hheld]
  · exact heffect

/-- A posted write of a register that its link may not access is counted and changes nothing else. -/
theorem regWrite_of_denied {s : State} {p : Port} {w : Window} {off v : Nat} {ids : List Nat} {g : Reg}
    (howner : (regOwner p w off).2 ++ bankOfMask w off v = ids) (hnodup : ids.Nodup)
    (hreg : regNow s w off = some g) (hallowed : regAllowed s p w off = false) (hopen : postedOpen s p ids = true) :
    regWrite p w off v (cleared s) = (begun s ids).ignoredWrite p.req (windowSpace w) off rAccess := by
  subst howner
  unfold regWrite
  refine (hostWrite_open _ _ hnodup rfl (by rw [postedOpen_cleared, hopen]) ?_).trans ?_
  all_goals
    simp only [show ∀ l, busyAll (cleared s) l = begun s l from fun _ => rfl, regNow_begun, hreg, regAllowed_begun,
      hallowed, Bool.false_eq_true, if_false]
  exact heldBanks_same (by rw [ignoredWrite_durab])

/-- A posted write of a register that its link may access has the register's effect at once where every bank has
room. -/
theorem regWrite_taken {s : State} {p : Port} {w : Window} {off v : Nat} {ids : List Nat} {g : Reg}
    (howner : (regOwner p w off).2 ++ bankOfMask w off v = ids) (hnodup : ids.Nodup)
    (hreg : regNow s w off = some g) (hallowed : regAllowed s p w off = true) (hopen : postedOpen s p ids = true)
    (hroom : roomToDirty s) :
    regWrite p w off v (cleared s) = writeReg p w off v g (touched p w off (begun s ids)) :=
  regWrite_of_held howner hnodup hreg hallowed hopen rfl (heldBanks_room _ (room_busyAll _ hroom))

/-! ### A write of a register that is an object's value, by a link or by the sideband -/

/-- The effect of a register that is an object's value, where no reason stops the write. -/
theorem writeReg_object {s : State} {p : Port} {w : Window} {off v : Nat} {o : Obj} {e width : Nat}
    (hwidth : width ≠ 0) (hjudge : judgeWrite s p.req false o e (valueBytes p.req o width v) = none) :
    writeReg p w off v (.object o e width) s =
      (applyObject p.req false o e (valueBytes p.req o width v) s).clampedBy p.req
        (o.clamps (valueBytes p.req o width v)) := by
  have hlink : p.req ≠ .sideband := by cases p <;> simp [Port.req]
  simp only [valueBytes, if_neg hlink] at hjudge ⊢
  simp only [writeReg, if_neg hwidth]
  exact writeObject_of_none _ _ _ _ hjudge

section
variable {s : State} {r : Req} {w : Window} {off v : Nat} {o : Obj} {e width : Nat} {reg : List Nat}
  (hwidth : width ≠ 0) (hreg : regNow s w off = some (.object o e width))
  (howner : ∀ p, (regOwner p w off).2 ++ bankOfMask w off v = reg)
  (htouch : ∀ p t, touched p w off t = t)
  (hany : applyAny r o e (valueBytes r o width v) = applyObject r false o e (valueBytes r o width v))
  (hnodup : reg.Nodup) (hobj : objAt o.index o.sub = some o)
include hwidth hreg howner htouch hany hnodup hobj

/-- A value that a requester writes, through the register or as the object, and that no reason stops, has its effect at
once where no bank holds it. -/
theorem viaRegister_of_held {t : State} (hallowed : ∀ p, p.req = r → regAllowed s p w off = true)
    (hopen : writeOpen s r reg (objIslands o e) = true)
    (hjudge : judgeWrite s r false o e (valueBytes r o width v) = none)
    (heffect : (applyObject r false o e (valueBytes r o width v) (written s r reg (objIslands o e))).clampedBy r
      (o.clamps (valueBytes r o width v)) = t)
    (hheld : heldBanks (written s r reg (objIslands o e)) t = []) :
    viaRegister r w off v o e (cleared s) = t := by
  have hlink : ∀ p : Port, p.req = r → regWrite p w off v (cleared s) = t := by
    rintro p rfl
    have hne : p.req ≠ .sideband := by cases p <;> simp [Port.req]
    have hopen' : postedOpen s p reg = true := by cases p <;> exact hopen
    simp only [written, if_neg hne] at heffect hheld
    refine regWrite_of_held (howner p) hnodup hreg (hallowed p rfl) hopen' ?_ hheld
    rw [htouch, writeReg_object hwidth ((judgeWrite_begun ..).trans hjudge)]
    exact heffect
  cases r with
  | linkA => exact hlink .a rfl
  | linkB => exact hlink .b rfl
  | sideband =>
    simp only [written, if_true] at heffect hheld
    have hbs : bytesAt (leBytes o.desc.len v) 0 o.desc.len = valueBytes .sideband o width v := rfl
    refine dictCommand_of_held hobj hopen (by rw [hbs]; exact hjudge) ?_ hheld
    rw [hbs, hany]
    exact heffect

/-- A value that a requester writes, through the register or as the object, and that no reason stops, has its effect at
once where every bank has room. -/
theorem viaRegister_taken (hallowed : ∀ p, p.req = r → regAllowed s p w off = true)
    (hopen : writeOpen s r reg (objIslands o e) = true) (hroom : roomToDirty s)
    (hjudge : judgeWrite s r false o e (valueBytes r o width v) = none) :
    viaRegister r w off v o e (cleared s) =
      (applyObject r false o e (valueBytes r o width v) (written s r reg (objIslands o e))).clampedBy r
        (o.clamps (valueBytes r o width v)) :=
  viaRegister_of_held hwidth hreg howner htouch hany hnodup hobj hallowed hopen hjudge rfl
    (heldBanks_room _ (room_busyAll _ hroom))

end

end Sys2Proof.Machine
end

section
/-!
Pins ask as configured; wired configuration is written.
-/

namespace Sys2Proof.Machine

open Sys2Proof

/-! ### A pin qualifies a new level (WS.2) -/

/-- A change of a pin's filtered value, FILTER x 10 ns after its filter began to count. -/
def pinQualified (pin : Nat) (level : Bool) (since filter : Nat) (s : State) : State :=
  let w := (s.elapseTo (since + 10 * filter)).restartFilter pin
  { w with wired := { w.wired with pins := mput false pin level w.wired.pins } }

/-- A pin that qualifies a new level asks for what its mode takes from the change. -/
theorem exec_pinQualify {s : State} {pin : Fin 512} {level : Bool}
    (hready : islandsReady s [idGather (gatherOf (0x100000 + pin))] = true) (hlive : s.wiredLive = true)
    (hnew : s.pinValue pin ≠ level) :
    exec (.pinQualify pin level) s = .next (answered s
      (let x := pinQualified pin level (s.pinSince pin) (s.pinCfg pin).filter
        (begun s [idGather (gatherOf (0x100000 + pin))])
      let mode := (s.pinCfg pin).mode
      let event := (modeAsserts mode level && !modeAsserts mode (!level)) || edgeEvent mode (!level) level
      if event || isLevelMode mode then wiredRequest (0x100000 + pin) event (modeAsserts mode level) x else x)) := by
  have hold : s.pinValue pin = !level := by cases level <;> simpa using hnew
  change execPinQualify pin level s = _
  unfold execPinQualify
  refine answer_eq ((onArrival_ready (s := cleared s) _ (List.nodup_singleton _) hready).trans ?_)
  refine (if_neg ?_).trans ?_
  · rw [busyAll_frame]
    change ¬ (!s.wiredLive || s.pinValue pin == level) = true
    simp [hlive, hnew]
  · rw [← hold, show busyAll (cleared s) [idGather (gatherOf (0x100000 + pin))] = begun s _ from rfl, begun_frame]
    rfl

/-- What a mode takes from a change to a level, case by case (Table WS-1). -/
theorem pinRequest_eq (sn mode : Nat) (level : Bool) (x : State) :
    (let event := (modeAsserts mode level && !modeAsserts mode (!level)) || edgeEvent mode (!level) level
      if event || isLevelMode mode then wiredRequest sn event (modeAsserts mode level) x else x) =
      match mode with
      | 1 => wiredRequest sn level level x
      | 2 => wiredRequest sn (!level) (!level) x
      | 3 => if level then wiredRequest sn true false x else x
      | 4 => if level then x else wiredRequest sn true false x
      | 5 => wiredRequest sn true false x
      | _ => x := by
  rcases mode with _ | _ | _ | _ | _ | _ | n
  all_goals cases level <;> simp [modeAsserts, edgeEvent, isLevelMode]

/-! ### Wired configuration is written (WS.2, WS.7) -/

theorem wiredObj_pin {line : Nat} (h : line < 512) : wiredObj line = .pinConfig line := if_pos h

theorem wiredObj_line {line : Nat} (h : 512 ≤ line) :
    wiredObj line = .lineConfig ((line - 512) / 64) ((line - 512) % 64) := if_neg (by omega)

/-- The objects from 0x5000 to 0x5FFF. -/
theorem objAt_wired {index : Nat} (hlow : 0x5000 ≤ index) (hhigh : index < 0x6000) (sub : Nat) :
    objAt index sub = objWired index sub := by
  unfold objAt
  rw [if_neg (by omega), if_neg (by omega), if_neg (by omega), if_neg (by omega), if_neg (by omega),
    if_pos (by omega)]

theorem objAt_pinConfig {p : Nat} (h : p < 512) : objAt (Obj.pinConfig p).index (Obj.pinConfig p).sub =
    some (.pinConfig p) := by
  have hpage : p / 256 = 0 ∨ p / 256 = 1 := by omega
  have hnumber : p = 256 * (p / 256) + p % 256 := by omega
  simp only [Obj.index, Obj.sub]
  rw [objAt_wired (by omega) (by omega)]
  rcases hpage with h0 | h1
  · rw [h0]
    exact congrArg (some ∘ Obj.pinConfig) (by omega)
  · rw [h1]
    exact congrArg (some ∘ Obj.pinConfig) (by omega)

theorem objAt_lineConfig {n i : Nat} (hn : n < 56) (hi : i < 64) :
    objAt (Obj.lineConfig n i).index (Obj.lineConfig n i).sub = some (.lineConfig n i) := by
  simp only [Obj.index, Obj.sub]
  rw [objAt_wired (by omega) (by omega)]
  unfold objWired
  simp only [Nat.add_sub_cancel_left]
  rw [if_pos (by omega), if_neg (by omega), if_neg (by omega), if_neg (by omega), if_neg (by omega),
    if_neg (by omega), if_pos (by simp; omega)]

theorem objAt_laneControl {n : Nat} (hn : n < 56) :
    objAt (Obj.laneControl n).index (Obj.laneControl n).sub = some (.laneControl n) := by
  simp only [Obj.index, Obj.sub]
  rw [objAt_wired (by omega) (by omega)]
  unfold objWired
  simp only [Nat.add_sub_cancel_left]
  rw [if_pos (by omega), if_neg (by omega), if_pos trivial]

theorem applyObject_pinConfig (r : Req) {p : Nat} (hp : p < 512) (e : Nat) (bs : List Byte) (s : State) :
    applyObject r false (.pinConfig p) e bs s = setPinCfg p (fieldAt bs 0 1) (fieldAt bs 1 1) s := by
  have h1 : ¬ 20480 + p / 256 < 12288 := by omega
  have h2 : 20480 + p / 256 < 28672 := by omega
  have h0 : ¬ 20480 + p / 256 < 4096 := by omega
  simp only [applyObject, Obj.index, h0, h1, h2, if_true, if_false, writeUnit]

theorem applyObject_lineConfig (r : Req) {n : Nat} (hn : n < 56) (i e : Nat) (bs : List Byte) (s : State) :
    applyObject r false (.lineConfig n i) e bs s = setLineCfg n i (fieldAt bs 0 1) s := by
  have h0 : ¬ 20736 + n < 4096 := by omega
  have h1 : ¬ 20736 + n < 12288 := by omega
  have h2 : 20736 + n < 28672 := by omega
  simp only [applyObject, Obj.index, h0, h1, h2, if_true, if_false, writeUnit]

theorem applyObject_laneControl (r : Req) {n : Nat} (hn : n < 56) (e : Nat) (bs : List Byte) (s : State) :
    applyObject r false (.laneControl n) e bs s = setLaneCtl n (laneCfgOf bs) s := by
  have h0 : ¬ 20736 + n < 4096 := by omega
  have h1 : ¬ 20736 + n < 12288 := by omega
  have h2 : 20736 + n < 28672 := by omega
  simp only [applyObject, Obj.index, h0, h1, h2, if_true, if_false, writeUnit]

theorem clamps_lineConfig (n i : Nat) (bs : List Byte) : (Obj.lineConfig n i).clamps bs = false := by
  simp [Obj.clamps, Obj.legal, Obj.desc, mkDesc, tRec]

/-- Settles O15: it holds. -/
theorem pinsAskAsConfigured : Obligations.PinsAskAsConfigured := by
  refine ⟨?_, ?_, ?_, ?_⟩
  · intro pin level s hready hlive hnew
    refine (exec_pinQualify hready hlive hnew).trans ?_
    rw [pinRequest_eq]
    rfl
  · intro r line bs s hline hopen hroom hjudge
    change execLineConfigWrite r line bs s = _
    refine answer_eq ?_
    rw [wiredObj_pin hline, dictCommand_taken (objAt_pinConfig hline) hopen hroom hjudge]
    exact congrArg (State.clampedBy · r _) (applyObject_pinConfig r hline 0 _ _)
  · intro r line bs s hline hopen hroom hjudge
    have hlane : (line.val - 512) / 64 < 56 := by omega
    have hbit : (line.val - 512) % 64 < 64 := Nat.mod_lt _ (by decide)
    change execLineConfigWrite r line bs s = _
    refine answer_eq ?_
    rw [wiredObj_line hline,
      dictCommand_taken (objAt_lineConfig hlane hbit) hopen hroom hjudge, clamps_lineConfig]
    exact applyObject_lineConfig r hlane _ 0 _ _
  · intro r n bs s hopen hroom hjudge
    change execLaneControlWrite r n bs s = _
    refine answer_eq ?_
    rw [dictCommand_taken (objAt_laneControl n.isLt) hopen hroom hjudge]
    exact congrArg (State.clampedBy · r _) (applyObject_laneControl r n.isLt 0 _ _)

end Sys2Proof.Machine
end

section
/-!
Frames and timeouts of a LOCKED lane.
-/

namespace Sys2Proof.Machine

open Sys2Proof

/-! ### Steps that change the fabric alone -/

/-- A step that changes the fabric and nothing else. -/
def FabricStep (s t : State) : Prop := t = { s with fabric := t.fabric }

namespace FabricStep

theorem refl (s : State) : FabricStep s s := rfl

theorem trans {s t u : State} (hst : FabricStep s t) (htu : FabricStep t u) : FabricStep s u := by
  unfold FabricStep at *
  rw [htu, hst]

theorem foldl {α : Type} {f : State → α → State} (hf : ∀ s a, FabricStep s (f s a)) (l : List α) (s : State) :
    FabricStep s (l.foldl f s) :=
  foldl_rel refl (fun h h' => trans h h') hf l s

section
variable {s t : State} (h : FabricStep s t)
include h

theorem now_eq : t.now = s.now := by rw [h]
theorem dur_eq : t.dur = s.dur := by rw [h]
theorem durab_eq : t.durab = s.durab := by rw [h]
theorem wired_eq : t.wired = s.wired := by rw [h]
theorem keeper_eq : t.keeper = s.keeper := by rw [h]
theorem nv_eq : t.nv = s.nv := by rw [h]
theorem ledger_eq : t.ledger = s.ledger := by rw [h]
theorem mram_eq : t.mram = s.mram := by rw [h]
theorem lane_eq (n : Nat) : t.lane n = s.lane n := by rw [h]; rfl
theorem laneCfg_eq (n : Nat) : t.laneCfg n = s.laneCfg n := by rw [h]; rfl
end

theorem modFabric (s : State) (f : Fabric → Fabric) : FabricStep s (s.modFabric f) := rfl

theorem submit (s : State) (i g : Nat) (e : Event) : FabricStep s (s.submit i g e) := by
  unfold State.submit
  split
  · exact modFabric ..
  · exact modFabric ..

theorem raise (s : State) (sn : Nat) : FabricStep s (s.raise sn) := submit ..

theorem wiredRequest (sn : Nat) (a l : Bool) (s : State) : FabricStep s (wiredRequest sn a l s) := by
  unfold Machine.wiredRequest
  split
  · exact modFabric ..
  · exact modFabric s fun f => { f with gatherQ := mmod [] f.gatherQ _ _ }

theorem applyLine (n : Nat) (fromOff all edgeAll : Bool) (old new : BitVec 64) (s : State) (i : Nat) :
    FabricStep s (applyLine n fromOff all edgeAll old new s i) := by
  unfold Machine.applyLine
  dsimp only
  split
  · exact wiredRequest ..
  · exact refl _

end FabricStep

/-! ### Steps of a lane -/

/-- A lane whose record is another than the reset one. -/
theorem lane_ne_initial {l : Lane} (h : l.state ≠ .off) : l ≠ .initial := fun he => h (by rw [he]; rfl)

/-- A lane's record as it was just changed. -/
theorem lane_modLane {s : State} {n : Nat} {f : Lane → Lane} (h : (f (s.lane n)).state ≠ .off) :
    (s.modLane n f).lane n = f (s.lane n) := mget_mput_of_ne (lane_ne_initial h) _ _

/-- A step of the lanes: the fabric and the lanes' records change, and nothing else. -/
def LaneStep (s t : State) : Prop :=
  t = { s with fabric := t.fabric, wired := { s.wired with lanes := t.wired.lanes } }

namespace LaneStep

theorem refl (s : State) : LaneStep s s := rfl

theorem trans {s t u : State} (hst : LaneStep s t) (htu : LaneStep t u) : LaneStep s u := by
  unfold LaneStep at *
  rw [htu, hst]

theorem of_fabric {s t : State} (h : FabricStep s t) : LaneStep s t := by
  unfold LaneStep FabricStep at *
  rw [h]

theorem modLane (s : State) (n : Nat) (f : Lane → Lane) : LaneStep s (s.modLane n f) := rfl

section
variable {s t : State} (h : LaneStep s t)
include h

theorem now_eq : t.now = s.now := by rw [h]
theorem dur_eq : t.dur = s.dur := by rw [h]
theorem durab_eq : t.durab = s.durab := by rw [h]
theorem keeper_eq : t.keeper = s.keeper := by rw [h]
theorem nv_eq : t.nv = s.nv := by rw [h]
theorem ledger_eq : t.ledger = s.ledger := by rw [h]
theorem mram_eq : t.mram = s.mram := by rw [h]
end

end LaneStep

/-! ### A frame in a LOCKED lane (WS.5) -/

/-- A lane's record after a frame is applied at a time. -/
def Lane.applied (l : Lane) (seq now : Nat) (cells : List (Option Bool)) : Lane :=
  { l with
    held := frameLines l.held cells, lastSeq := seq, fromOff := false, fromStale := false, fromRecovery := false,
    lastApplied := now, framesApplied := satAdd 64 l.framesApplied 1 }

theorem applyFrame_laneStep (n seq : Nat) (gap : Bool) (cells : List (Option Bool)) (s : State) :
    LaneStep s (applyFrame n seq gap cells s) := by
  unfold applyFrame
  exact (LaneStep.of_fabric (FabricStep.foldl (fun _ _ => FabricStep.applyLine ..) _ _)).trans (.modLane ..)

theorem applyFrame_lane {n seq : Nat} {gap : Bool} {cells : List (Option Bool)} {s : State}
    (hlocked : (s.lane n).state = .locked) :
    (applyFrame n seq gap cells s).lane n = (s.lane n).applied seq s.now cells := by
  unfold applyFrame
  extract_lets l new edgeAll t
  have hlines : FabricStep s t := FabricStep.foldl (fun _ _ => FabricStep.applyLine ..) _ _
  rw [lane_modLane (by rw [hlines.lane_eq, hlocked]; simp), hlines.lane_eq, hlines.now_eq]
  rfl

/-- What the sequence check makes of a LOCKED lane's record (R238). -/
def Lane.checked (l : Lane) (seq now : Nat) (cells : List (Option Bool)) : Lane :=
  let d := (seq + 256 - l.lastSeq) % 256
  if d = 1 then l.applied seq now cells
  else if d = 0 then { l.flag 5 with duplicates := satAdd 64 l.duplicates 1 }
  else { l.flag 4 with framesMissed := satAdd 64 l.framesMissed ((d + 255) % 256) }.applied seq now cells

theorem checkedApply_laneStep (n seq : Nat) (cells : List (Option Bool)) (s : State) :
    LaneStep s (checkedApply n seq cells s) := by
  unfold checkedApply
  dsimp only
  split_ifs
  · exact applyFrame_laneStep ..
  · exact .modLane ..
  · exact (LaneStep.modLane ..).trans (applyFrame_laneStep ..)

theorem checkedApply_lane {n seq : Nat} {cells : List (Option Bool)} {s : State}
    (hlocked : (s.lane n).state = .locked) :
    (checkedApply n seq cells s).lane n = (s.lane n).checked seq s.now cells := by
  have hkept : ∀ f : Lane → Lane, (f (s.lane n)).state = .locked → (s.modLane n f).lane n = f (s.lane n) :=
    fun f hf => lane_modLane (by rw [hf]; simp)
  unfold checkedApply Lane.checked
  dsimp only
  split_ifs
  · exact applyFrame_lane hlocked
  · exact hkept _ hlocked
  · rw [applyFrame_lane (by rw [hkept _ hlocked]; exact hlocked), hkept _ hlocked]
    rfl

/-- A repeated frame changes no request. -/
theorem checkedApply_fabric_of_duplicate {n seq : Nat} {cells : List (Option Bool)} {s : State}
    (hsame : (seq + 256 - (s.lane n).lastSeq) % 256 = 0) : (checkedApply n seq cells s).fabric = s.fabric := by
  unfold checkedApply
  simp only [hsame]
  rfl

/-- A whole good frame in a LOCKED lane passes to the sequence check (Table WS-4, R235). -/
theorem lockedFrame_good {n : Nat} {f : SillFrame} {seq : Nat} {s : State} (hnext : f.nextSync = some 96)
    (hsome : (frameCells (s.laneCfg n).invert f).all Option.isSome = true)
    (hcrc : crcPasses (frameCells (s.laneCfg n).invert f) = true)
    (hseq : seqOf (frameCells (s.laneCfg n).invert f) = some seq) :
    lockedFrame n f s = checkedApply n seq (frameCells (s.laneCfg n).invert f) s := by
  have hcut : frameCut f = none := by simp [frameCut, hnext]
  have hlate : lateSync f = false := by simp [lateSync, hnext]
  simp [lockedFrame, hcut, hlate, hnext, wholeFrame, hsome, hcrc, lenientApply, hseq]

theorem takePendingCtl_of_none {n : Nat} {s : State} (h : (s.lane n).pendingCtl = none) : takePendingCtl n s = s := by
  simp [takePendingCtl, h]

theorem checked_state (l : Lane) (seq now : Nat) (cells : List (Option Bool)) :
    (l.checked seq now cells).state = l.state := by
  unfold Lane.checked
  dsimp only
  split_ifs <;> rfl

theorem checked_pendingCtl (l : Lane) (seq now : Nat) (cells : List (Option Bool)) :
    (l.checked seq now cells).pendingCtl = l.pendingCtl := by
  unfold Lane.checked
  dsimp only
  split_ifs <;> rfl

@[simp] theorem begun_lane (s : State) (ids : List Nat) (n : Nat) : (begun s ids).lane n = s.lane n := by
  rw [begun_frame]
  rfl

@[simp] theorem begun_laneCfg (s : State) (ids : List Nat) (n : Nat) : (begun s ids).laneCfg n = s.laneCfg n := by
  rw [begun_frame]
  rfl

@[simp] theorem begun_wiredLive (s : State) (ids : List Nat) : (begun s ids).wiredLive = s.wiredLive := by
  rw [begun_frame]
  rfl

/-- A lane's record at the end of a frame (R237). -/
def Lane.frameEnded (l : Lane) (enforced resync : Bool) : Lane := { l with enforced := enforced, resync := resync }

/-- A good frame is judged by its sequence, and the lane's enforcement is taken anew. -/
def frameTaken (n seq : Nat) (cells : List (Option Bool)) (s : State) : State :=
  let t := checkedApply n seq cells s
  t.modLane n fun l => l.frameEnded (t.crcEnforced n) false

/-- A whole good frame in a LOCKED lane is judged by its sequence, and the lane's enforcement is taken anew. -/
theorem exec_sillFrame_good {s : State} {n : Fin 56} {f : SillFrame} {seq : Nat}
    (hready : islandsReady s [idGather n] = true) (hlive : s.wiredLive = true) (hlocked : (s.lane n).state = .locked)
    (hpending : (s.lane n).pendingCtl = none)
    (hsync : isSync (if (s.laneCfg n).invert then ~~~f.sync else f.sync) = true) (hnext : f.nextSync = some 96)
    (hsome : (frameCells (s.laneCfg n).invert f).all Option.isSome = true)
    (hcrc : crcPasses (frameCells (s.laneCfg n).invert f) = true)
    (hseq : seqOf (frameCells (s.laneCfg n).invert f) = some seq) :
    exec (.sillFrame n f) s = .next (answered s
      (frameTaken n seq (frameCells (s.laneCfg n).invert f) (begun s [idGather n]))) := by
  have hbegun : ((begun s [idGather n]).lane n).state = .locked := by rw [begun_lane, hlocked]
  have hnone : ((checkedApply n seq (frameCells (s.laneCfg n).invert f) (begun s [idGather n])).lane n).pendingCtl =
      none := by
    rw [checkedApply_lane hbegun, checked_pendingCtl, begun_lane, hpending]
  change execSillFrame n f s = _
  unfold execSillFrame
  refine answer_eq ((onArrival_ready (s := cleared s) _ (List.nodup_singleton _) hready).trans ?_)
  change (if _ then begun s [idGather n] else _) = _
  simp only [show busyAll (cleared s) [idGather n] = begun s [idGather n] from rfl, begun_lane, begun_laneCfg,
    begun_wiredLive, hlive, hlocked, hsync]
  rw [lockedFrame_good hnext (by rw [begun_laneCfg]; exact hsome) (by rw [begun_laneCfg]; exact hcrc)
    (by rw [begun_laneCfg]; exact hseq), begun_laneCfg]
  have hother : (LaneState.locked == .hunting || LaneState.locked == .stale) = false := rfl
  simp only [hnext, hother, Bool.false_eq_true, if_false]
  rw [takePendingCtl_of_none hnone]
  rfl

/-- A frame that is judged by its sequence changes the lane as the check says, and nothing outside the lanes and their
requests. -/
theorem frameTaken_spec {n seq : Nat} {cells : List (Option Bool)} {s : State}
    (hlocked : (s.lane n).state = .locked) : LaneStep s (frameTaken n seq cells s) ∧
      ∃ enforced, (frameTaken n seq cells s).lane n =
        ((s.lane n).checked seq s.now cells).frameEnded enforced false := by
  refine ⟨(checkedApply_laneStep n seq cells s).trans (.modLane ..), (checkedApply n seq cells s).crcEnforced n, ?_⟩
  have hlane := checkedApply_lane (seq := seq) (cells := cells) hlocked
  have hstate : (((s.lane n).checked seq s.now cells).frameEnded
      ((checkedApply n seq cells s).crcEnforced n) false).state = .locked :=
    (checked_state ..).trans hlocked
  unfold frameTaken
  refine (lane_modLane ?_).trans (by rw [hlane])
  rw [hlane, hstate]
  simp

/-! ### The frame watchdog of a LOCKED lane (WS.6) -/

/-- A lane's record in STALE. -/
def Lane.stalled (l : Lane) : Lane :=
  { l.flag 6 with state := .stale, goodSeq := none, fromStale := true, timeouts := satAdd 64 l.timeouts 1 }

/-- What STALE_POLICY changes of a lane: its held values, where it holds any. -/
def HeldOnly (n : Nat) (s t : State) : Prop :=
  LaneStep s t ∧ ((s.lane n).state ≠ .off → t.lane n = { s.lane n with held := (t.lane n).held })

theorem HeldOnly.refl (n : Nat) (s : State) : HeldOnly n s s := ⟨.refl s, fun _ => rfl⟩

theorem HeldOnly.trans {n : Nat} {s t u : State} (hst : HeldOnly n s t) (htu : HeldOnly n t u) : HeldOnly n s u := by
  obtain ⟨hst, hlane⟩ := hst
  obtain ⟨htu, hlane'⟩ := htu
  refine ⟨hst.trans htu, fun hon => ?_⟩
  have ht := hlane hon
  rw [hlane' (by rw [ht]; exact hon), ht]

theorem HeldOnly.of_fabric {n : Nat} {s t : State} (h : FabricStep s t) : HeldOnly n s t :=
  ⟨.of_fabric h, fun _ => by rw [h.lane_eq]⟩

theorem HeldOnly.setHeld (n : Nat) (s : State) (f : Lane → BitVec 64) :
    HeldOnly n s (s.modLane n fun l => { l with held := f l }) := by
  refine ⟨.modLane .., fun hon => ?_⟩
  have hlane := lane_modLane (s := s) (n := n) (f := fun l => { l with held := f l }) hon
  rw [hlane]

theorem staleLine_heldOnly (n policy : Nat) (s : State) (i : Nat) : HeldOnly n s (staleLine n policy s i) := by
  unfold staleLine
  dsimp only
  split
  · exact .refl ..
  · split
    · exact (HeldOnly.setHeld ..).trans (.of_fabric (.wiredRequest ..))
    · split
      · exact .of_fabric (.wiredRequest ..)
      · exact .refl ..

/-- A raised source's event is the last at its Gather island, or the last that its sender holds for it (R44). -/
theorem raise_spec {s : State} (sn : Nat) (hckpt : s.durab.ckpt = none) :
    (∃ es, (s.raise sn).gathered (gatherOf sn) = es ++ [⟨raiserOf sn, 0, .raise sn⟩]) ∨
      ∃ es, mget [] (s.raise sn).fabric.submitHeld (64 * raiserOf sn + gatherOf sn) =
        es ++ [⟨raiserOf sn, 0, .raise sn⟩] := by
  have hsent : s.sent (raiserOf sn) (Event.raise sn) = ⟨raiserOf sn, 0, .raise sn⟩ := by
    simp [State.sent, State.mark, hckpt]
  unfold State.raise State.raiseFrom State.submit
  rw [hsent]
  split
  · exact .inl ⟨_, mget_mput_of_ne (by simp) _ _⟩
  · exact .inr ⟨_, mget_mput_of_ne (by simp) _ _⟩

theorem takePendingCtl_lane {n : Nat} {s : State} (hon : (s.lane n).state ≠ .off) :
    (takePendingCtl n s).lane n = { s.lane n with pendingCtl := none } := by
  unfold takePendingCtl
  split
  · exact lane_modLane hon
  · rename_i hnone
    rw [← hnone]

theorem takePendingCtl_frame (n : Nat) (s : State) : takePendingCtl n s =
    { s with
      dur := (takePendingCtl n s).dur
      durab := { s.durab with dirty := (takePendingCtl n s).durab.dirty }
      wired := (takePendingCtl n s).wired } := by
  unfold takePendingCtl
  split
  · rfl
  · rfl

/-- What the entry into STALE changes of a lane, TIMEOUT frame periods after its last applied frame. -/
def laneStalled (n : Nat) (s : State) : State :=
  let s := takePendingCtl n (s.elapseTo ((s.lane n).lastApplied + 480 * (s.laneCfg n).timeout))
  (List.range 64).foldl (staleLine n (s.laneCfg n).stalePolicy) (s.modLane n Lane.stalled)

theorem exec_laneTimeout {s : State} {n : Fin 56} (hready : islandsReady s [idGather n] = true)
    (hlocked : (s.lane n).state = .locked) :
    exec (.laneTimeout n) s =
      .next (answered s ((laneStalled n (begun s [idGather n])).raise (0x101000 + n))) := by
  change execLaneTimeout n s = _
  unfold execLaneTimeout
  refine answer_eq ((onArrival_ready (s := cleared s) _ (List.nodup_singleton _) hready).trans ?_)
  change (if _ then begun s [idGather n] else _) = _
  rw [if_neg (by
    rw [show busyAll (cleared s) [idGather n] = begun s [idGather n] from rfl, begun_lane, hlocked]
    simp)]
  rfl

/-- A lane enters STALE. -/
theorem laneStalled_spec {n : Nat} {s : State} (hlocked : (s.lane n).state = .locked) :
    let t := laneStalled n s
    (t.lane n).state = .stale ∧ (t.lane n).fromStale = true ∧
      (t.lane n).timeouts = satAdd 64 (s.lane n).timeouts 1 ∧
      (s.lane n).lastApplied + 480 * (s.laneCfg n).timeout ≤ t.now ∧
      ((s.lane n).pendingCtl = none → (s.laneCfg n).stalePolicy = 0 → (t.lane n).held = (s.lane n).held) ∧
      t.durab.ckpt = s.durab.ckpt ∧ t.nv = s.nv ∧ t.keeper = s.keeper ∧ t.ledger = s.ledger ∧ t.mram = s.mram := by
  intro t
  let w := s.elapseTo ((s.lane n).lastApplied + 480 * (s.laneCfg n).timeout)
  let x := takePendingCtl n w
  have hwlane : w.lane n = s.lane n := congrArg (fun x : Wired => mget Lane.initial x.lanes n) (elapseTo_wired ..)
  have hxlane : x.lane n = { s.lane n with pendingCtl := none } := by
    rw [← hwlane]
    exact takePendingCtl_lane (by rw [hwlane, hlocked]; simp)
  have hylane : (x.modLane n Lane.stalled).lane n = { s.lane n with pendingCtl := none }.stalled := by
    rw [lane_modLane (by simp [Lane.stalled]), hxlane]
  obtain ⟨hstep, hheld⟩ : HeldOnly n (x.modLane n Lane.stalled) t := by
    exact foldl_rel (HeldOnly.refl n) (fun h h' => h.trans h') (fun _ _ => staleLine_heldOnly ..) _ _
  have hlane := hheld (by rw [hylane]; simp [Lane.stalled])
  rw [hylane] at hlane
  have hx : x = { w with dur := x.dur, durab := { w.durab with dirty := x.durab.dirty }, wired := x.wired } :=
    takePendingCtl_frame n w
  have hckpt : t.durab.ckpt = s.durab.ckpt := by
    rw [hstep.durab_eq]
    change x.durab.ckpt = _
    rw [hx]
    exact elapseTo_ckpt ..
  refine ⟨by rw [hlane]; rfl, by rw [hlane]; rfl, by rw [hlane]; rfl, ?_, ?_, hckpt, ?_, ?_, ?_, ?_⟩
  · rw [hstep.now_eq]
    change _ ≤ x.now
    rw [hx]
    simp [w]
  · intro hpending hpolicy
    have hxw : x = w := takePendingCtl_of_none (by rw [hwlane, hpending])
    have hxpolicy : (x.laneCfg n).stalePolicy = 0 := by
      rw [hxw]
      simp only [State.laneCfg, w, elapseTo_dur]
      exact hpolicy
    have hfixed : t = x.modLane n Lane.stalled := by
      change (List.range 64).foldl (staleLine n (x.laneCfg n).stalePolicy) (x.modLane n Lane.stalled) = _
      rw [hxpolicy]
      exact List.foldl_fixed' (fun _ => rfl) _
    rw [hfixed, hylane]
    rfl
  · rw [hstep.nv_eq]
    change x.nv = _
    rw [hx]
    exact elapseTo_nv ..
  · rw [hstep.keeper_eq]
    change x.keeper = _
    rw [hx]
    exact elapseTo_keeper ..
  · rw [hstep.ledger_eq]
    change x.ledger = _
    rw [hx]
    exact elapseTo_ledger ..
  · rw [hstep.mram_eq]
    change x.mram = _
    rw [hx]
    exact elapseTo_mram ..

/-- Settles O16: it holds. -/
theorem lanesTakeFramesAndTimeOut : Obligations.LanesTakeFramesAndTimeOut := by
  constructor
  · intro n f seq s hready hlive hlocked hpending hsync hnext hsome hcrc hseq
    obtain ⟨hstep, enforced, hlane⟩ := frameTaken_spec (n := n) (seq := seq)
      (cells := frameCells (s.laneCfg n).invert f) (s := begun s [idGather n]) (by rw [begun_lane, hlocked])
    rw [begun_lane, begun_now] at hlane
    refine ⟨_, exec_sillFrame_good hready hlive hlocked hpending hsync hnext hsome hcrc hseq, ?_⟩
    generalize hw : frameTaken n seq (frameCells (s.laneCfg n).invert f) (begun s [idGather n]) = w at *
    have hlane' : (answered s w).lane n =
        ((s.lane n).checked seq s.now (frameCells (s.laneCfg n).invert f)).frameEnded enforced false := hlane
    refine ⟨?_, by rw [answered_now, hstep.now_eq, begun_now], by rw [answered_nv, hstep.nv_eq, begun_nv],
      by rw [answered_keeper, hstep.keeper_eq, begun_keeper], by rw [answered_ledger, hstep.ledger_eq, begun_ledger],
      by rw [answered_dur, hstep.dur_eq, begun_dur], ?_⟩
    · rw [hlane']
      exact (checked_state ..).trans hlocked
    · rw [hlane']
      split
      · rename_i hsame
        have hfabric : w.fabric = s.fabric := by
          rw [← hw]
          refine (checkedApply_fabric_of_duplicate (by rw [begun_lane]; exact hsame)).trans (begun_fabric ..)
        simp [Lane.checked, hsame, Lane.frameEnded, Lane.flag, hfabric]
      · rename_i hnew
        by_cases hone : (seq + 256 - (s.lane n).lastSeq) % 256 = 1
        · simp [Lane.checked, hone, Lane.frameEnded, Lane.applied]
        · simp [Lane.checked, hone, hnew, Lane.frameEnded, Lane.applied, Lane.flag]
  · intro n s hready hlocked g raised
    obtain ⟨hstate, hfrom, htimeouts, hnow, hheld, hckpt, hnv, hkeeper, hledger, hmram⟩ :=
      laneStalled_spec (n := n) (s := begun s [idGather n]) (by rw [begun_lane, hlocked])
    rw [begun_lane] at htimeouts hnow hheld
    rw [begun_laneCfg] at hnow hheld
    refine ⟨_, exec_laneTimeout hready hlocked, ?_⟩
    generalize laneStalled n (begun s [idGather n]) = w at *
    have hstep : FabricStep w (w.raise (0x101000 + n)) := .raise ..
    have hraiser : raiserOf (0x101000 + n) = n := by
      unfold raiserOf
      rw [if_pos (by omega), Nat.add_sub_cancel_left]
      rfl
    have hlane : (answered s (w.raise (0x101000 + n))).lane n = w.lane n := hstep.lane_eq n
    have hraised := raise_spec (s := w) (0x101000 + n) (by rw [hckpt, begun_durab]; exact ckpt_of_ready hready)
    rw [hraiser] at hraised
    refine ⟨?_, ?_, ?_, ?_, hraised, ?_, ?_, ?_, ?_, ?_⟩
    · rw [hlane, hstate]
    · rw [hlane, hfrom]
    · rw [hlane, htimeouts]
    · rw [answered_now, hstep.now_eq]
      exact hnow
    · rw [hlane]
      exact hheld
    · rw [answered_nv, hstep.nv_eq, hnv, begun_nv]
    · rw [answered_keeper, hstep.keeper_eq, hkeeper, begun_keeper]
    · rw [answered_ledger, hstep.ledger_eq, hledger, begun_ledger]
    · rw [answered_mram, hstep.mram_eq, hmram, begun_mram]

end Sys2Proof.Machine
end

section
/-!
Letterbox messages are checked, staged and forwarded.
-/

namespace Sys2Proof.Machine

open Sys2Proof

/-! ### A Letterbox write is judged (LB.2, LB.4) -/

/-- The command of a Letterbox write of either size is the arrival of the write. -/
theorem exec_letterboxWrite {s : State} {p : Port} {rid : BitVec 16} {w : HostWrite} {note : Bool}
    (hpage : letterboxPage w.offset = some note) :
    exec (.letterboxSingleWrite p rid w) s = .next (answered s (letterboxWrite p rid w note (cleared s))) ∧
      exec (.letterboxDoubleWrite p rid w) s = .next (answered s (letterboxWrite p rid w note (cleared s))) := by
  have harrival : letterboxArrival p rid w (cleared s) = letterboxWrite p rid w note (cleared s) := by
    simp only [letterboxArrival, hpage]
  exact ⟨answer_eq harrival, answer_eq harrival⟩

/-- A Letterbox write that its port receives is held, or judged in the order of Table LB-4. -/
theorem letterboxWrite_received {s : State} {p : Port} {rid : BitVec 16} {w : HostWrite} {note : Bool}
    (hpowered : s.powered = true) (hup : (s.port p).linkUp = true) (hrdy : s.keeper.rdy = true)
    (hspace : (s.port p).staging.length < 256) (hbytes : HostWrite.isEmpty w = false) :
    letterboxWrite p rid w note s =
      if linkHolds s p then s.hold p.req (.letterbox rid w)
      else if !HostWrite.isWhole w (if note then 32 else 4) then
        letterboxReject p rid w.offset 1 (bits w.offset 11 8) 0 s
      else if 0x100000 ≤ fieldAt w.data 0 3 then
        letterboxReject p rid w.offset 2 (bits w.offset 11 8) (fieldAt w.data 0 3) s
      else if !s.dur.g.roomEnable.getLsbD (bits w.offset 11 8) then
        letterboxReject p rid w.offset 3 (bits w.offset 11 8) (fieldAt w.data 0 3) s
      else s.modPort p fun x => { x with staging := x.staging ++
        [{ gather := gatherOf (fieldAt w.data 0 3)
           event := .letterbox p rid w.offset (fieldAt w.data 0 3) (bits w.offset 11 8)
            (if note then some (bytesAt w.data 16 16) else none) }] } := by
  have hfull : stagingFull s p = false := by
    simp only [stagingFull, decide_eq_false_iff_not]
    omega
  unfold letterboxWrite
  dsimp only
  rw [if_neg (by simp [hbytes, hpowered, hup]), if_neg (by simp [hrdy]), if_neg (by simp [hfull])]

/-- A running controller has power. -/
theorem powered_of_running {s : State} (h : s.running = true) : s.powered = true := by
  simp only [State.running, Bool.and_eq_true] at h
  obtain ⟨⟨⟨hstate, _⟩, _⟩, _⟩ := h
  unfold State.powered
  cases hp : s.keeper.pstate <;> simp_all

/-- A write of its page's size has bytes. -/
theorem isEmpty_of_isWhole {w : HostWrite} {n : Nat} (hn : 0 < n) (h : HostWrite.isWhole w n = true) :
    HostWrite.isEmpty w = false := by
  simp only [HostWrite.isWhole, Bool.and_eq_true, beq_iff_eq] at h
  obtain ⟨⟨⟨_, hlen⟩, hall⟩, _⟩ := h
  unfold HostWrite.isEmpty
  cases hen : w.enables with
  | nil =>
    rw [hen] at hlen
    simp at hlen
    omega
  | cons b bs =>
    rw [hen] at hall
    simp at hall
    simp [hall.1]

/-- Settles O17: it holds. -/
theorem letterboxMessagesAreTaken : Obligations.LetterboxMessagesAreTaken := by
  refine ⟨?_, ?_, ?_⟩
  · intro p rid w note s hpage hheld hup hrdy hspace hwhole hsn henabled t
    have hrunning : s.running = true := by
      simp only [linkHolds, Bool.or_eq_false_iff, Bool.not_eq_false', Bool.and_eq_true] at hheld
      exact hheld.1.1
    have hbytes := isEmpty_of_isWhole (by split <;> decide) hwhole
    have hwrite : letterboxWrite p rid w note (cleared s) = _ :=
      letterboxWrite_received (powered_of_running hrunning) (by rw [cleared_port]; exact hup) hrdy
        (by rw [cleared_port]; exact hspace) hbytes
    have hheld' : linkHolds (cleared s) p = false := hheld
    rw [if_neg (by simp [hheld']), if_neg (by simp [hwhole]), if_neg (by omega),
      if_neg (by simp [henabled])] at hwrite
    obtain ⟨hsingle, hdouble⟩ := exec_letterboxWrite (s := s) (p := p) (rid := rid) hpage
    rw [hwrite] at hsingle hdouble
    exact ⟨hsingle, hdouble⟩
  · intro p rid w note s hpage hpowered hup hrdy hspace hbytes room sn c
    have hwrite : letterboxWrite p rid w note (cleared s) = _ :=
      letterboxWrite_received hpowered (by rw [cleared_port]; exact hup) hrdy (by rw [cleared_port]; exact hspace)
        hbytes
    have hexec : exec c s = .next (answered s (letterboxWrite p rid w note (cleared s))) := by
      obtain ⟨hsingle, hdouble⟩ := exec_letterboxWrite (s := s) (p := p) (rid := rid) hpage
      cases note with
      | true => exact hdouble
      | false => exact hsingle
    rw [hexec, hwrite]
    have hholds : linkHolds (cleared s) p = linkHolds s p := rfl
    refine ⟨fun hheld => ?_, fun hheld hwhole => ?_, fun hheld hwhole hsn => ?_, fun hheld hwhole hsn hclosed => ?_⟩
    · rw [if_pos (by rw [hholds, hheld])]
    · rw [if_neg (by simp [hholds, hheld]), if_pos (by simp [hwhole])]
    · rw [if_neg (by simp [hholds, hheld]), if_neg (by simp [hwhole]), if_pos hsn]
    · rw [if_neg (by simp [hholds, hheld]), if_neg (by simp [hwhole]), if_neg (by omega),
        if_pos (by simp only [cleared_dur]; simp [room] at hclosed; simp [hclosed])]
  · intro p g e rest s hready hspace htake
    have hsent : (begun s [idLink p, idGather g]).sent (idLink p) e.event = ⟨idLink p, 0, e.event⟩ := by
      simp [State.sent, State.mark, ckpt_of_ready hready]
    have hused : intakeUsed (begun s [idLink p, idGather g]) p g = intakeUsed s p g := by
      simp only [intakeUsed, State.gathered, begun_fabric]
    refine answer_eq ((onIslands_ready (s := cleared s) _ hready).trans ?_)
    simp only [show busyAll (cleared s) [idLink p, idGather g] = begun s _ from rfl, begun_port, htake, hused,
      hsent]
    rw [if_neg (by omega)]

end Sys2Proof.Machine
end

section
/-!
A state in which the request of a Gather island is not granted.
-/

namespace Sys2Proof.Machine

open Sys2Proof

/-! ### An island listed twice -/

/-- The core runs; a request of an Idle source waits at Gather island 0 at time 0, and the map of the islands' records
lists that island twice: awake, and behind it dozing. -/
def listedTwice : State :=
  { State.reset with
    keeper := { Keeper.initial with vddCore := true, vddio := true, pstate := .p1, rdy := true, serving := true }
    fabric := { Fabric.initial with gatherQ := [(0, [⟨idManagement, 0, .raise 0⟩])] }
    power := { Power.initial with
      islands := [(idGather 0, { IslandPower.initial with lastBusy := 1 }),
        (idGather 0, { IslandPower.initial with level := .dozing })] } }

theorem listedTwice_room : roomToDirty listedTwice := by
  intro l
  have hquota : ¬ quota listedTwice ≤ 0 := by decide +kernel
  simp only [throttled, Bool.and_eq_false_iff]
  exact .inl (.inr (by simpa [bankDirty, dirtyLines, listedTwice, State.reset, Durab.initial] using hquota))

/-- What the island holds at time 0 is its reset record, which the map drops: the island reads as dozing, and its Update
port grants nothing. -/
theorem listedTwice_stays :
    ((match exec (.stateUpdate 0) listedTwice with
      | .next t => (t.src 0).state
      | _ => .active) = .idle) := by decide +kernel

theorem listedTwice_ready :
    let x : Sent Event := ⟨idManagement, 0, .raise 0⟩
    listedTwice.gathered 0 = [x] ∧ appliedNext listedTwice 0 x ∧
      islandsReady listedTwice [idGather 0, idBank (bankOf x.body.sn)] = true ∧
      notifyRoom listedTwice (bankOf x.body.sn) ∧ (listedTwice.src 0).state = .idle := by
  unfold appliedNext notifyRoom
  decide +kernel

/-- Refutes O18: in a state at time 0 whose map of islands lists the Gather island twice, awake and then dozing, the
island's record falls back on its second entry once the island is busy, so that the Update port grants nothing. -/
theorem not_stateUpdateFollowsTheSourceTable : ¬ Obligations.StateUpdateFollowsTheSourceTable := by
  unfold Obligations.StateUpdateFollowsTheSourceTable
  intro h
  obtain ⟨hgathered, hnext, hready, hnotify, hidle⟩ := listedTwice_ready
  have happlied := (h 0 ⟨idManagement, 0, .raise 0⟩ [] listedTwice hgathered hnext hready listedTwice_room hnotify
    ⟨rfl, rfl, rfl, rfl⟩).1 0 rfl hidle
  have hstays := listedTwice_stays
  rw [happlied] at hstays
  revert hstays
  decide +kernel

end Sys2Proof.Machine
end

section
/-!
The order of Table PK-4 and the first source in it.
-/

namespace Sys2Proof.Machine

open Sys2Proof

/-! ### The order of Table PK-4 -/

section
variable {s : State} {tn : Nat} {c : Cls} {a b d : Nat × Cand}

theorem comesBefore_iff : comesBefore s tn c a b = true ↔
    (candAge s tn c a.2 = 65535 ∧ candAge s tn c b.2 ≠ 65535) ∨
      ((candAge s tn c a.2 = 65535 ↔ candAge s tn c b.2 = 65535) ∧
        (a.2.priority < b.2.priority ∨ a.2.priority = b.2.priority ∧
          (candAge s tn c b.2 < candAge s tn c a.2 ∨ candAge s tn c a.2 = candAge s tn c b.2 ∧ a.1 < b.1))) := by
  unfold comesBefore
  generalize candAge s tn c a.2 = ga
  generalize candAge s tn c b.2 = gb
  by_cases ha : ga = 65535
  all_goals by_cases hb : gb = 65535
  all_goals simp [ha, hb]
  all_goals split_ifs <;> omega

theorem comesBefore_irrefl : comesBefore s tn c a a = false := by
  rw [Bool.eq_false_iff, Ne, comesBefore_iff]
  omega

theorem comesBefore_asymm (h : comesBefore s tn c a b = true) : comesBefore s tn c b a = false := by
  rw [Bool.eq_false_iff, Ne, comesBefore_iff]
  rw [comesBefore_iff] at h
  omega

/-- No source that does not come before a second comes before one that the second does not come before. -/
theorem comesBefore_negtrans (hab : comesBefore s tn c a b = false) (hbd : comesBefore s tn c b d = false) :
    comesBefore s tn c a d = false := by
  rw [Bool.eq_false_iff, Ne, comesBefore_iff] at *
  omega

theorem comesBefore_of_not (hne : a.1 ≠ b.1) (h : comesBefore s tn c a b = false) : comesBefore s tn c b a = true := by
  rw [Bool.eq_false_iff, Ne, comesBefore_iff] at h
  rw [comesBefore_iff]
  omega

end

/-- The first of those seen so far that pass a test, with one more. -/
def keepFirst {α : Type} (test : α → Bool) (before : α → α → Bool) (best : Option α) (p : α) : Option α :=
  if test p then
    match best with
    | none => some p
    | some b => if before p b then some p else some b
  else best

theorem firstEligible_eq (s : State) (tn : Nat) (c : Cls) : firstEligible s tn c =
    (s.viewOf tn c).foldl (keepFirst (fun p => eligible s tn c p.1 p.2) (comesBefore s tn c)) none := by
  unfold firstEligible
  congr 1
  funext best p
  cases best <;> rfl

/-- What a fold that keeps the first of the elements that pass a test ends with: one that passes, of the list or the
first one, and before which no other that passes comes. -/
theorem foldl_first {α : Type} {test : α → Bool} {before : α → α → Bool} (hirrefl : ∀ a, before a a = false)
    (hasymm : ∀ a b, before a b = true → before b a = false)
    (htrans : ∀ a b d, before a b = false → before b d = false → before a d = false) (l : List α) :
    ∀ (best : Option α) (b : α),
      l.foldl (keepFirst test before) best = some b →
      (best = some b ∨ b ∈ l ∧ test b = true) ∧ (∀ a, best = some a → before a b = false) ∧
        ∀ p ∈ l, test p = true → before p b = false := by
  induction l with
  | nil =>
    intro best b h
    exact ⟨.inl h, fun a ha => by rw [ha] at h; cases h; exact hirrefl _, by simp⟩
  | cons x xs ih =>
    intro best b h
    rw [List.foldl_cons] at h
    obtain ⟨hfrom, hbest, hrest⟩ := ih _ b h
    by_cases hx : test x = true
    · cases best with
      | none =>
        simp only [keepFirst, hx, if_true] at hfrom hbest
        refine ⟨.inr ?_, by simp, ?_⟩
        · rcases hfrom with he | ⟨hin, ht⟩
          · cases he
            exact ⟨by simp, hx⟩
          · exact ⟨by simp [hin], ht⟩
        · intro p hp ht
          rcases List.mem_cons.mp hp with rfl | hin
          · exact hbest _ rfl
          · exact hrest p hin ht
      | some y =>
        by_cases hxy : before x y = true
        · simp only [keepFirst, hx, hxy, if_true] at hfrom hbest
          refine ⟨.inr ?_, ?_, ?_⟩
          · rcases hfrom with he | ⟨hin, ht⟩
            · cases he
              exact ⟨by simp, hx⟩
            · exact ⟨by simp [hin], ht⟩
          · rintro _ ⟨⟩
            exact htrans _ _ _ (hasymm _ _ hxy) (hbest _ rfl)
          · intro p hp ht
            rcases List.mem_cons.mp hp with rfl | hin
            · exact hbest _ rfl
            · exact hrest p hin ht
        · have hxy' : before x y = false := by simpa using hxy
          simp only [keepFirst, hx, hxy', if_true, Bool.false_eq_true, if_false] at hfrom hbest
          refine ⟨?_, hbest, ?_⟩
          · rcases hfrom with he | ⟨hin, ht⟩
            · exact .inl he
            · exact .inr ⟨by simp [hin], ht⟩
          · intro p hp ht
            rcases List.mem_cons.mp hp with rfl | hin
            · exact htrans _ _ _ hxy' (hbest _ rfl)
            · exact hrest p hin ht
    · have hx' : test x = false := by simpa using hx
      simp only [keepFirst, hx', Bool.false_eq_true, if_false] at hfrom hbest
      refine ⟨?_, hbest, ?_⟩
      · rcases hfrom with he | ⟨hin, ht⟩
        · exact .inl he
        · exact .inr ⟨by simp [hin], ht⟩
      · intro p hp ht
        rcases List.mem_cons.mp hp with rfl | hin
        · rw [hx'] at ht
          cases ht
        · exact hrest p hin ht

/-- The source that is selected is eligible and comes before every other eligible one (R312, R317). -/
theorem firstEligible_spec {s : State} {tn : Nat} {c : Cls} {b : Nat × Cand} (h : firstEligible s tn c = some b) :
    eligible s tn c b.1 b.2 = true ∧ b ∈ s.viewOf tn c ∧
      ∀ p ∈ s.viewOf tn c, eligible s tn c p.1 p.2 = true → p.1 ≠ b.1 → comesBefore s tn c b p = true := by
  obtain ⟨hfrom, _, hothers⟩ := foldl_first (test := fun p : Nat × Cand => eligible s tn c p.1 p.2)
    (before := comesBefore s tn c) (fun _ => comesBefore_irrefl) (fun _ _ => comesBefore_asymm)
    (fun _ _ _ => comesBefore_negtrans) _ none b (firstEligible_eq s tn c ▸ h)
  obtain ⟨hin, heligible⟩ := hfrom.resolve_left (by simp)
  exact ⟨heligible, hin, fun p hp ht hne => comesBefore_of_not hne (hothers p hp ht)⟩

end Sys2Proof.Machine
end

section
/-!
The steps of a Rank island.
-/

namespace Sys2Proof.Machine

open Sys2Proof

/-! ### A Rank island's step and the room of its Select channel -/

theorem selectUsed_sendSelect (tn : Nat) (m : Select) (s : State) :
    selectUsed (sendSelect tn m s) tn = selectUsed s tn + if m.reserved then 0 else 1 := by
  have hread : mget [] (sendSelect tn m s).fabric.selectQ (tn / 64) =
      mget [] s.fabric.selectQ (tn / 64) ++ [s.sent (idRank (tn / 256)) m] := mget_mput_of_ne (by simp) _ _
  unfold selectUsed
  rw [hread, List.filter_append, List.length_append]
  cases hm : m.reserved <;> simp [State.sent, hm]

theorem selectUsed_selectStep (tn : Nat) (c : Cls) (s : State) :
    selectUsed (selectStep tn c s) tn ≤ selectUsed s tn + 1 := by
  have hoffer : ∀ b, selectUsed (sendOffer tn c b s) tn ≤ selectUsed s tn + 1 :=
    fun b => Nat.le_of_eq (selectUsed_sendSelect ..)
  have hretract : selectUsed (sendSelect tn (.retract tn c) (s.setRank tn c .empty)) tn ≤ selectUsed s tn + 1 :=
    Nat.le_of_eq (selectUsed_sendSelect ..)
  have hsame : selectUsed s tn ≤ selectUsed s tn + 1 := Nat.le_succ _
  unfold selectStep
  split
  · split
    · exact hsame
    · exact hoffer _
  · exact hsame
  · exact hsame
  · split
    · split
      · exact hoffer _
      · exact hsame
    · exact hoffer _
  · exact hretract

theorem selectUsed_selectAfter (tn : Nat) (c : Cls) (s : State) :
    selectUsed (selectAfter tn c s) tn ≤ selectUsed s tn + 2 := by
  have hfirst := selectUsed_selectStep tn c s
  unfold selectAfter
  cases c with
  | normal => exact Nat.le_succ_of_le hfirst
  | fast => exact Nat.le_trans (selectUsed_selectStep ..) (Nat.add_le_add_right hfirst 1)

theorem selectUsed_takeNotify (n : Notify) (s : State) :
    selectUsed (takeNotify n s) n.tn ≤ selectUsed s n.tn + 2 := by
  cases n with
  | change tn c sn k => exact Nat.le_succ_of_le (selectUsed_selectStep ..)
  | done tn c sn =>
    refine Nat.le_trans (selectUsed_selectAfter ..) (Nat.add_le_add_right ?_ 2)
    rw [selectUsed_sendSelect]
    split <;> exact Nat.le_refl _
  | answer tn c sn ok lost at' =>
    unfold takeNotify
    dsimp only [Notify.tn]
    rw [selectUsed_sendSelect]
    cases ok <;> exact Nat.le_succ_of_le (Nat.le_succ _)

/-- A step for which the Select channel has room takes place. -/
theorem selectHeld_room {tn : Nat} {f : State → State} {s : State} (hroom : selectUsed s tn ≤ 6)
    (hgrows : selectUsed (f s) tn ≤ selectUsed s tn + 2) : selectHeld tn f s = f s :=
  if_pos (by omega)

section
variable {k : Fin 16} {s : State}

theorem selectUsed_begun (s : State) (ids : List Nat) (tn : Nat) : selectUsed (begun s ids) tn = selectUsed s tn := by
  simp only [selectUsed, begun_fabric]

/-- A Rank island that owes no selection takes the oldest transfer of its Notify channel. -/
theorem exec_selection_notify {n : Sent Notify} {rest : List (Sent Notify)} (hready : islandsReady s [idRank k] = true)
    (hdue : mget [] s.fabric.due k = []) (hnotify : mget [] s.fabric.notifyQ k = n :: rest)
    (hroom : selectUsed s n.body.tn ≤ 6) :
    exec (.selection k) s = .next (answered s (takeNotify n.body
      ((begun s [idRank k]).modFabric fun x => { x with notifyQ := mput [] k rest x.notifyQ }))) := by
  change execSelection k s = _
  unfold execSelection
  refine answer_eq ((handshake_cleared _ hready).trans ?_)
  rw [begun_fabric, if_pos (by rw [hdue]; rfl)]
  unfold rankStep
  rw [begun_fabric, hnotify]
  dsimp only
  have hckpt : (begun s [idRank k]).durab.ckpt = none := by
    rw [begun_durab]
    exact ckpt_of_ready hready
  rw [selectHeld_room (by rw [selectUsed_begun]; exact hroom), receiving_none _ _ _ hckpt]
  rw [receiving_none _ _ _ hckpt]
  exact selectUsed_takeNotify ..

/-- A Rank island that owes a selection starts it. -/
theorem exec_selection_due {tn : Nat} {c : Cls} {rest : List (Nat × Cls)} (hready : islandsReady s [idRank k] = true)
    (hdue : mget [] s.fabric.due k = (tn, c) :: rest) (hroom : selectUsed s tn ≤ 6) :
    exec (.selection k) s = .next (answered s (selectStep tn c
      ((begun s [idRank k]).modFabric fun x => { x with due := mput [] k rest x.due }))) := by
  change execSelection k s = _
  unfold execSelection
  refine answer_eq ((handshake_cleared _ hready).trans ?_)
  rw [begun_fabric, if_neg (by rw [hdue]; simp)]
  unfold dueStep
  rw [begun_fabric, hdue]
  dsimp only
  rw [selectHeld_room (by rw [selectUsed_begun]; exact hroom)]
  exact Nat.le_succ_of_le (selectUsed_selectStep ..)

end

/-! ### One selection step, by the slot (R334) -/

section
variable {tn : Nat} {c : Cls} {s : State}

theorem selectStep_empty {b : Nat × Cand} (hslot : s.rankSlot tn c = .empty) (hfirst : firstEligible s tn c = some b) :
    selectStep tn c s = if c = .normal ∧ fastHolding s tn then s else sendOffer tn c b s := by
  simp only [selectStep, hslot, hfirst, Bool.and_eq_true, beq_iff_eq]

theorem selectStep_empty_none (hslot : s.rankSlot tn c = .empty) (hfirst : firstEligible s tn c = none) :
    selectStep tn c s = s := by
  simp only [selectStep, hslot, hfirst]

theorem selectStep_holding {x : Nat} (hslot : s.rankSlot tn c = .holding x) : selectStep tn c s = s := by
  simp only [selectStep, hslot]

theorem selectStep_still {x : Nat} {b y : Nat × Cand} (hslot : s.rankSlot tn c = .offered x)
    (hfirst : firstEligible s tn c = some b) (hstill : offeredStill s tn c x = some y) :
    selectStep tn c s = if b.1 ≠ x ∧ comesBefore s tn c b y = true then sendOffer tn c b s else s := by
  simp only [selectStep, hslot, hfirst, hstill, Bool.and_eq_true, bne_iff_ne]

theorem selectStep_replaced {x : Nat} {b : Nat × Cand} (hslot : s.rankSlot tn c = .offered x)
    (hfirst : firstEligible s tn c = some b) (hstill : offeredStill s tn c x = none) :
    selectStep tn c s = sendOffer tn c b s := by
  simp only [selectStep, hslot, hfirst, hstill]

theorem selectStep_retracted {x : Nat} (hslot : s.rankSlot tn c = .offered x) (hfirst : firstEligible s tn c = none) :
    selectStep tn c s = sendSelect tn (.retract tn c) (s.setRank tn c .empty) := by
  simp only [selectStep, hslot, hfirst]

end

/-- Settles O19: it holds. -/
theorem selectionOffersTheFirst : Obligations.SelectionOffersTheFirst := by
  refine ⟨?_, fun k tn c rest s hready hdue hroom => exec_selection_due hready hdue hroom,
    fun s tn c b hfirst => firstEligible_spec hfirst⟩
  intro k n rest s hready hdue hnotify hroom w
  have hexec := exec_selection_notify hready hdue hnotify hroom
  have hrank : ∀ tn c, w.rankSlot tn c = s.rankSlot tn c := fun tn c => by
    simp only [w, State.rankSlot, State.modFabric_fabric, begun_fabric]
  refine ⟨?_, ?_, ?_⟩
  · intro tn c sn cand hbody v
    rw [hbody] at hexec
    have hslot : ∀ c, v.rankSlot tn c = s.rankSlot tn c := hrank tn
    have hfast : fastHolding v tn = fastHolding s tn := by simp only [fastHolding, hslot]
    have hstep : exec (.selection k) s = .next (answered s (selectStep tn c v)) := hexec
    rw [hstep]
    refine ⟨?_, ?_, ?_, ?_, ?_⟩
    · intro b hempty hfirst
      rw [selectStep_empty ((hslot c).trans hempty) hfirst, hfast]
    · intro hempty hfirst
      rw [selectStep_empty_none ((hslot c).trans hempty) hfirst]
    · intro x hholding
      rw [selectStep_holding ((hslot c).trans hholding)]
    · intro x b hoffered hfirst
      constructor
      · intro y hstill
        rw [selectStep_still ((hslot c).trans hoffered) hfirst hstill]
      · intro hstill
        rw [selectStep_replaced ((hslot c).trans hoffered) hfirst hstill]
    · intro x hoffered hfirst
      rw [selectStep_retracted ((hslot c).trans hoffered) hfirst]
  · intro tn c sn hbody hholding
    rw [hbody] at hexec
    rw [hexec]
    simp only [takeNotify, (hrank tn c).trans hholding, beq_self_eq_true, if_true, w]
  · intro tn c sn ok lost at' hbody
    rw [hbody] at hexec
    exact hexec

end Sys2Proof.Machine
end

section
/-!
Sources are raised, withdrawn and routed; targets and reach change.
-/

namespace Sys2Proof.Machine

open Sys2Proof

/-! ### Sources and targets as a command finds them -/

section
variable (s : State) (ids : List Nat)

@[simp] theorem begun_ageZero (t : Option Nat) (c : Cls) : (begun s ids).ageZero t c = s.ageZero t c := by
  cases t with
  | none => rfl
  | some t => simp only [State.ageZero, State.claimCount, begun_dur]

@[simp] theorem begun_gathered (g : Nat) : (begun s ids).gathered g = s.gathered g := by
  simp only [State.gathered, begun_fabric]

@[simp] theorem begun_reach (m : Nat) : (begun s ids).reach m = s.reach m := by
  simp only [State.reach, begun_dur]

@[simp] theorem begun_levelAsserted (sn : Nat) (r : Source) :
    levelAsserted (begun s ids) sn r = levelAsserted s sn r := by
  simp only [levelAsserted, lineMode, begun_dur]

end

/-- With no token under way a transfer carries no mark. -/
theorem sent_of_ckpt_none {α : Type} {s : State} (h : s.durab.ckpt = none) (i : Nat) (x : α) :
    s.sent i x = ⟨i, 0, x⟩ := by
  simp [State.sent, State.mark, h]

/-- An event for which its channel has room reaches its Gather island. -/
theorem submit_of_room {s : State} {i g : Nat} (e : Event) (hckpt : s.durab.ckpt = none)
    (hroom : sentBy i (s.gathered g) < 4) : s.submit i g e = s.arrive g ⟨i, 0, e⟩ := by
  rw [State.submit, if_pos hroom, sent_of_ckpt_none hckpt]

/-- No token travels where a dictionary write is taken at once. -/
theorem ckpt_of_dictOpen {s : State} {r : Req} {ids : List Nat} (h : dictOpen s r ids = true) :
    s.durab.ckpt = none := by
  simp only [dictOpen, Bool.and_eq_true] at h
  exact Option.isNone_iff_eq_none.mp h.1.1.2

/-- A dictionary write that needs no island is open where one that needs some is. -/
theorem dictOpen_nil {s : State} {r : Req} {ids : List Nat} (h : dictOpen s r ids = true) :
    dictOpen s r [] = true := by
  simp only [dictOpen, Bool.and_eq_true, List.all_nil, and_true] at h ⊢
  exact h.1

/-! ### WITHDRAW by Table PK-3 -/

section
variable {s : State} {sn : Nat}

theorem withdrawSource_kept (h : (s.src sn).state = .idle ∨ ((s.src sn).state = .pending ∧
    (levelAsserted s sn (s.src sn) = true ∨ (s.src sn).notes ≠ []))) : withdrawSource sn s = s := by
  unfold withdrawSource
  rcases h with hidle | ⟨hpending, hasserted⟩
  · simp only [hidle]
  · simp only [hpending]
    refine if_pos ?_
    rcases hasserted with hlevel | hnotes
    · simp [hlevel]
    · simp [hnotes]

theorem withdrawSource_pending (hpending : (s.src sn).state = .pending)
    (hlevel : levelAsserted s sn (s.src sn) = false) (hnotes : (s.src sn).notes = []) :
    withdrawSource sn s = (s.putSrc sn { s.src sn with state := .idle }).notifyRoute sn (s.src sn).target
      (s.src sn).cls none := by
  unfold withdrawSource
  simp only [hpending]
  rw [if_neg (by simp [hlevel, hnotes])]

theorem withdrawSource_active (hactive : (s.src sn).state = .active) :
    withdrawSource sn s = s.putSrc sn { s.src sn with rearm := false } := by
  simp only [withdrawSource, hactive]

end

/-! ### A route change -/

/-- A source's record after its route is set, its AGE anew where TARGET or CLASS changes (R316, R338). -/
def Source.rerouted (x : Source) (target : Option Nat) (cls : Cls) (priority room ageZero : Nat) : Source :=
  { x with
    target := target, cls := cls, priority := priority, room := room
    ageBase := if target = x.target ∧ cls = x.cls then x.ageBase else ageZero }

theorem maskTimed_unchanged (sn : Nat) (b : Bool) (s : State) : maskTimed sn b b s = s := if_pos (by simp)

/-- A write of SourceConfig of a source that is no IPI source. -/
theorem writeSourceConfig_eq {s : State} {sn : Nat} (bs : List Byte) (hipi : isIpi sn = false) :
    writeSourceConfig sn bs s =
      (let x := s.src sn
      let target := targetField (fieldAt bs 0 2)
      let cls := Cls.at (fieldAt bs 3 1)
      let y := x.rerouted target cls (fieldAt bs 2 1) (fieldAt bs 4 1) (s.ageZero target cls)
      if y = x then s
      else if x.state = .pending then
        if target = x.target ∧ cls = x.cls then (s.putSrc sn y).notifyRoute sn target cls (some (candOf y))
        else ((s.putSrc sn y).notifyRoute sn x.target x.cls none).notifyRoute sn target cls (some (candOf y))
      else s.putSrc sn y) := by
  unfold writeSourceConfig applyRoute
  simp only [hipi, Bool.false_eq_true, if_false, Option.getD_some, Option.getD_none, Bool.and_eq_true, beq_iff_eq,
    maskTimed_unchanged]
  rfl


/-! ### The writes (DC.5) -/

section
variable {r : Req} {sn : BitVec 24} {s : State}
  (hopen : dictOpen s r [idBank (bankOf sn.toNat)] = true) (hroom : roomToDirty s) (hsn : snExists sn.toNat = true)
include hopen hroom hsn

theorem sourceControl_taken {v : Byte} (hjudge : judgeWrite s r false .sourceControl sn.toNat [v] = none) :
    dictCommand r .sourceControl sn.toNat [v] (cleared s) =
      writeSourceControl sn.toNat v.toNat (begun s [idBank (bankOf sn.toNat)]) := by
  have hids : objIslands .sourceControl sn.toNat = [idBank (bankOf sn.toNat)] := if_pos hsn
  have hbytes : bytesAt [v] 0 (Obj.sourceControl).desc.len = [v] := rfl
  rw [dictCommand_taken rfl (by rw [hids, hopen]) hroom (by rw [hbytes]; exact hjudge), hbytes, hids]
  have hlegal : Obj.sourceControl.legal [v] = v.toNat := by
    change leNat [v] = v.toNat
    simp [leNat]
  have hclamps : Obj.sourceControl.clamps [v] = false := by
    change (Obj.sourceControl.legal [v] != leNat [v]) = false
    exact bne_self_eq_false _
  rw [hclamps, clampedBy_false]
  change writeSourceControl sn.toNat (Obj.sourceControl.legal [v]) _ = _
  rw [hlegal]

theorem sourceConfig_taken {rec : List Byte}
    (hjudge : judgeWrite s r false .sourceConfig sn.toNat (bytesAt rec 0 8) = none) :
    dictCommand r .sourceConfig sn.toNat rec (cleared s) =
      writeSourceConfig sn.toNat (bytesAt rec 0 8) (begun s [idBank (bankOf sn.toNat)]) := by
  have hids : objIslands .sourceConfig sn.toNat = [idBank (bankOf sn.toNat)] := if_pos hsn
  rw [dictCommand_taken rfl (by rw [hids, hopen]) hroom hjudge, hids]
  have hclamps : Obj.sourceConfig.clamps (bytesAt rec 0 8) = false := by
    change (Obj.sourceConfig.legal _ != leNat _) = false
    exact bne_self_eq_false _
  change State.clampedBy _ r (Obj.sourceConfig.clamps (bytesAt rec 0 8)) = _
  rw [hclamps, clampedBy_false]
  rfl

end

theorem targetRoom_taken {r : Req} {tn : BitVec 24} {room : Byte} {s : State} (htn : tn.toNat < 4096)
    (hopen : dictOpen s r [idDelivery (tn.toNat / 64)] = true) (hroom : roomToDirty s)
    (hjudge : judgeWrite s r false .targetRoom tn.toNat [room] = none) :
    dictCommand r .targetRoom tn.toNat [room] (cleared s) =
      setTargetRoom tn.toNat room.toNat (begun s [idDelivery (tn.toNat / 64)]) := by
  have hids : objIslands .targetRoom tn.toNat = [idDelivery (tn.toNat / 64)] := if_pos htn
  have hbytes : bytesAt [room] 0 (Obj.targetRoom).desc.len = [room] := rfl
  rw [dictCommand_taken rfl (by rw [hids, hopen]) hroom (by rw [hbytes]; exact hjudge), hbytes, hids]
  have hlegal : Obj.targetRoom.legal [room] = room.toNat := by
    change leNat [room] = room.toNat
    simp [leNat]
  have hclamps : Obj.targetRoom.clamps [room] = false := by
    change (Obj.targetRoom.legal [room] != leNat [room]) = false
    exact bne_self_eq_false _
  rw [hclamps, clampedBy_false]
  change setTargetRoom tn.toNat (Obj.targetRoom.legal [room]) _ = _
  rw [hlegal]

theorem leNat_leBytes_half (v : BitVec 16) : leNat (leBytes 2 v.toNat) = v.toNat := by
  rw [leNat_leBytes]
  exact Nat.mod_eq_of_lt v.isLt

theorem roomReach_taken {r : Req} {m : Fin 16} {mask : BitVec 16} {s : State} (hopen : dictOpen s r [] = true)
    (hroom : roomToDirty s) (hjudge : judgeWrite s r false (.roomReach m) 0 (leBytes 2 mask.toNat) = none)
    (hnew : mask ||| BitVec.ofNat 16 (2 ^ m.val) ≠ s.reach m) :
    dictCommand r (.roomReach m) 0 (leBytes 2 mask.toNat) (cleared s) = setReach m mask (cleared s) := by
  have hbytes : bytesAt (leBytes 2 mask.toNat) 0 (Obj.roomReach m).desc.len = leBytes 2 mask.toNat := rfl
  have hobj : objAt (Obj.roomReach m).index (Obj.roomReach m).sub = some (.roomReach m) := if_pos m.isLt
  rw [dictCommand_taken hobj hopen hroom (by rw [hbytes]; exact hjudge), hbytes]
  have hlegal : (Obj.roomReach m).legal (leBytes 2 mask.toNat) = mask.toNat := leNat_leBytes_half mask
  have hclamps : (Obj.roomReach m).clamps (leBytes 2 mask.toNat) = false := by
    change ((Obj.roomReach m).legal (leBytes 2 mask.toNat) != leNat (leBytes 2 mask.toNat)) = false
    exact bne_self_eq_false _
  rw [hclamps, clampedBy_false]
  change (if BitVec.ofNat 16 ((Obj.roomReach m).legal (leBytes 2 mask.toNat)) ||| _ = s.reach m then cleared s
    else setReach m (BitVec.ofNat 16 ((Obj.roomReach m).legal (leBytes 2 mask.toNat))) (cleared s)) = _
  rw [hlegal, BitVec.ofNat_toNat, BitVec.setWidth_eq, if_neg hnew]

/-- A reach mask that changes what a Room reaches dirties its line. -/
theorem setReach_changed {m : Fin 16} {mask : BitVec 16} {s : State}
    (hnew : mask ||| BitVec.ofNat 16 (2 ^ m.val) ≠ s.reach m) :
    setReach m mask s = renotify (fun _ => true) ((s.modG fun g => { g with
      reach := setAt g.reach m (mask ||| BitVec.ofNat 16 (2 ^ m.val)) }).touch (objectLine (300 + m))) := by
  have hchanged : (s.dur.g.reach.getD m 0 != (mask ||| BitVec.ofNat 16 (2 ^ m.val))) = true := by
    rw [bne_iff_ne]
    intro hsame
    apply hnew
    rw [State.reach, hsame, BitVec.or_assoc, BitVec.or_self]
  unfold setReach
  dsimp only
  rw [hchanged]
  rfl

/-- Settles O20: it holds. -/
theorem routingIsWritten : Obligations.RoutingIsWritten := by
  intro r sn s hopen hroom hsn w n x
  have hckpt : w.durab.ckpt = none := by rw [begun_durab, ckpt_of_dictOpen hopen]
  have hsrc : w.src n = x := begun_src ..
  refine ⟨?_, ?_, ?_, ?_, ?_⟩
  · intro hjudge hspace
    refine answer_eq ((sourceControl_taken hopen hroom hsn hjudge).trans ?_)
    exact submit_of_room _ hckpt (by rw [begun_gathered]; exact hspace)
  · intro hjudge
    have hexec : exec (.withdraw r sn) s = .next (answered s (withdrawSource n w)) :=
      answer_eq (sourceControl_taken hopen hroom hsn hjudge)
    rw [hexec]
    refine ⟨fun hkept => ?_, fun hpending hlevel hnotes => ?_, fun hactive => ?_⟩
    · rw [withdrawSource_kept (by rw [hsrc, begun_levelAsserted]; exact hkept)]
    · rw [withdrawSource_pending (by rw [hsrc, hpending]) (by rw [hsrc, begun_levelAsserted, hlevel])
        (by rw [hsrc, hnotes]), hsrc]
    · rw [withdrawSource_active (by rw [hsrc, hactive]), hsrc]
  · intro rec hjudge hipi bs target cls y
    have hexec : exec (.sourceConfigWrite r sn rec) s = .next (answered s (writeSourceConfig n bs w)) :=
      answer_eq (sourceConfig_taken hopen hroom hsn hjudge)
    have hy : x.rerouted target cls (fieldAt bs 2 1) (fieldAt bs 4 1) (w.ageZero target cls) = y := by
      rw [begun_ageZero]
      rfl
    rw [hexec, writeSourceConfig_eq bs hipi]
    dsimp only
    rw [hsrc, hy]
    refine ⟨fun hsame => ?_, fun hnew hstate => ?_, fun hnew hstate => ?_⟩
    · rw [if_pos hsame]
    · rw [if_neg hnew, if_neg hstate]
    · rw [if_neg hnew, if_pos hstate]
  · intro tn room htn hopen' hjudge _ v
    refine answer_eq ((targetRoom_taken htn hopen' hroom hjudge).trans ?_)
    unfold setTargetRoom
    rw [begun_tgt]
  · intro m mask hjudge hnew
    refine answer_eq ((roomReach_taken (dictOpen_nil hopen) hroom hjudge hnew).trans ?_)
    exact setReach_changed hnew

end Sys2Proof.Machine
end

section
/-!
Offers become descriptors, and descriptors are issued.
-/

namespace Sys2Proof.Machine

open Sys2Proof

/-! ### What an operation leaves as it is of a port or a slot -/

section
variable (s : State) (p : Port)

@[simp] theorem emit_port (o : Output) : (s.emit o).port p = s.port p := by cases p <;> rfl
@[simp] theorem modConducts_port (f : Conduct → Conduct) : (s.modConducts f).port p = s.port p := by cases p <;> rfl
@[simp] theorem modFabric_port (f : Fabric → Fabric) : (s.modFabric f).port p = s.port p := by cases p <;> rfl
@[simp] theorem modSlot_port (tn : Nat) (c : Cls) (f : DSlot → DSlot) : (s.modSlot tn c f).port p = s.port p := by
  cases p <;> rfl
@[simp] theorem modQVol_port (q : Nat) (f : QVol → QVol) : (s.modQVol q f).port p = s.port p := by cases p <;> rfl
@[simp] theorem modPort_dslot (f : PortState → PortState) (tn : Nat) (c : Cls) :
    (s.modPort p f).dslot tn c = s.dslot tn c := by
  cases p <;> rfl
end

/-! ### A selection is taken for its slot (R349, R351, R356) -/

/-- A change of a slot is known by what it makes of the slot's record. -/
theorem modSlot_congr {s : State} {tn : Nat} {c : Cls} {f g : DSlot → DSlot}
    (h : f (s.dslot tn c) = g (s.dslot tn c)) : s.modSlot tn c f = s.modSlot tn c g := by
  have hput : f (mget .initial s.fabric.dslots (tkey tn c)) = g (mget .initial s.fabric.dslots (tkey tn c)) := h
  simp only [State.modSlot, mmod, State.modFabric, hput]

section
variable {d : Fin 64} {m : Sent Select} {rest : List (Sent Select)} {s : State}
  (hready : islandsReady s [idDelivery d] = true) (hqueue : mget [] s.fabric.selectQ d = m :: rest)
include hready hqueue

theorem exec_offer_select {tn : Nat} {c : Cls} {o : OfferData} (hbody : m.body = .select tn c o) :
    exec (.offer d) s = .next (answered s (takeSelect m.body (dropSelect d rest (begun s [idDelivery d])))) := by
  obtain ⟨sender, mark, body⟩ := m
  simp only at hbody
  subst hbody
  refine answer_eq ((handshake_cleared _ hready).trans ?_)
  simp only [begun_fabric, hqueue, takeDones]

theorem exec_retraction_retract {tn : Nat} {c : Cls} (hbody : m.body = .retract tn c) :
    exec (.retraction d) s = .next (answered s (takeSelect m.body (dropSelect d rest (begun s [idDelivery d])))) := by
  obtain ⟨sender, mark, body⟩ := m
  simp only at hbody
  subst hbody
  refine answer_eq ((handshake_cleared _ hready).trans ?_)
  simp only [begun_fabric, hqueue, takeDones]

end

/-! ### An offer becomes a descriptor (R350, R352) -/

section
variable (s : State) (ids : List Nat) (tn : Nat) (c : Cls)

theorem louvreHolds_begun : louvreHolds (begun s ids) tn c = louvreHolds s tn c := by
  simp only [louvreHolds, begun_dslot, begun_now, begun_tgt]

theorem outboundUsed_begun (p : Port) (i : Nat) : outboundUsed (begun s ids) p i = outboundUsed s p i := by
  simp only [outboundUsed, begun_port]

theorem deliverable_begun : deliverable (begun s ids) tn c = deliverable s tn c := by
  simp only [deliverable, louvreHolds_begun, portHeld, outboundRoom, outboundUsed_begun, begun_fabric, begun_tgt,
    begun_port]

theorem offerMasked_begun : offerMasked (begun s ids) tn c = offerMasked s tn c := by
  simp only [offerMasked, maskOver, begun_dslot, begun_fabric, begun_now]

theorem paneWanted_begun : paneWanted (begun s ids) tn c = paneWanted s tn c := by
  simp only [paneWanted, begun_tgt, begun_dslot]

end

section
variable {tn : Nat} {c : Cls} {o : OfferData} {s : State} (hoffer : (s.dslot tn c).offer = some o)
include hoffer

/-- An offer that everything allows is delivered: without a Pane write where none is wanted. -/
theorem deliverStep_of_open (hstage : (s.dslot tn c).stage = .waiting) (hclaim : (s.dslot tn c).claiming = none)
    (hopen : deliverable s tn c = true) (hmask : offerMasked s tn c = false) :
    deliverStep tn c s =
      if !paneWanted s tn c then buildDelivery tn c none true s
      else
        match paneAddress tn c s with
        | (s, .hit a) => buildDelivery tn c (some a) true (fillLatch tn c a s)
        | (s, .fault code level) => buildDelivery tn c none true (paneFault tn c code level s)
        | (s, .walking) => s.modSlot tn c fun d => { d with stage := .translating } := by
  unfold deliverStep
  dsimp only
  exact if_neg (by simp [hoffer, hstage, hclaim, hopen, hmask])

omit hoffer in
/-- A latch that holds the Pane's page gives its address (R61, R345). -/
theorem paneAddress_of_latch {l : Latch} (hlatch : (s.dslot tn c).latch = some l)
    (hpage : l.page = alignDown ((s.tgt tn).pane c) 6 / 4096) :
    paneAddress tn c s = (s, .hit (l.frame * 4096 + alignDown ((s.tgt tn).pane c) 6 % 4096)) := by
  unfold paneAddress
  simp only [hlatch]
  rw [if_pos (by simp [hpage])]

/-- A delivery without a Pane write: the wake write alone, or nothing (R347). -/
theorem buildDelivery_bare : buildDelivery tn c none true s =
    (let x := s.modSlot tn c fun d => { d with
      stage := .issued false
      descr := if (wakeOf (s.tgt tn) c).isNone then none else some ((s.tgt tn).port, s.fabric.nextDescr)
      wakeBefore := d.lastWake
      lastWake := if (wakeOf (s.tgt tn) c).isSome then some s.now else d.lastWake }
    match wakeOf (s.tgt tn) c with
    | none => x
    | some v => (x.modFabric fun f => { f with nextDescr := s.fabric.nextDescr + 1 }).passToLink (s.tgt tn).port
        (.delivery s.fabric.nextDescr tn c o.sn none (some v))) := by
  unfold buildDelivery
  simp only [hoffer]
  cases hwake : wakeOf (s.tgt tn) c with
  | none =>
    refine (if_pos rfl).trans (modSlot_congr ?_)
    simp
  | some v =>
    refine (if_neg (by simp)).trans ?_
    dsimp only
    rw [modSlot_congr]
    · rfl
    · simp

/-- A slot whose offer was passed on with a Pane write. -/
def DSlot.delivered (d : DSlot) (descr : Port × Nat) (wake : Bool) (now : Nat) : DSlot :=
  { d with
    stage := .issued true
    paneIssued := d.paneIssued || true
    seq := d.seq + 1
    descr := some descr
    wakeBefore := d.lastWake
    lastWake := if wake then some now else d.lastWake }

/-- A delivery with a Pane write: the next SEQ, and one descriptor of the Pane write and the wake write (R352). -/
theorem buildDelivery_pane (a : Nat) :
    let t := buildDelivery tn c (some a) true s
    let d := s.dslot tn c
    (t.dslot tn c).seq = d.seq + 1 ∧ (t.dslot tn c).stage = .issued true ∧ (t.dslot tn c).paneIssued = true ∧
      (t.port (s.tgt tn).port).out = (s.port (s.tgt tn).port).out ++ [.delivery s.fabric.nextDescr tn c o.sn
        (some (a, paneBytes o c (d.seq + 1) d.replaced)) (wakeOf (s.tgt tn) c)] ∧
      t.dur = s.dur ∧ t.nv = s.nv ∧ t.ledger = s.ledger ∧ t.out = s.out := by
  intro t d
  let f : DSlot → DSlot := fun d =>
    d.delivered ((s.tgt tn).port, s.fabric.nextDescr) (wakeOf (s.tgt tn) c).isSome s.now
  have ht : t = ((s.modSlot tn c f).modFabric fun x => { x with nextDescr := x.nextDescr + 1 }).passToLink
      (s.tgt tn).port (.delivery s.fabric.nextDescr tn c o.sn (some (a, paneBytes o c (d.seq + 1) d.replaced))
        (wakeOf (s.tgt tn) c)) := by
    simp only [t, buildDelivery, hoffer]
    rfl
  have hslot : t.dslot tn c = f d := by
    rw [ht, State.passToLink, modPort_dslot]
    exact modSlot_dslot_of_occupied (s := s) (f := f) (by simp [f, DSlot.delivered, DSlot.occupied, hoffer])
  refine ⟨by rw [hslot]; rfl, by rw [hslot]; rfl, by rw [hslot]; simp [f, DSlot.delivered], ?_, ?_, ?_, ?_, ?_⟩
  · rw [ht, State.passToLink, State.modPort_port]
    rfl
  all_goals rw [ht, State.passToLink]; simp

end

/-! ### A request is issued on its link (R71, R448) -/

/-- What a request of the controller puts on the link. -/
def LinkReq.outputs (p : Port) : LinkReq → List Output
  | .delivery _ _ _ _ pane wake =>
    (match pane with
      | some (a, bytes) => [.memWrite p a bytes]
      | none => []) ++
    match wake with
      | some (a, v) => [.memWrite p a (leBytes 4 v.toNat)]
      | none => []
  | .completion _ _ _ _ _ _ a bytes => [.memWrite p a bytes]
  | .hostStore _ _ _ _ _ a bytes => [.memWrite p a bytes]
  | .itemRead _ _ _ a len => [.memRead p a len]
  | .ringFetch _ _ a => [.memRead p a 64]
  | .ledgerCopy _ _ a bytes => [.memWrite p a bytes]

section
variable (p : Port) (s : State)

theorem creditWaitEnds_frame : (creditWaitEnds p s).out = s.out ∧ (creditWaitEnds p s).dur = s.dur ∧
    (creditWaitEnds p s).nv = s.nv ∧ (creditWaitEnds p s).ledger = s.ledger ∧
    ((creditWaitEnds p s).port p).out = (s.port p).out := by
  unfold creditWaitEnds
  dsimp only
  split
  · simp
  · simp

theorem emitTo_frame (r : LinkReq) : (r.emitTo p s).out = s.out ++ r.outputs p ∧ (r.emitTo p s).dur = s.dur ∧
    (r.emitTo p s).nv = s.nv ∧ (r.emitTo p s).ledger = s.ledger ∧
    ((r.emitTo p s).port p).out = (s.port p).out := by
  obtain ⟨hout, hdur, hnv, hledger, hport⟩ := creditWaitEnds_frame p s
  cases r with
  | delivery k tn c sn pane wake =>
    rcases pane with _ | ⟨a, bs⟩
    all_goals rcases wake with _ | ⟨w, v⟩
    all_goals simp [LinkReq.emitTo, LinkReq.outputs, hout, hdur, hledger, hport]
  | _ => simp [LinkReq.emitTo, LinkReq.outputs, hout, hdur, hledger, hport]

end

/-- A link reaches its receiver with every request of the controller. -/
theorem outputs_reach (s : State) (p : Port) (r : LinkReq) :
    (r.outputs p).filter (Output.reaches s) = r.outputs p := by
  cases r with
  | delivery k tn c sn pane wake =>
    rcases pane with _ | ⟨a, bs⟩
    all_goals rcases wake with _ | ⟨w, v⟩
    all_goals rfl
  | _ => rfl

/-- OUTBOUND_ISSUE puts the oldest request of a port that may issue on its link. -/
theorem exec_outboundIssue {s : State} {p : Port} {r : LinkReq} {rest : List LinkReq}
    (hready : islandsReady s [idLink p] = true) (hissue : (s.port p).canIssue = true)
    (hout : (s.port p).out = r :: rest) (hwaits : nothingWaits s) :
    exec (.outboundIssue p) s = .next (answered s
      (r.emitTo p ((begun s [idLink p]).modPort p fun x => { x with out := rest }))) := by
  change execOutboundIssue p s = _
  refine answer_eq ((retryHeld_of_sameWaiting (outboundStep_sameWaiting p (cleared s)) hwaits).trans ?_)
  refine (onIslands_ready (s := cleared s) _ hready).trans ?_
  simp only [show busyAll (cleared s) [idLink p] = begun s [idLink p] from rfl, begun_port, hout, hissue]
  rfl

/-- Settles O21: it holds. -/
theorem offersBecomeDescriptors : Obligations.OffersBecomeDescriptors := by
  refine ⟨?_, ?_, ?_⟩
  · intro d m rest s hready hqueue w
    have hslot : ∀ tn c, w.dslot tn c = s.dslot tn c := fun tn c => by
      simp only [w, State.dslot, State.modFabric_fabric, begun_fabric]
    constructor
    · intro tn c o hbody
      rw [exec_offer_select hready hqueue hbody, hbody]
      refine congrArg (fun t => Host.Outcome.next (answered s t)) (modSlot_congr ?_)
      change (if (w.dslot tn c).claiming.isSome then _ else { w.dslot tn c with
        offer := some o, stage := .waiting, replaced := (w.dslot tn c).paneIssued, faulted := false }) =
        if (s.dslot tn c).claiming.isSome then _ else { w.dslot tn c with
        offer := some o, stage := .waiting, replaced := (s.dslot tn c).paneIssued, faulted := false }
      rw [hslot]
    · intro tn c hbody
      rw [exec_retraction_retract hready hqueue hbody, hbody]
      refine congrArg (fun t => Host.Outcome.next (answered s t)) (modSlot_congr ?_)
      change (if (w.dslot tn c).claiming.isSome then _ else _) = _
      rw [hslot]
  · intro tn c o s hready hoffer hstage hclaim hopen hmask w d wake
    have hoffer' : (w.dslot tn c).offer = some o := by rw [begun_dslot, hoffer]
    have hexec : exec (.deliver tn c) s = .next (answered s (deliverStep tn c w)) :=
      answer_eq (onIslands_ready (s := cleared s) _ hready)
    rw [hexec, deliverStep_of_open hoffer' (by rw [begun_dslot, hstage]) (by rw [begun_dslot, hclaim])
      (by rw [deliverable_begun, hopen]) (by rw [offerMasked_begun, hmask]), paneWanted_begun]
    constructor
    · intro hbare
      rw [if_pos (by rw [hbare]; rfl)]
      have hbuilt := buildDelivery_bare hoffer'
      rw [begun_tgt, begun_fabric, begun_now] at hbuilt
      exact congrArg (fun t => Host.Outcome.next (answered s t)) hbuilt
    · intro l hwanted hlatch hpage
      have haddress := paneAddress_of_latch (s := w) (tn := tn) (c := c) (l := l) (by rw [begun_dslot]; exact hlatch)
        (by rw [begun_tgt]; exact hpage)
      rw [if_neg (by simp [hwanted]), haddress]
      dsimp only
      let a := l.frame * 4096 + alignDown ((w.tgt tn).pane c) 6 % 4096
      let x := fillLatch tn c a w
      have hx : x.dslot tn c = { d with
          latch := some { page := alignDown ((w.tgt tn).pane c) 6 / 4096, frame := a / 4096 } } := by
        refine (modSlot_dslot_of_occupied (by simp [DSlot.occupied, hoffer'])).trans ?_
        rw [begun_dslot]
      obtain ⟨hseq, hissued, hpane, hout, hdur, hnv, hledger, hnone⟩ := buildDelivery_pane (s := x) (tn := tn) (c := c)
        (o := o) (by rw [hx]; exact hoffer) a
      have htgt : x.tgt tn = s.tgt tn := begun_tgt ..
      refine ⟨_, rfl, ?_, ?_, ?_, ?_, ?_, ?_, ?_, ?_⟩
      · rw [answered_dslot, hseq, hx]
      · rw [answered_dslot, hissued]
      · rw [answered_dslot, hpane]
      · rw [answered_port]
        rw [htgt] at hout
        rw [hout, hx]
        have hport : (x.port (s.tgt tn).port).out = (s.port (s.tgt tn).port).out := by
          simp [x, fillLatch, w]
        have hnext : x.fabric.nextDescr = s.fabric.nextDescr := by simp [x, fillLatch, State.modSlot, w]
        rw [hport, hnext]
        simp only [a, w, begun_tgt]
        rfl
      · rw [answered_dur, hdur]
        simp [x, fillLatch, w]
      · rw [answered_nv, hnv]
        simp [x, fillLatch, w]
      · rw [answered_ledger, hledger]
        simp [x, fillLatch, w]
      · rw [answered_out, hnone]
        simp [x, fillLatch, w]
  · intro p r rest s hready hissue hqueue hwaits
    obtain ⟨hout, hdur, hnv, hledger, hport⟩ :=
      emitTo_frame p ((begun s [idLink p]).modPort p fun x => { x with out := rest }) r
    refine ⟨_, exec_outboundIssue hready hissue hqueue hwaits, ?_⟩
    have hlink : (answered s (r.emitTo p ((begun s [idLink p]).modPort p fun x => { x with out := rest }))).out =
        r.outputs p := by
      rw [answered_out, hout, State.modPort_out, begun_out, List.nil_append, outputs_reach]
    refine ⟨?_, ?_, ?_, ?_, ?_⟩
    · rw [answered_port, hport, State.modPort_port]
    · rw [answered_ledger, hledger]
      simp
    · rw [answered_nv, hnv]
      simp
    · rw [answered_dur, hdur]
      simp
    · rw [hlink]
      refine ⟨?_, ?_, ?_, ?_, ?_, ?_, ?_, ?_⟩
      all_goals
        intros
        subst_vars
        rfl

end Sys2Proof.Machine
end

section
/-!
EOIs at the slot and at the bank.
-/

namespace Sys2Proof.Machine

open Sys2Proof

/-! ### The room of a bank's Notify channels -/

theorem notifyUsed_notifyRank (s : State) (sn tn : Nat) (n : Notify) (bank r : Nat) :
    notifyUsed (s.notifyRank sn tn n) bank r ≤ notifyUsed s bank r + 1 := by
  unfold notifyUsed
  by_cases hr : r = tn / 256
  · subst hr
    have hread : mget [] (s.notifyRank sn tn n).fabric.notifyQ (tn / 256) =
        mget [] s.fabric.notifyQ (tn / 256) ++ [s.sent (idBank (bankOf sn)) n] := mget_mput_of_ne (by simp) _ _
    rw [hread, List.filter_append, List.length_append]
    exact Nat.add_le_add_left (List.length_filter_le ..) _
  · have hread : mget [] (s.notifyRank sn tn n).fabric.notifyQ r = mget [] s.fabric.notifyQ r :=
      mget_mput_other _ _ _ _ _ hr
    rw [hread]
    exact Nat.le_succ _

theorem notifyUsed_of_fabric {s t : State} (h : t.fabric = s.fabric) (bank r : Nat) :
    notifyUsed t bank r = notifyUsed s bank r := by
  simp only [notifyUsed, h]

theorem notifyUsed_notifyRoute (s : State) (sn : Nat) (target : Option Nat) (c : Cls) (k : Option Cand)
    (bank r : Nat) : notifyUsed (s.notifyRoute sn target c k) bank r ≤ notifyUsed s bank r + 1 := by
  cases target with
  | none => exact Nat.le_succ _
  | some tn => exact notifyUsed_notifyRank ..

theorem notifyUsed_putSrc (s : State) (sn : Nat) (x : Source) (bank r : Nat) :
    notifyUsed (s.putSrc sn x) bank r = notifyUsed s bank r := notifyUsed_of_fabric rfl ..

theorem notifyUsed_eoiTransition (sn : Nat) (s : State) (bank r : Nat) :
    notifyUsed (eoiTransition sn s) bank r ≤ notifyUsed s bank r + 1 := by
  unfold eoiTransition
  dsimp only
  refine iteInduction (motive := fun t => notifyUsed t bank r ≤ notifyUsed s bank r + 1) (fun _ => ?_) fun _ => ?_
  · refine Nat.le_trans (notifyUsed_notifyRoute ..) ?_
    rw [notifyUsed_putSrc]
  · rw [notifyUsed_putSrc]
    exact Nat.le_succ _

/-! ### An EOI at its bank -/

theorem warnSn_of_dur {s t : State} (h : t.dur = s.dur) (tn : Nat) : warnSn t tn = warnSn s tn := by
  simp only [warnSn, h]

theorem heldBy_of_dur {s t : State} (h : t.dur = s.dur) (tn : Nat) (c : Cls) (sn : Nat) :
    heldBy t tn c sn = heldBy s tn c sn := by
  simp only [heldBy, src_of_dur h]

/-- An accepted EOI of another source than the target's power warning. -/
theorem acceptEoi_of_ne {s : State} {tn sn : Nat} {c : Cls} (hwarn : sn ≠ warnSn s tn) :
    acceptEoi tn c sn s = (eoiTransition sn s).notifyRank sn tn (.done tn c sn) := by
  unfold acceptEoi
  simp [hwarn]

theorem eoiError_frame (i tn : Nat) (c : Cls) (sn reason : Nat) (s : State) :
    (eoiError i tn c sn reason s).durab = s.durab ∧
      (eoiError i tn c sn reason s).fabric.notifyQ = s.fabric.notifyQ := by
  unfold eoiError
  dsimp only
  split
  · unfold State.raiseFrom State.submit
    split
    · exact ⟨rfl, rfl⟩
    · exact ⟨rfl, rfl⟩
  · exact ⟨rfl, rfl⟩

section
variable {b : Fin 32} {x : Sent ClaimReq} {rest : List (Sent ClaimReq)} {s : State}

/-- A bank applies the request at the head of its Claim channel, where its Notify channels have room. -/
theorem claimStep_ready (hqueue : mget [] s.fabric.claimQ b = x :: rest) (hckpt : s.durab.ckpt = none)
    (hroom : roomToDirty s)
    (hnotify : ∀ r < 16, notifyUsed (applyClaimReq b x.body
      (s.modFabric fun f => { f with claimQ := mput [] b rest f.claimQ })) b r ≤ max 32 (notifyUsed s b r)) :
    claimStep b s = applyClaimReq b x.body (s.modFabric fun f => { f with claimQ := mput [] b rest f.claimQ }) := by
  unfold claimStep
  simp only [hqueue]
  exact bankApply_room x _ hroom hckpt hnotify

/-- BANK_EOI applies the EOI at the head of the bank's Claim channel. -/
theorem exec_bankEoi {tn sn : Nat} {c : Cls} (hqueue : mget [] s.fabric.claimQ b = x :: rest)
    (hbody : x.body = .eoi tn c sn) (hready : islandsReady s [idBank b] = true) :
    exec (.bankEoi b) s = .next (answered s (claimStep b (begun s [idBank b]))) := by
  refine answer_eq ((handshake_cleared _ hready).trans ?_)
  simp only [begun_fabric, hqueue, List.head?_cons, Option.map_some, hbody]

end

/-! ### A write of EOI (R362, R363) -/

theorem judgeEoi_dirty (tn : Nat) (c : Cls) (sn : Nat) (s : State) :
    (judgeEoi tn c sn s).durab.dirty = s.durab.dirty := by
  unfold judgeEoi
  dsimp only
  split_ifs
  · rfl
  · rw [(eoiError_frame ..).1]
  · rw [(eoiError_frame ..).1]
  · rw [(eoiError_frame ..).1]

theorem linkReaches_begun (s : State) (ids : List Nat) (p : Port) (m : Nat) :
    (begun s ids).linkReaches p m = s.linkReaches p m := by
  rw [begun_frame]
  rfl

theorem exec_eoi {s : State} {p : Port} {tn : Fin 4096} {c : Cls} {v : Word}
    (hopen : postedOpen s p [idDelivery (tn.val / 64)] = true) (hreach : s.linkReaches p (s.tgt tn).room = true) :
    exec (.eoi p tn c v) s = .next (answered s
      (judgeEoi tn c (v.toNat % 2 ^ 24) (begun s [idDelivery (tn.val / 64)]))) := by
  have hdirty : ∀ t : State, ((fun t : State =>
      if !t.linkReaches p (t.tgt tn).room then t.ignoredWrite p.req 1 (wicketOffset tn c 4) rAccess
      else judgeEoi tn c (v.toNat % 2 ^ 24) t) t).durab.dirty = t.durab.dirty := by
    intro t
    dsimp only
    split
    · rw [ignoredWrite_durab]
    · exact judgeEoi_dirty ..
  refine answer_eq ((hostWrite_of_same_dirty false (List.nodup_singleton _) rfl hopen hdirty).trans ?_)
  rw [if_neg]
  rw [linkReaches_begun, begun_tgt, hreach]
  simp

/-- Settles O23: it holds. -/
theorem eoisAreJudgedAndComplete : Obligations.EoisAreJudgedAndComplete := by
  constructor
  · intro b x tn sn c rest s hqueue hbody hready hroom w
    have hckpt : (begun s [idBank b]).durab.ckpt = none := by rw [begun_durab, ckpt_of_ready hready]
    have hroom' : roomToDirty (begun s [idBank b]) := room_busyAll _ hroom
    have hqueue' : mget [] (begun s [idBank b]).fabric.claimQ b = x :: rest := by rw [begun_fabric, hqueue]
    have hdur : w.dur = s.dur := begun_dur ..
    have hused : ∀ r, notifyUsed w b r = notifyUsed s b r := fun r => by
      simp only [w, notifyUsed, State.modFabric_fabric, begun_fabric]
    have hstart : ∀ r, notifyUsed (begun s [idBank b]) b r = notifyUsed s b r :=
      fun r => notifyUsed_of_fabric (begun_fabric ..) b r
    constructor
    · intro hheld hwarn hnotify
      have hstep : applyClaimReq b x.body w = (eoiTransition sn w).notifyRank sn tn (.done tn c sn) := by
        rw [hbody, applyClaimReq, if_pos (by rw [heldBy_of_dur hdur, hheld]),
          acceptEoi_of_ne (by rw [warnSn_of_dur hdur]; exact hwarn)]
      rw [exec_bankEoi hqueue hbody hready, claimStep_ready hqueue' hckpt hroom']
      · exact congrArg (fun t => Host.Outcome.next (answered s t)) hstep
      · intro r hr
        change notifyUsed (applyClaimReq b x.body w) b r ≤ _
        rw [hstep]
        have h1 := notifyUsed_notifyRank (eoiTransition sn w) sn tn (.done tn c sn) b r
        have h2 := notifyUsed_eoiTransition sn w b r
        have h3 := hnotify r hr
        rw [hused] at h2
        omega
    · intro hheld
      have hstep : applyClaimReq b x.body w = eoiError (idBank b) tn c sn 3 w := by
        rw [hbody, applyClaimReq, if_neg (by rw [heldBy_of_dur hdur, hheld]; simp)]
      rw [exec_bankEoi hqueue hbody hready, claimStep_ready hqueue' hckpt hroom']
      · exact congrArg (fun t => Host.Outcome.next (answered s t)) hstep
      · intro r _
        change notifyUsed (applyClaimReq b x.body w) b r ≤ _
        have hsame : notifyUsed (eoiError (idBank b) tn c sn 3 w) b r = notifyUsed w b r := by
          simp only [notifyUsed, (eoiError_frame ..).2]
        rw [hstep, hsame, hused, hstart]
        exact Nat.le_max_right ..
  · intro p tn c v s hopen hreach w sn error
    rw [exec_eoi hopen hreach]
    constructor
    · intro hholding
      rw [judgeEoi, if_pos (by rw [begun_dslot, hholding]; simp [sn])]
    · intro hholding
      have hexists : (!snExists (v.toNat % 2 ^ 24)) = true ↔ snExists sn = false := by simp [sn]
      have hother : ((begun s [idDelivery (tn.val / 64)]).dslot tn c.other).holding == some (v.toNat % 2 ^ 24) ↔
          (s.dslot tn c.other).holding = some sn := by
        rw [begun_dslot, beq_iff_eq]
      rw [judgeEoi, if_neg (by rw [begun_dslot, beq_iff_eq]; exact hholding)]
      simp only [hexists, hother]
      rfl

end Sys2Proof.Machine
end

section
/-!
The class timers expire.
-/

namespace Sys2Proof.Machine

open Sys2Proof

/-! ### Events that follow a step: a raise, a management event, the end of a target's part in the barrier -/

/-- A step that raises sources, shows management events or changes targets and the barrier, and nothing else. -/
def EventStep (s t : State) : Prop :=
  t = { s with
    fabric := { s.fabric with gatherQ := t.fabric.gatherQ, submitHeld := t.fabric.submitHeld }
    portA := t.portA
    portB := t.portB
    dur := { s.dur with targets := t.dur.targets, g := t.dur.g }
    durab := { s.durab with dirty := t.durab.dirty } }

namespace EventStep

theorem refl (s : State) : EventStep s s := rfl

theorem trans {s t u : State} (hst : EventStep s t) (htu : EventStep t u) : EventStep s u := by
  unfold EventStep at *
  rw [htu, hst]

theorem submit (s : State) (i g : Nat) (e : Event) : EventStep s (s.submit i g e) := by
  unfold State.submit
  split
  · rfl
  · rfl

theorem raise (s : State) (sn : Nat) : EventStep s (s.raise sn) := submit ..

theorem raiseFrom (s : State) (i sn : Nat) : EventStep s (s.raiseFrom i sn) := submit ..

theorem mgmt (s : State) (n : Nat) : EventStep s (s.mgmt n) := rfl

theorem putTgt (s : State) (tn : Nat) (x : Target) : EventStep s (s.putTgt tn x) := rfl

theorem setFlush (f : Globals → Globals) (s : State) : EventStep s (setFlush f s) := rfl

theorem flushCheck (s : State) : EventStep s (flushCheck s) := by
  unfold Machine.flushCheck
  split
  · exact refl _
  · exact (setFlush ..).trans (raise ..)

theorem flushLeave (tn : Nat) (f : Flush) (s : State) : EventStep s (flushLeave tn f s) := by
  unfold Machine.flushLeave
  split
  · exact (putTgt ..).trans (flushCheck ..)
  · exact refl _

section
variable {s t : State} (h : EventStep s t)
include h

theorem now_eq : t.now = s.now := by rw [h]
theorem nv_eq : t.nv = s.nv := by rw [h]
theorem keeper_eq : t.keeper = s.keeper := by rw [h]
theorem ledger_eq : t.ledger = s.ledger := by rw [h]
theorem mram_eq : t.mram = s.mram := by rw [h]
theorem conduct_eq : t.conduct = s.conduct := by rw [h]
theorem sources_eq : t.dur.sources = s.dur.sources := by rw [h]
theorem dslots_eq : t.fabric.dslots = s.fabric.dslots := by rw [h]
theorem notifyQ_eq : t.fabric.notifyQ = s.fabric.notifyQ := by rw [h]
theorem wdogExpiries_eq : t.fabric.wdogExpiries = s.fabric.wdogExpiries := by rw [h]
end

end EventStep

/-! ### The watchdog's expiry (R389, R390) -/

/-- The held source is completed at its bank, the slot empties and the target is disabled. -/
def watchdogEnds (tn : Nat) (c : Cls) (sn at' : Nat) (s : State) : State :=
  (((eoiTransition sn (s.elapseTo at')).notifyRank sn tn (.done tn c sn)).modSlot tn c DSlot.afterExpiry).setEnable
    tn false

/-- The expiry is recorded in every copy and counted. -/
def watchdogRecorded (tn : Nat) (c : Cls) (sn : Nat) (s : State) : State :=
  let s := s.modFabric fun x => { x with
    tstatus := mmod ⟨0, 0, 0⟩ x.tstatus tn (·.all (· ||| BitVec.ofNat 3 (2 ^ c.num)))
    wdogExpiries := satAdd 64 x.wdogExpiries 1 }
  s.modConducts fun k => { k with wdogLast := { valid := true, tn := tn, cls := c, sn := sn, reason := 0 } }

/-- The expiry is raised and shown, and ends the target's part in the flush barrier where the source is its warning. -/
def watchdogRaised (tn : Nat) (c : Cls) (barrier : Bool) (s : State) : State :=
  let s := (s.raiseFrom (idDelivery (tn / 64)) (0x101051 + c.num)).mgmt 7
  if barrier then flushLeave tn .hung s else s

theorem watchdogRaised_eventStep (tn : Nat) (c : Cls) (barrier : Bool) (s : State) :
    EventStep s (watchdogRaised tn c barrier s) := by
  unfold watchdogRaised
  dsimp only
  split
  · exact ((EventStep.raiseFrom ..).trans (.mgmt ..)).trans (.flushLeave ..)
  · exact (EventStep.raiseFrom ..).trans (.mgmt ..)

theorem room_begun {s : State} (ids : List Nat) (h : roomToDirty s) : roomToDirty (begun s ids) := room_busyAll _ h

/-- WATCHDOG_EXPIRY of a source that its bank has Active. -/
theorem exec_watchdogExpiry {s : State} {tn : Fin 4096} {c : Cls} {t0 sn : Nat}
    (hwdog : (s.dslot tn c).wdog = some t0) (hsource : heldSource s tn c = some sn) (hheld : heldBy s tn c sn = true)
    (hready : islandsReady s [idDelivery (tn.val / 64), idBank (bankOf sn)] = true) (hroom : roomToDirty s) :
    exec (.watchdogExpiry tn c) s = .next (answered s (watchdogRaised tn c (c == .fast && sn == warnSn s tn)
      (watchdogRecorded tn c sn (watchdogEnds tn c sn (t0 + wdogTime s c)
        (begun s [idDelivery (tn.val / 64), idBank (bankOf sn)]))))) := by
  change execWatchdogExpiry tn c s = _
  unfold execWatchdogExpiry
  simp only [hwdog, hsource]
  refine answer_eq ((onIslands_ready (s := cleared s) _ hready).trans ?_)
  change guarded _ (begun s [idDelivery (tn.val / 64), idBank (bankOf sn)]) = _
  rw [guarded_room _ (room_begun _ hroom)]
  have htime : wdogTime (begun s [idDelivery (tn.val / 64), idBank (bankOf sn)]) c = wdogTime s c := by
    simp only [wdogTime, begun_dur]
  rw [htime]
  have hdur : ((begun s [idDelivery (tn.val / 64), idBank (bankOf sn)]).elapseTo (t0 + wdogTime s c)).dur = s.dur := by
    rw [elapseTo_dur, begun_dur]
  have hheld' := (heldBy_of_dur hdur tn c sn).trans hheld
  simp only [warnSn_of_dur hdur, hheld', if_true]
  rfl

/-- The EOI transition sends on the Notify channels alone. -/
theorem eoiTransition_wdogExpiries (sn : Nat) (s : State) :
    (eoiTransition sn s).fabric.wdogExpiries = s.fabric.wdogExpiries := by
  unfold eoiTransition
  dsimp only
  refine iteInduction (motive := fun t : State => t.fabric.wdogExpiries = s.fabric.wdogExpiries)
    (fun _ => ?_) fun _ => rfl
  unfold State.notifyRoute
  split
  · rfl
  · rfl

theorem watchdogEnds_frame (tn : Nat) (c : Cls) (sn at' : Nat) (s : State) :
    (watchdogEnds tn c sn at' s).now = max s.now at' ∧ (watchdogEnds tn c sn at' s).nv = s.nv ∧
      (watchdogEnds tn c sn at' s).keeper = s.keeper ∧ (watchdogEnds tn c sn at' s).ledger = s.ledger ∧
      (watchdogEnds tn c sn at' s).fabric.wdogExpiries = s.fabric.wdogExpiries := by
  have hends := eoiTransition_bankStep (s.elapseTo at') sn
  have hcount := eoiTransition_wdogExpiries sn (s.elapseTo at')
  unfold watchdogEnds
  generalize eoiTransition sn (s.elapseTo at') = e at *
  refine ⟨?_, ?_, ?_, ?_, ?_⟩
  · change e.now = _
    rw [hends]
    exact elapseTo_now ..
  · change e.nv = _
    rw [hends]
    exact elapseTo_nv ..
  · change e.keeper = _
    rw [hends]
    exact elapseTo_keeper ..
  · change e.ledger = _
    rw [hends]
    exact elapseTo_ledger ..
  · change e.fabric.wdogExpiries = _
    rw [hcount, elapseTo_fabric]

/-- What the record and the events of an expiry change, and what they leave as it is. -/
theorem watchdogRaised_recorded (tn : Nat) (c : Cls) (sn : Nat) (barrier : Bool) (x : State) :
    let t := watchdogRaised tn c barrier (watchdogRecorded tn c sn x)
    t.now = x.now ∧ t.fabric.wdogExpiries = satAdd 64 x.fabric.wdogExpiries 1 ∧
      (∀ r, (t.conduct.get r).wdogLast = { valid := true, tn := tn, cls := c, sn := sn, reason := 0 }) ∧
      (t.fabric.dslots = x.fabric.dslots ∧ t.fabric.notifyQ = x.fabric.notifyQ ∧
        t.dur.sources = x.dur.sources ∧ (barrier = false → t.dur.targets = x.dur.targets)) ∧
      t.nv = x.nv ∧ t.keeper = x.keeper ∧ t.ledger = x.ledger := by
  intro t
  have hraised : EventStep (watchdogRecorded tn c sn x) t := watchdogRaised_eventStep ..
  refine ⟨hraised.now_eq, hraised.wdogExpiries_eq, fun r => ?_, ⟨hraised.dslots_eq, hraised.notifyQ_eq,
    hraised.sources_eq, fun hnone => ?_⟩, hraised.nv_eq, hraised.keeper_eq, hraised.ledger_eq⟩
  · rw [hraised.conduct_eq]
    cases r <;> rfl
  · have ht : t = ((watchdogRecorded tn c sn x).raiseFrom (idDelivery (tn / 64)) (0x101051 + c.num)).mgmt 7 := by
      simp only [t, hnone]
      rfl
    rw [ht, State.mgmt_dur, State.raiseFrom_dur]
    rfl

/-- Settles O24: it holds. -/
theorem classTimersExpire : Obligations.ClassTimersExpire := by
  intro tn c s w
  constructor
  · intro t0 hready hwake
    refine answer_eq ((onIslands_ready (s := cleared s) _ hready).trans ?_)
    change (match ((begun s [idDelivery (tn.val / 64)]).dslot tn c).lastWake with
      | none => begun s [idDelivery (tn.val / 64)]
      | some t => _) = _
    simp only [begun_dslot, hwake]
    rfl
  · intro t0 sn hwdog hsource hheld hready hroom
    refine ⟨_, exec_watchdogExpiry hwdog hsource hheld hready hroom, ?_⟩
    obtain ⟨hnow, hnv, hkeeper, hledger, hcount⟩ :=
      watchdogEnds_frame tn c sn (t0 + wdogTime s c) (w [idBank (bankOf sn)])
    obtain ⟨hnow', hcount', hlast, ⟨hdslots, hnotify, hsources, htargets⟩, hnv', hkeeper', hledger'⟩ :=
      watchdogRaised_recorded tn c sn (c == .fast && sn == warnSn s tn)
        (watchdogEnds tn c sn (t0 + wdogTime s c) (w [idBank (bankOf sn)]))
    refine ⟨?_, hcount'.trans ?_, hlast, ⟨hdslots, hnotify, hsources, fun hwarn => htargets (by simp [hwarn])⟩,
      hnv'.trans (hnv.trans (begun_nv ..)), hkeeper'.trans (hkeeper.trans (begun_keeper ..)),
      hledger'.trans (hledger.trans (begun_ledger ..))⟩
    · rw [answered_now, hnow', hnow]
      exact Nat.le_max_right ..
    · rw [hcount, begun_fabric]

end Sys2Proof.Machine
end

section
/-!
Registers of a Wicket page, written by a link or as objects.
-/

namespace Sys2Proof.Machine

open Sys2Proof

/-! ### The registers of a Wicket page (Table DL-2) -/

section
variable {tn : Nat} {off : Nat} (htn : tn < 4096) (hoff : off < 4096)
include hoff

theorem wicket_page : (0x1000 * tn + off) / 4096 = tn := by omega

theorem wicket_place : (0x1000 * tn + off) % 4096 = off := by omega

include htn

theorem regAt_wicket : regAt .bar2 (0x1000 * tn + off) = regWicket tn off := by
  unfold regAt
  rw [wicket_page hoff, wicket_place hoff]
  exact if_pos (by omega)

theorem regOwner_wicket (p : Port) (v : Nat) :
    (regOwner p .bar2 (0x1000 * tn + off)).2 ++ bankOfMask .bar2 (0x1000 * tn + off) v = [idDelivery (tn / 64)] := by
  have hmask : bankOfMask .bar2 (0x1000 * tn + off) v = [] := rfl
  have hisland : (0x1000 * tn + off) / 2 ^ 18 % 64 = tn / 64 := by omega
  simp only [regOwner, hmask, hisland, List.append_nil]

end

theorem wicketOffset_eq (tn : Nat) (c : Cls) (o : Nat) : wicketOffset tn c o = 0x1000 * tn + (0x100 * c.num + o) :=
  Nat.add_assoc ..

/-- A place of a class's part of a Wicket page. -/
theorem wicket_place_lt (c : Cls) {o : Nat} (ho : o < 0x300) : 0x100 * c.num + o < 4096 := by
  cases c <;> simp [Cls.num] <;> omega

/-- The register at a place of a Wicket page; none of them stands reserved for now. -/
theorem regNow_wicket {s : State} {tn : Nat} {c : Cls} {o : Nat} {g : Reg} (htn : tn < 4096) (ho : o < 0x300)
    (hreg : regWicket tn (0x100 * c.num + o) = some g) (hpresent : g.present s = true) :
    regNow s .bar2 (wicketOffset tn c o) = some g := by
  rw [regNow, wicketOffset_eq, regAt_wicket htn (wicket_place_lt c ho), hreg, Option.filter_some, if_pos hpresent]

theorem regAllowed_wicket {s : State} {p : Port} {tn : Nat} {c : Cls} {o : Nat} (ho : o < 0x300) :
    regAllowed s p .bar2 (wicketOffset tn c o) = s.linkReaches p (s.tgt tn).room := by
  simp only [regAllowed, regRoom, wicketOffset_eq, wicket_page (wicket_place_lt c ho)]

theorem linkReaches_of_may {s : State} {p : Port} {room : Nat} (h : linkMay s p.req room = true) :
    s.linkReaches p room = true := by
  cases p <;> exact h

/-! ### A target's field is written through its register or as its object -/

section
variable {r : Req} {tn : Fin 4096} {c : Cls} {o : Nat} {obj : Obj} {width v : Nat} {s : State}
  (ho : o < 0x300) (hreg : regWicket tn (0x100 * c.num + o) = some (.object obj tn width)) (hwidth : width ≠ 0)
  (hobj : objAt obj.index obj.sub = some obj) (hids : objIslands obj tn = [idDelivery (tn.val / 64)])
  (hany : ∀ bs, applyAny r obj tn bs = applyObject r false obj tn bs)
  (hopen : writeOpen s r [idDelivery (tn.val / 64)] [idDelivery (tn.val / 64)] = true)
  (hmay : linkMay s r (s.tgt tn).room = true) (hroom : roomToDirty s)
  (hjudge : judgeWrite s r false obj tn (valueBytes r obj width v) = none)
include ho hreg hwidth hobj hids hany hopen hmay hroom hjudge

theorem viaRegister_wicket : viaRegister r .bar2 (wicketOffset tn c o) v obj tn (cleared s) =
    (applyObject r false obj tn (valueBytes r obj width v) (begun s [idDelivery (tn.val / 64)])).clampedBy r
      (obj.clamps (valueBytes r obj width v)) := by
  have htaken := viaRegister_taken (s := s) (v := v) hwidth (regNow_wicket tn.isLt ho hreg rfl)
    (fun p => by rw [wicketOffset_eq]; exact regOwner_wicket tn.isLt (wicket_place_lt c ho) p v)
    (fun _ _ => rfl) (hany _) (List.nodup_singleton _) hobj
    (fun p hp => by subst hp; rw [regAllowed_wicket ho]; exact linkReaches_of_may hmay)
    (by rw [hids]; exact hopen) hroom hjudge
  rw [htaken, written, hids, ite_self]
  rfl

end

/-- The number that a link's or the sideband's write of a value gives an object. -/
theorem leNat_valueBytes (r : Req) (o : Obj) {width v : Nat} (hlen : 2 ^ width ≤ 256 ^ max 4 o.desc.len) :
    leNat (valueBytes r o width v) = if r = .sideband then v % 256 ^ o.desc.len else v % 2 ^ width := by
  unfold valueBytes
  split
  · have hbytes : bytesAt (leBytes o.desc.len v) 0 o.desc.len = leBytes o.desc.len v := by
      simp [bytesAt, length_leBytes, List.take_of_length_le]
    rw [hbytes, leNat_leBytes]
  · rw [leNat_leBytes]
    exact Nat.mod_eq_of_lt (Nat.lt_of_lt_of_le (Nat.mod_lt _ (Nat.two_pow_pos _)) hlen)

end Sys2Proof.Machine
end

section
/-!
A target's settings are written; maps whose keys rise.
-/

namespace Sys2Proof.Machine

open Sys2Proof

/-! ### THRESHOLD, LOUVRE and TARGET_CONTROL are written -/

theorem regWicket_threshold (tn : Nat) (c : Cls) :
    regWicket tn (0x100 * c.num + 8) = some (.object (.threshold c) tn 9) := by
  cases c <;> rfl

theorem regWicket_louvre (tn : Nat) (c : Cls) :
    regWicket tn (0x100 * c.num + 0xC) = some (.object (.louvre c) tn 16) := by
  cases c <;> rfl

theorem objIslands_target {o : Obj} {tn : Fin 4096} (h : objIslands o tn =
    if tn.val < 4096 then [idDelivery (tn.val / 64)] else []) : objIslands o tn = [idDelivery (tn.val / 64)] :=
  h.trans (if_pos tn.isLt)

theorem clamps_threshold (c : Cls) (bs : List Byte) : (Obj.threshold c).clamps bs = decide (256 < leNat bs) := by
  change (clamp 0 256 (leNat bs) != leNat bs) = _
  unfold clamp
  rw [if_neg (Nat.not_lt_zero _)]
  by_cases h : 256 < leNat bs
  · rw [if_pos h, decide_eq_true h, bne_iff_ne]
    omega
  · rw [if_neg h, decide_eq_false h, bne_self_eq_false]

theorem setTargetControl_mod (tn v : Nat) (s : State) : setTargetControl tn v s = setTargetControl tn (v % 32) s := by
  have hbit : ∀ i < 5, bit v i = bit (v % 32) i := by
    intro i hi
    have hsame : v / 2 ^ i % 2 = v % 32 / 2 ^ i % 2 := by
      rcases (by omega : i = 0 ∨ i = 1 ∨ i = 2 ∨ i = 3 ∨ i = 4) with rfl | rfl | rfl | rfl | rfl
      all_goals omega
    simp only [bit, hsame]
  unfold setTargetControl
  rw [hbit 0 (by decide), hbit 1 (by decide), hbit 2 (by decide), hbit 3 (by decide), hbit 4 (by decide)]

section
variable {r : Req} {tn : Fin 4096} {s : State}
  (hopen : writeOpen s r [idDelivery (tn.val / 64)] [idDelivery (tn.val / 64)] = true)
  (hmay : linkMay s r (s.tgt tn).room = true) (hroom : roomToDirty s)
include hopen hmay hroom

theorem exec_thresholdWrite {c : Cls} {v : Word}
    (hjudge : judgeWrite s r false (.threshold c) tn (valueBytes r (.threshold c) 9 v.toNat) = none) :
    exec (.thresholdWrite r tn c v) s = .next (answered s
      ((setThreshold tn c (clamp 0 256 (leNat (valueBytes r (.threshold c) 9 v.toNat)))
        (begun s [idDelivery (tn.val / 64)])).clampedBy r (256 < leNat (valueBytes r (.threshold c) 9 v.toNat)))) := by
  refine answer_eq ((viaRegister_wicket (by decide) (regWicket_threshold tn c) (by decide) (by cases c <;> rfl)
    (objIslands_target rfl) (fun _ => rfl) hopen hmay hroom hjudge).trans ?_)
  rw [clamps_threshold]
  rfl

theorem exec_louvreWrite {c : Cls} {v : Word}
    (hjudge : judgeWrite s r false (.louvre c) tn (valueBytes r (.louvre c) 16 v.toNat) = none) :
    exec (.louvreWrite r tn c v) s = .next (answered s
      (setLouvre tn c (v.toNat % 2 ^ 16) (begun s [idDelivery (tn.val / 64)]))) := by
  have hvalue : leNat (valueBytes r (.louvre c) 16 v.toNat) = v.toNat % 2 ^ 16 := by
    rw [leNat_valueBytes r _ (by change 2 ^ 16 ≤ 256 ^ 4; decide)]
    exact ite_self _
  have hclamps : (Obj.louvre c).clamps (valueBytes r (.louvre c) 16 v.toNat) = false := bne_self_eq_false _
  refine answer_eq ((viaRegister_wicket (by decide) (regWicket_louvre tn c) (by decide) (by cases c <;> rfl)
    (objIslands_target rfl) (fun _ => rfl) hopen hmay hroom hjudge).trans ?_)
  rw [hclamps, clampedBy_false]
  change setLouvre tn c (leNat (valueBytes r (.louvre c) 16 v.toNat)) _ = _
  rw [hvalue]

theorem exec_targetControlWrite {v : Word}
    (hjudge : judgeWrite s r false .targetControl tn (valueBytes r .targetControl 5 v.toNat) = none) :
    exec (.targetControlWrite r tn v) s = .next (answered s
      (setTargetControl tn (v.toNat % 32) (begun s [idDelivery (tn.val / 64)]))) := by
  have hvalue : leNat (valueBytes r .targetControl 5 v.toNat) % 32 = v.toNat % 32 := by
    rw [leNat_valueBytes r _ (by change 2 ^ 5 ≤ 256 ^ 4; decide)]
    split
    · exact Nat.mod_mod_of_dvd _ (by decide)
    · exact Nat.mod_mod ..
  have hclamps : Obj.targetControl.clamps (valueBytes r .targetControl 5 v.toNat) = false := bne_self_eq_false _
  refine answer_eq ((viaRegister_wicket (c := .normal) (by decide) rfl (by decide) rfl
    (objIslands_target rfl) (fun _ => rfl) hopen hmay hroom hjudge).trans ?_)
  rw [hclamps, clampedBy_false]
  change setTargetControl tn (leNat (valueBytes r .targetControl 5 v.toNat) / 2 * 2 +
    leNat (valueBytes r .targetControl 5 v.toNat) % 2) _ = _
  rw [Nat.div_add_mod', setTargetControl_mod, hvalue]

end

/-! ### Maps whose keys rise -/

/-- The keys of a map strictly rise. -/
def KeysRise {α : Type} (m : SMap α) : Prop := (m.map Prod.fst).Pairwise (· < ·)

theorem mget_of_keys_above {α : Type} {d : α} {k : Nat} {m : SMap α} (h : ∀ p ∈ m, k < p.1) : mget d m k = d := by
  induction m with
  | nil => rfl
  | cons p m ih =>
    have hp := h p (by simp)
    simp only [mget]
    rw [if_neg (by omega)]
    exact ih fun q hq => h q (by simp [hq])

theorem KeysRise.tail {α : Type} {p : Nat × α} {m : SMap α} (h : KeysRise (p :: m)) :
    KeysRise m ∧ ∀ q ∈ m, p.1 < q.1 := by
  simp only [KeysRise, List.map_cons, List.pairwise_cons, List.mem_map] at h
  exact ⟨h.2, fun q hq => h.1 q.1 ⟨q, hq, rfl⟩⟩

theorem KeysRise.cons {α : Type} {p : Nat × α} {m : SMap α} (hm : KeysRise m) (h : ∀ q ∈ m, p.1 < q.1) :
    KeysRise (p :: m) := by
  simp only [KeysRise, List.map_cons, List.pairwise_cons, List.mem_map]
  refine ⟨?_, hm⟩
  rintro _ ⟨q, hq, rfl⟩
  exact h q hq

section
variable {α : Type} [DecidableEq α] (d : α) (k : Nat) (v : α)

theorem mem_mput {m : SMap α} {q : Nat × α} (h : q ∈ mput d k v m) : q ∈ m ∨ q.1 = k := by
  induction m with
  | nil =>
    unfold mput at h
    split at h
    · exact .inl h
    · simp at h
      simp [h]
  | cons p m ih =>
    obtain ⟨j, u⟩ := p
    unfold mput at h
    split_ifs at h with hlt hv heq hv
    · exact .inl h
    · rcases List.mem_cons.mp h with rfl | hq
      · exact .inr rfl
      · exact .inl hq
    · exact .inl (List.mem_cons_of_mem _ h)
    · rcases List.mem_cons.mp h with rfl | hq
      · exact .inr rfl
      · exact .inl (List.mem_cons_of_mem _ hq)
    · rcases List.mem_cons.mp h with rfl | hq
      · exact .inl (by simp)
      · exact (ih hq).imp_left (List.mem_cons_of_mem _)

/-- A map whose keys rise keeps them rising. -/
theorem KeysRise.mput {m : SMap α} (h : KeysRise m) : KeysRise (mput d k v m) := by
  induction m with
  | nil =>
    unfold Machine.mput
    split
    · exact h
    · simp [KeysRise]
  | cons p m ih =>
    obtain ⟨j, u⟩ := p
    obtain ⟨hm, hlow⟩ := h.tail
    unfold Machine.mput
    split_ifs with hlt hv heq hv
    · exact h
    · refine h.cons fun q hq => ?_
      rcases List.mem_cons.mp hq with rfl | hin
      · exact hlt
      · exact Nat.lt_trans hlt (hlow q hin)
    · exact hm
    · subst heq
      exact hm.cons hlow
    · refine (ih hm).cons fun q hq => ?_
      rcases mem_mput d k v hq with hin | hkey
      · exact hlow q hin
      · rw [hkey]
        change j < k
        omega

/-- A map whose keys rise reads what was just written. -/
theorem mget_mput_of_keysRise {m : SMap α} (h : KeysRise m) : mget d (Machine.mput d k v m) k = v := by
  by_cases hv : v = d
  · subst hv
    induction m with
    | nil => simp [Machine.mput, mget]
    | cons p m ih =>
      obtain ⟨j, u⟩ := p
      obtain ⟨hm, hlow⟩ := h.tail
      rcases Nat.lt_trichotomy k j with hlt | heq | hgt
      · simp only [Machine.mput, if_pos hlt, if_true]
        refine mget_of_keys_above fun q hq => ?_
        rcases List.mem_cons.mp hq with rfl | hin
        · exact hlt
        · exact Nat.lt_trans hlt (hlow q hin)
      · subst heq
        simp only [Machine.mput, if_neg (Nat.lt_irrefl k), if_true]
        exact mget_of_keys_above hlow
      · simp only [Machine.mput, if_neg (Nat.lt_asymm hgt), if_neg (Nat.ne_of_gt hgt), mget]
        exact ih hm
  · exact mget_mput_of_ne hv k m

end

end Sys2Proof.Machine
end

section
/-!
Target reset.
-/

namespace Sys2Proof.Machine

open Sys2Proof

/-! ### The release of what a target holds (Table DL-17) -/

/-- A step that releases a held source: source records, the barrier and what waits for Gather and Rank islands change,
and nothing else. -/
def ReleaseStep (s t : State) : Prop :=
  t = { s with
    dur := { s.dur with sources := t.dur.sources, targets := t.dur.targets, g := t.dur.g }
    durab := { s.durab with dirty := t.durab.dirty }
    fabric := { s.fabric with
      notifyQ := t.fabric.notifyQ
      maskedAt := t.fabric.maskedAt
      gatherQ := t.fabric.gatherQ
      submitHeld := t.fabric.submitHeld } }

/-- The targets' map has its keys rising, and a target in it is disabled. -/
def TargetOff (tn : Nat) (s : State) : Prop := KeysRise s.dur.targets ∧ (s.tgt tn).enable = false

/-- A step that releases a held source and leaves a disabled target disabled. -/
def ReleaseOff (tn : Nat) (s t : State) : Prop := ReleaseStep s t ∧ (TargetOff tn s → TargetOff tn t)

namespace ReleaseOff

variable {tn : Nat}

theorem refl (s : State) : ReleaseOff tn s s := ⟨rfl, id⟩

theorem trans {s t u : State} (hst : ReleaseOff tn s t) (htu : ReleaseOff tn t u) : ReleaseOff tn s u := by
  obtain ⟨hst, hoff⟩ := hst
  obtain ⟨htu, hoff'⟩ := htu
  refine ⟨?_, fun h => hoff' (hoff h)⟩
  unfold ReleaseStep at *
  rw [htu, hst]

/-- A step that leaves the targets as they are. -/
theorem of_targets {s t : State} (hstep : ReleaseStep s t) (htargets : t.dur.targets = s.dur.targets) :
    ReleaseOff tn s t := by
  refine ⟨hstep, fun ⟨hkeys, hoff⟩ => ⟨by rw [htargets]; exact hkeys, ?_⟩⟩
  have hdefault : tgtDefault t.dur tn = tgtDefault s.dur tn := by
    rw [hstep]
    rfl
  simp only [State.tgt, hdefault, htargets]
  exact hoff

theorem putSrc (s : State) (sn : Nat) (x : Source) : ReleaseOff tn s (s.putSrc sn x) := of_targets rfl rfl

theorem notifyRank (s : State) (sn t : Nat) (n : Notify) : ReleaseOff tn s (s.notifyRank sn t n) := of_targets rfl rfl

theorem notifyRoute (s : State) (sn : Nat) (t : Option Nat) (c : Cls) (k : Option Cand) :
    ReleaseOff tn s (s.notifyRoute sn t c k) := by
  cases t with
  | none => exact refl _
  | some t => exact notifyRank ..

theorem maskTimed (sn : Nat) (was now : Bool) (s : State) : ReleaseOff tn s (maskTimed sn was now s) := by
  unfold Machine.maskTimed
  split
  · exact refl _
  · exact of_targets rfl rfl

theorem raise (s : State) (sn : Nat) : ReleaseOff tn s (s.raise sn) := by
  unfold State.raise State.raiseFrom State.submit
  split
  · exact of_targets rfl rfl
  · exact of_targets rfl rfl

theorem holderReset (t : Nat) (c : Cls) (sn : Nat) (s : State) : ReleaseOff tn s (holderReset t c sn s) := by
  unfold Machine.holderReset
  split
  · exact (putSrc ..).trans (notifyRoute ..)
  · exact refl _

theorem applyRoute (n : Route) (s : State) : ReleaseOff tn s (applyRoute n s) := by
  unfold Machine.applyRoute
  extract_lets x ipi target room cls y
  split
  · exact refl _
  · split
    · split
      · exact ((putSrc ..).trans (maskTimed ..)).trans (notifyRoute ..)
      · exact (((putSrc ..).trans (maskTimed ..)).trans (notifyRoute ..)).trans (notifyRoute ..)
    · exact (putSrc ..).trans (maskTimed ..)

theorem setFlush (f : Globals → Globals) (s : State) : ReleaseOff tn s (setFlush f s) := of_targets rfl rfl

theorem flushCheck (s : State) : ReleaseOff tn s (flushCheck s) := by
  unfold Machine.flushCheck
  split
  · exact refl _
  · exact (setFlush ..).trans (raise ..)

/-- A target's part in the barrier ends: it stays as enabled as it was. -/
theorem putFlush (f : Flush) (s : State) : ReleaseOff tn s (s.putTgt tn { s.tgt tn with flush := f }) := by
  refine ⟨rfl, fun ⟨hkeys, hoff⟩ => ⟨hkeys.mput _ _ _, ?_⟩⟩
  have hread : (s.putTgt tn { s.tgt tn with flush := f }).tgt tn = { s.tgt tn with flush := f } :=
    mget_mput_of_keysRise _ _ _ hkeys
  rw [hread]
  exact hoff

theorem flushLeave (f : Flush) (s : State) : ReleaseOff tn s (flushLeave tn f s) := by
  unfold Machine.flushLeave
  split
  · exact (putFlush ..).trans (flushCheck ..)
  · exact refl _

theorem releaseSource (barrier : Bool) (c : Cls) (sn : Nat) (s : State) :
    ReleaseOff tn s (releaseSource barrier tn c sn s) := by
  unfold Machine.releaseSource
  split
  · exact refl _
  · extract_lets t r u
    have hu : ReleaseOff tn s u := by
      refine (holderReset tn c sn s).trans ?_
      change ReleaseOff tn t u
      simp only [u]
      split
      · exact refl _
      · split
        · exact applyRoute ..
        · exact refl _
    split
    · exact hu.trans (flushLeave ..)
    · exact hu

theorem releaseHeld (barrier : Bool) (c : Cls) (held : Option Nat) (s : State) :
    ReleaseOff tn s (releaseHeld barrier tn c held s) := by
  cases held with
  | none => exact refl _
  | some sn => exact releaseSource ..

end ReleaseOff

/-! ### TARGET_RESET -/

/-- The target is disabled and its reset recorded in its status. -/
def targetDisabled (tn : Nat) (s : State) : State :=
  (s.setEnable tn false).modFabric fun x => { x with tstatus := mmod ⟨0, 0, 0⟩ x.tstatus tn (·.all (· ||| 4)) }

/-- Both slots of the target are emptied, and their selections owed. -/
def slotsEmptied (tn : Nat) (s : State) : State :=
  let s := ((purgeSelect tn s).modSlot tn .normal DSlot.afterReset).modSlot tn .fast DSlot.afterReset
  (((s.setRank tn .normal .empty).setRank tn .fast .empty).owe tn .normal).owe tn .fast

theorem settleClaim_of_none {s : State} {tn : Nat} {c : Cls} (h : (s.dslot tn c).claiming = none) :
    settleClaim tn c s = (s, (s.dslot tn c).holding) := by
  simp only [settleClaim, h]

/-- A target of which no claim awaits its answer is reset (Table DL-17). -/
theorem resetTarget_eq {s : State} {tn : Nat} (barrier : Bool) (hclaims : ∀ c, (s.dslot tn c).claiming = none) :
    resetTarget barrier tn s = slotsEmptied tn (releaseHeld barrier tn .fast (s.dslot tn .fast).holding
      (releaseHeld barrier tn .normal (s.dslot tn .normal).holding (targetDisabled tn s))) := by
  unfold resetTarget
  rw [settleClaim_of_none (hclaims .normal)]
  dsimp only
  rw [settleClaim_of_none (hclaims .fast)]
  rfl

theorem targetDisabled_off {s : State} {tn : Nat} (hkeys : KeysRise s.dur.targets) :
    TargetOff tn (targetDisabled tn s) := by
  refine ⟨hkeys.mput _ _ _, ?_⟩
  have hread : (targetDisabled tn s).tgt tn = { s.tgt tn with enable := false } := mget_mput_of_keysRise _ _ _ hkeys
  rw [hread]

theorem tkey_ne (tn : Nat) : tkey tn .fast ≠ tkey tn .normal := by
  simp [tkey, Cls.num]

theorem slotsEmptied_spec (tn : Nat) (x : State) :
    (slotsEmptied tn x).fabric.rank =
        mput .empty (tkey tn .fast) .empty (mput .empty (tkey tn .normal) .empty x.fabric.rank) ∧
      (slotsEmptied tn x).fabric.dslots = mput .initial (tkey tn .fast) (x.dslot tn .fast).afterReset
        (mput .initial (tkey tn .normal) (x.dslot tn .normal).afterReset x.fabric.dslots) ∧
      (slotsEmptied tn x).dur = x.dur ∧ (slotsEmptied tn x).nv = x.nv ∧ (slotsEmptied tn x).keeper = x.keeper ∧
      (slotsEmptied tn x).ledger = x.ledger ∧ (slotsEmptied tn x).mram = x.mram := by
  refine ⟨?_, ?_, ?_⟩
  · simp only [slotsEmptied, State.owe, State.setRank, State.modSlot, purgeSelect, State.modFabric_fabric]
  · simp only [slotsEmptied, State.owe, State.setRank, State.modSlot, purgeSelect, State.modFabric_fabric, mmod,
      mget_mput_other _ _ _ _ _ (tkey_ne tn), State.dslot]
  · simp [slotsEmptied, purgeSelect]

/-- The target is reset as Table DL-17 says. -/
def TargetWasReset (tn : Nat) (s t : State) : Prop :=
  t.fabric.rank = mput .empty (tkey tn .fast) .empty (mput .empty (tkey tn .normal) .empty s.fabric.rank) ∧
    t.fabric.dslots = mput .initial (tkey tn .fast) (s.dslot tn .fast).afterReset
      (mput .initial (tkey tn .normal) (s.dslot tn .normal).afterReset s.fabric.dslots) ∧
    (KeysRise s.dur.targets → (t.tgt tn).enable = false) ∧
    t.nv = s.nv ∧ t.keeper = s.keeper ∧ t.ledger = s.ledger ∧ t.mram = s.mram

theorem resetTarget_spec {s : State} {tn : Nat} (barrier : Bool) (hclaims : ∀ c, (s.dslot tn c).claiming = none) :
    TargetWasReset tn s (resetTarget barrier tn s) := by
  rw [resetTarget_eq barrier hclaims]
  generalize hx : releaseHeld barrier tn .fast (s.dslot tn .fast).holding
    (releaseHeld barrier tn .normal (s.dslot tn .normal).holding (targetDisabled tn s)) = x
  obtain ⟨hstep, hoff⟩ : ReleaseOff tn (targetDisabled tn s) x := by
    rw [← hx]
    exact (ReleaseOff.releaseHeld ..).trans (.releaseHeld ..)
  have hdslots : x.fabric.dslots = s.fabric.dslots := by
    rw [hstep]
    rfl
  have hrank : x.fabric.rank = s.fabric.rank := by
    rw [hstep]
    rfl
  have hslot : ∀ c, x.dslot tn c = s.dslot tn c := fun c => by simp only [State.dslot, hdslots]
  obtain ⟨hrank', hdslots', hdur, hnv, hkeeper, hledger, hmram⟩ := slotsEmptied_spec tn x
  refine ⟨?_, ?_, fun hkeys => ?_, hnv.trans ?_, hkeeper.trans ?_, hledger.trans ?_, hmram.trans ?_⟩
  · rw [hrank', hrank]
  · rw [hdslots', hslot, hslot, hdslots]
  · rw [tgt_of_dur hdur]
    exact (hoff (targetDisabled_off hkeys)).2
  all_goals
    rw [hstep]
    rfl

section
variable {p : Port} {tn : Fin 4096} {v : Word} {s : State}
  (hopen : postedOpen s p [idDelivery (tn.val / 64)] = true) (hreach : s.linkReaches p (s.tgt tn).room = true)
include hopen hreach

/-- A write of TARGET_RESET that its link may make has the register's effect, where no bank holds it. -/
theorem exec_targetReset {t : State}
    (heffect : writeTargetReset p tn (wicketOffset tn .normal 0x208) v.toNat
      (begun s [idDelivery (tn.val / 64)]) = t)
    (hheld : heldBanks (begun s [idDelivery (tn.val / 64)]) t = []) :
    exec (.targetReset p tn v) s = .next (answered s t) :=
  answer_eq (regWrite_of_held (by rw [wicketOffset_eq]; exact regOwner_wicket tn.isLt (by decide) p v.toNat)
    (List.nodup_singleton _) (regNow_wicket (c := .normal) (o := 0x208) tn.isLt (by decide) rfl rfl)
    (by rw [regAllowed_wicket (by decide), hreach]) hopen heffect hheld)

end

/-- Settles O25: it holds. -/
theorem targetsAreWrittenAndReset : Obligations.TargetsAreWrittenAndReset := by
  constructor
  · intro r tn c v s hopen hmay hroom w
    exact ⟨fun hjudge => exec_thresholdWrite hopen hmay hroom hjudge,
      fun hjudge => exec_louvreWrite hopen hmay hroom hjudge,
      fun hjudge => exec_targetControlWrite hopen hmay hroom hjudge⟩
  · intro p tn v s hopen hreach
    constructor
    · intro hname
      exact exec_targetReset hopen hreach (if_neg hname) (heldBanks_same (by rw [ignoredWrite_durab]))
    · intro hname hclaims hroom
      have hclaims' : ∀ c, ((begun s [idDelivery (tn.val / 64)]).dslot tn c).claiming = none := fun c => by
        rw [begun_dslot, hclaims c]
      have hreset := resetTarget_spec true hclaims'
      have hexec := exec_targetReset hopen hreach (if_pos hname) (heldBanks_room _ (room_begun _ hroom))
      generalize resetTarget true tn (begun s [idDelivery (tn.val / 64)]) = t at *
      obtain ⟨hrank, hdslots, henable, hnv, hkeeper, hledger, hmram⟩ := hreset
      rw [begun_dslot, begun_dslot, begun_fabric] at hdslots
      rw [begun_fabric] at hrank
      rw [begun_dur] at henable
      exact ⟨_, hexec, hrank, hdslots, henable, hnv.trans (begun_nv ..), hkeeper.trans (begun_keeper ..),
        hledger.trans (begun_ledger ..), hmram.trans (begun_mram ..)⟩

end Sys2Proof.Machine
end

section
/-!
The Shutter and the mask of a source.
-/

namespace Sys2Proof.Machine

open Sys2Proof

/-! ### The Shutter (DL.5) -/

/-- The judgement of a write of the Shutter does not look at the value. -/
theorem judgeWrite_shutter (s : State) (r : Req) (bs bs' : List Byte) :
    judgeWrite s r false .shutter 0 bs = judgeWrite s r false .shutter 0 bs' := rfl

theorem clamps_shutter {bs : List Byte} (h : leNat bs ≤ 1) : Obj.shutter.clamps bs = false := by
  change (min (leNat bs) 1 != leNat bs) = false
  rw [Nat.min_eq_left h, bne_self_eq_false]

/-- A write of the Shutter that nothing stops closes or opens it. -/
theorem viaRegister_shutter {s : State} {r : Req} {closed : Bool} (hopen : writeOpen s r [idManagement] [] = true)
    (hjudge : judgeWrite s r false .shutter 0 (valueBytes r .shutter 1 1) = none) :
    viaRegister r .bar0 0x3000 (b2n closed) .shutter 0 (cleared s) =
      setShutter closed (written s r [idManagement] []) := by
  have hvalue : leNat (valueBytes r .shutter 1 (b2n closed)) = b2n closed := by
    rw [leNat_valueBytes r _ (by change 2 ^ 1 ≤ 256 ^ 4; decide)]
    cases closed <;> exact ite_self _
  have hlegal : (Obj.shutter.legal (valueBytes r .shutter 1 (b2n closed)) == 1) = closed := by
    change (min (leNat (valueBytes r .shutter 1 (b2n closed))) 1 == 1) = closed
    rw [hvalue]
    cases closed <;> rfl
  refine viaRegister_of_held (by decide) rfl (fun _ => rfl) (fun _ _ => rfl) rfl (List.nodup_singleton _) rfl
    (fun _ _ => rfl) hopen ((judgeWrite_shutter ..).trans hjudge) ?_ ?_
  · rw [clamps_shutter (by rw [hvalue]; cases closed <;> decide), clampedBy_false]
    change setShutter (Obj.shutter.legal (valueBytes r .shutter 1 (b2n closed)) == 1) _ = _
    rw [hlegal]
    rfl
  · exact heldBanks_same rfl

/-! ### The mask of a source (DL.6) -/

/-- The number that a mask or an unmask writes: the SN, and MASK in bit 31. -/
theorem maskValue_spec (sn : BitVec 24) (m : Bool) :
    (sn.toNat + 2 ^ 31 * b2n m) % 2 ^ 24 = sn.toNat ∧ bit (sn.toNat + 2 ^ 31 * b2n m) 31 = m := by
  have hsn := sn.isLt
  cases m with
  | false =>
    refine ⟨by simp only [b2n]; omega, ?_⟩
    simp only [bit, b2n, Bool.false_eq_true, if_false, Nat.mul_zero, Nat.add_zero]
    rw [Nat.div_eq_of_lt (by omega)]
    rfl
  | true =>
    refine ⟨by simp only [b2n, if_true]; omega, ?_⟩
    simp only [bit, b2n, if_true, Nat.mul_one]
    rw [Nat.add_div_right _ (Nat.two_pow_pos _), Nat.div_eq_of_lt (by omega)]
    rfl

theorem exec_mask {s : State} {r : Req} {sn : BitVec 24} {m : Bool} {t : State}
    (h : maskCommand r sn.toNat m (cleared s) = t) :
    exec (if m then .sourceMask r sn else .sourceUnmask r sn) s = .next (answered s t) := by
  cases m <;> exact answer_eq h

theorem idManagement_ne_idBank (sn : Nat) : idManagement ≠ idBank (bankOf sn) := by
  have hbank : bankOf sn < 32 := by
    simp only [bankOf, bits]
    refine Nat.xor_lt_two_pow (n := 5) ?_ ?_
    · refine Nat.xor_lt_two_pow ?_ ?_
      · refine Nat.xor_lt_two_pow ?_ ?_
        · refine Nat.xor_lt_two_pow ?_ ?_
          all_goals exact Nat.mod_lt _ (by decide)
        · exact Nat.mod_lt _ (by decide)
      · exact Nat.mod_lt _ (by decide)
    · exact Nat.lt_of_lt_of_le (Nat.mod_lt _ (by decide)) (by decide)
  simp only [idManagement, idBank]
  omega

/-- A link's mask of a source that it may touch. -/
theorem regWrite_sourceMask {s : State} {p : Port} {sn : BitVec 24} {m : Bool}
    (hopen : postedOpen s p [idManagement, idBank (bankOf sn.toNat)] = true) (hsn : snExists sn.toNat = true)
    (htouch : s.mayTouch p.req (s.src sn.toNat).room = true) (hroom : roomToDirty s) :
    regWrite p .bar0 0x3008 (sn.toNat + 2 ^ 31 * b2n m) (cleared s) =
      maskFromPort p sn.toNat m (begun s [idManagement, idBank (bankOf sn.toNat)]) := by
  obtain ⟨hnumber, hmask⟩ := maskValue_spec sn m
  have howner : (regOwner p .bar0 0x3008).2 ++ bankOfMask .bar0 0x3008 (sn.toNat + 2 ^ 31 * b2n m) =
      [idManagement, idBank (bankOf sn.toNat)] := by
    simp only [bankOfMask, hnumber, hsn]
    rfl
  have hnodup : [idManagement, idBank (bankOf sn.toNat)].Nodup := by
    simp [idManagement_ne_idBank]
  rw [regWrite_taken howner hnodup rfl rfl hopen hroom]
  change writeSourceMask p 0x3008 _ (begun s [idManagement, idBank (bankOf sn.toNat)]) = _
  have htouch' : (begun s [idManagement, idBank (bankOf sn.toNat)]).mayTouch p.req (s.src sn.toNat).room = true := by
    rw [begun_frame]
    exact htouch
  unfold writeSourceMask
  dsimp only
  rw [hnumber, hmask, if_neg (by simp [hsn]), if_neg (by rw [begun_src, htouch']; simp)]

/-- The sideband's mask of a source. -/
theorem dictCommand_sourceMask {s : State} {sn : BitVec 24} {m : Bool}
    (hopen : dictOpen s .sideband (objIslands .sourceMask sn.toNat) = true)
    (hjudge : judgeWrite s .sideband false .sourceMask sn.toNat [BitVec.ofNat 8 (b2n m)] = none)
    (hroom : roomToDirty s) :
    dictCommand .sideband .sourceMask sn.toNat [BitVec.ofNat 8 (b2n m)] (cleared s) =
      setMask sn.toNat m (begun s (objIslands .sourceMask sn.toNat)) := by
  have hbytes : bytesAt [BitVec.ofNat 8 (b2n m)] 0 (Obj.sourceMask).desc.len = [BitVec.ofNat 8 (b2n m)] := rfl
  rw [dictCommand_taken rfl hopen hroom (by rw [hbytes]; exact hjudge), hbytes]
  cases m <;> rfl

/-- Settles O26: it holds. -/
theorem shutterAndMask : Obligations.ShutterAndMask := by
  refine ⟨?_, ?_, ?_⟩
  · intro r s hopen hjudge
    exact ⟨answer_eq (viaRegister_shutter (closed := true) hopen hjudge),
      answer_eq (viaRegister_shutter (closed := false) hopen hjudge)⟩
  · intro p sn s hopen hsn htouch hroom m
    refine (exec_mask (t := maskFromPort p sn.toNat m (begun s [idManagement, idBank (bankOf sn.toNat)])) ?_).trans ?_
    · refine Eq.trans ?_ (regWrite_sourceMask hopen hsn htouch hroom)
      cases p <;> rfl
    · unfold maskFromPort
      rw [begun_now]
  · intro sn m s hopen hjudge hroom
    exact exec_mask (dictCommand_sourceMask hopen hjudge hroom)

end Sys2Proof.Machine
end

section
/-!
Register reads that reach their register.
-/

namespace Sys2Proof.Machine

open Sys2Proof

/-! ### A register read that reaches its register (CN.3) -/

@[simp] theorem letterboxPending_cleared (s : State) (p : Port) (pages : List Nat) :
    letterboxPending (cleared s) p pages = letterboxPending s p pages := by
  simp only [letterboxPending, cleared_port]
  rfl

theorem readOpen_cleared (s : State) (p : Port) (ids pages : List Nat) :
    readOpen (cleared s) p ids pages = readOpen s p ids pages := by
  simp only [readOpen, accessOpen_cleared, letterboxPending_cleared]

/-- What is open for the Letterbox writes of more pages is open for those of fewer. -/
theorem readOpen_mono {s : State} {p : Port} {ids pages pages' : List Nat} (hsub : pages' ⊆ pages)
    (h : readOpen s p ids pages = true) : readOpen s p ids pages' = true := by
  simp only [readOpen, Bool.and_eq_true, Bool.not_eq_true'] at h ⊢
  refine ⟨h.1, ?_⟩
  have hpending := h.2
  simp only [letterboxPending, Bool.or_eq_false_iff, List.any_eq_false, Bool.not_eq_true] at hpending ⊢
  obtain ⟨hstaging, hqueues⟩ := hpending
  exact ⟨fun x hx k hk => hstaging x hx k (hsub hk), fun q hq x hx k hk => hqueues q hq x hx k (hsub hk)⟩

section
variable {s : State} {r : Reader} {w : Window} {off : Nat} {ids : List Nat}
  (howner : (regOwner r.port w off).2 = ids) (hopen : accessOpen s r.port ids = true)
  (hbehind : waitsBehind s r.port (.read w off r.first r.count) = false)
include howner hopen hbehind

/-- A read of a register that follows no posted write takes place at once. -/
theorem regRead_of_some {g : Reg} (hletter : (decide (w = .bar0) && (letterboxPage off).isSome) = false)
    (hreg : regNow s w off = some g) (hclaim : ∀ tn c, g ≠ .claim tn c) (hfence : g ≠ .ledgerFence)
    (hfollows : ∀ x, g.follows x = false) :
    regRead r w off s = (readOrZero r w off (some g) s).1.answerRead r (readOrZero r w off (some g) s).2 := by
  subst howner
  unfold regRead
  dsimp only
  rw [hletter, if_neg Bool.false_ne_true, hreg]
  have hnone : ((s.port r.port).out.any (Reg.follows g)) = false := by simp [hfollows]
  cases g
  case claim tn c => exact absurd rfl (hclaim tn c)
  case ledgerFence => exact absurd rfl hfence
  all_goals
    dsimp only
    rw [if_pos (accessGate_open _ hopen), afterWrites, if_pos (by rw [hnone]; rfl), hostRead_open _ _ hopen hbehind]
    rfl

/-- A read of a reserved location answers zero (R101, R260). -/
theorem regRead_of_none (hreg : regNow s w off = none) : regRead r w off s = s.answerRead r 0 := by
  subst howner
  unfold regRead
  dsimp only
  obtain ⟨hpowered, hlink, hboot, hrdy, _, _, hlock, _⟩ := open_parts hopen
  split
  · simp only [letterboxRead, hpowered, hlink, hboot, hrdy, hlock, hbehind]
    rfl
  · rw [hreg]
    exact hostRead_open _ _ hopen hbehind

end

/-- No register stands in the Letterbox pages. -/
theorem letterboxPage_of_regNow {s : State} {w : Window} {off : Nat} {g : Reg} (hreg : regNow s w off = some g) :
    (decide (w = .bar0) && (letterboxPage off).isSome) = false := by
  cases w with
  | bar2 => rfl
  | bar0 =>
    by_contra hpage
    have hrange : 0x8000 ≤ off ∧ off < 0xA000 := by
      simp only [letterboxPage, decide_true, Bool.true_and] at hpage
      grind
    have hnone : regAt .bar0 off = none := by
      simp only [regAt]
      rw [if_neg (by omega), if_pos (by omega)]
      unfold regPages
      split <;> simp_all
    rw [regNow, hnone] at hreg
    cases hreg

/-- Registers whose read does nothing but return their value. -/
theorem readOrZero_denied {s : State} {r : Reader} {w : Window} {off : Nat} {g : Reg}
    (hallowed : regAllowed s r.port w off = false) : readOrZero r w off (some g) s = (s, 0) := by
  simp [readOrZero, hallowed]

theorem readOrZero_allowed {s : State} {r : Reader} {w : Window} {off : Nat} {g : Reg}
    (hallowed : regAllowed s r.port w off = true) :
    readOrZero r w off (some g) s = readReg r.port g (touched r.port w off s) := by
  simp [readOrZero, hallowed, touched]

end Sys2Proof.Machine
end

section
/-!
The management events and register reads.
-/

namespace Sys2Proof.Machine

open Sys2Proof

/-! ### The management events and their vector (CN.8.4) -/

/-- A read of a whole register of BAR0 that its port may access, and that its read alone reaches. -/
theorem wholeRead_of_open {s : State} {p : Port} {off : Nat} {g : Reg}
    (howner : (regOwner p .bar0 off).2 = [idManagement])
    (hopen : readOpen s p [idManagement] [2, 3, 8, 9] = true)
    (hpages : Access.letterboxPages (.read .bar0 off 0 4) ⊆ [2, 3, 8, 9])
    (hreg : regNow s .bar0 off = some g) (hallowed : regAllowed s p .bar0 off = true)
    (hclaim : ∀ tn c, g ≠ .claim tn c) (hfence : g ≠ .ledgerFence) (hfollows : ∀ x, g.follows x = false)
    (htouch : touched p .bar0 off (cleared s) = cleared s) :
    wholeRead p .bar0 off (cleared s) =
      (readReg p g (cleared s)).1.emit (.readWord p (readReg p g (cleared s)).2) := by
  have hclear : readOpen (cleared s) p [idManagement] [2, 3, 8, 9] = true := by rw [readOpen_cleared, hopen]
  have haccess : accessOpen (cleared s) p [idManagement] = true := by
    simp only [readOpen, Bool.and_eq_true] at hclear
    exact hclear.1
  have hread : readOrZero (Reader.whole p) .bar0 off (some g) (cleared s) = readReg p g (cleared s) := by
    rw [readOrZero_allowed (s := cleared s) (w := .bar0) (off := off) (r := Reader.whole p) hallowed]
    exact congrArg (readReg p g) htouch
  have hbehind := read_not_behind (a := .read .bar0 off 0 4) rfl (readOpen_mono hpages hclear)
  exact (regRead_of_some (r := Reader.whole p) howner haccess hbehind (letterboxPage_of_regNow hreg) hreg hclaim hfence
    hfollows).trans (by rw [hread]; rfl)

theorem readWord_reaches {s : State} {p : Port} {ids pages : List Nat} (hopen : readOpen s p ids pages = true)
    (v : Word) : Output.reaches s (.readWord p v) = true := by
  simp only [readOpen, accessOpen, Bool.and_eq_true] at hopen
  exact hopen.1.1.1.1.1.1.1.2

theorem exec_syncRead {s : State} {p : Port} (hopen : readOpen s p [idManagement] [2, 3, 8, 9] = true) :
    exec (.syncRead p) s = .next { s with out := [.readWord p 0] } := by
  refine (answer_eq (wholeRead_of_open (g := .sync) rfl hopen (by decide) rfl rfl (by simp) (by simp)
    (fun _ => rfl) rfl)).trans ?_
  exact congrArg Host.Outcome.next (answered_emit (readWord_reaches hopen _))

theorem exec_mgmtEventRead {s : State} {p : Port} (hopen : readOpen s p [idManagement] [2, 3, 8, 9] = true) :
    exec (.mgmtEventRead p) s = .next (answered s
      (((cleared s).modPort p fun x => { x with mgmtEvent := 0, pba := false }).emit
        (.readWord p (BitVec.ofNat 32 (s.port p).mgmtEvent.toNat)))) := by
  refine (answer_eq (wholeRead_of_open (g := .mgmtEvent) rfl hopen (by decide) rfl rfl (by simp) (by simp)
    (fun _ => rfl) rfl)).trans ?_
  simp only [readReg, regValue, cleared_port]

/-- The passage of time leaves the mask window of a port. -/
theorem elapseTo_mask (s : State) (p : Port) (at' : Nat) :
    maskConfirm ((s.elapseTo at').port p) = maskConfirm (s.port p) := by
  rcases elapseTo_eq at' s with h | h
  · rw [h]
  · rw [h, elapse_frame]
    cases p <;> rfl

theorem exec_maskConfirmRead {s : State} {p : Port} (hopen : readOpen s p [idManagement] [2, 3, 8, 9] = true) :
    ∃ t, exec (.maskConfirmRead p) s = .next t ∧
      t.out = [.readWord p (BitVec.ofNat 32 (maskConfirm (s.port p)))] ∧
      ((s.port p).maskValid = true → (s.port p).maskAt + 250 ≤ t.now) ∧ t.dur = s.dur ∧ t.nv = s.nv ∧
      t.ledger = s.ledger ∧ t.fabric = s.fabric := by
  refine ⟨_, answer_eq (wholeRead_of_open (g := .maskConfirm) rfl hopen (by decide) rfl rfl (by simp) (by simp)
    (fun _ => rfl) rfl), ?_⟩
  have hreach := readWord_reaches hopen (BitVec.ofNat 32 (maskConfirm (s.port p)))
  cases hvalid : (s.port p).maskValid with
  | false => simp [readReg, regValue, hvalid, answered, State.emit, hreach]
  | true => simp [readReg, regValue, hvalid, answered, State.emit, elapseTo_mask, hreach]

theorem exec_mgmtEnableWrite {s : State} {p : Port} {v : Word} (hopen : postedOpen s p [idManagement] = true) :
    exec (.mgmtEnableWrite p v) s = .next (answered s
      ((begun s [idManagement]).modPort p fun x => { x with
        mgmtEnable := BitVec.ofNat 12 v.toNat
        pba := (s.port p).pba ||
          ((s.port p).mgmtEvent &&& BitVec.ofNat 12 v.toNat &&& ~~~(s.port p).mgmtEnable != 0 &&
            !((s.port p).mgmtEvent &&& BitVec.ofNat 12 v.toNat &&& (s.port p).mgmtEnable != 0)) })) := by
  refine answer_eq (regWrite_of_held (g := .mgmtEnable) rfl (List.nodup_singleton _) rfl rfl hopen ?_ ?_)
  · change writeMgmtEnable p v.toNat (begun s [idManagement]) = _
    rw [begun_frame]
    cases p <;> rfl
  · exact heldBanks_same (by simp)

theorem exec_mgmtVectorSend_sent {s : State} {p : Port} (hanswers : configAnswers s p = true)
    (hpba : (s.port p).pba = true) (hmask : (s.port p).msixMasked = false) (hissue : (s.port p).canIssue = true) :
    exec (.mgmtVectorSend p true false) s = .next (answered s (((cleared s).modPort p fun x => { x with
      msixEnable := true, msixFuncMask := false, pba := false }).emit
        (.msix p (s.port p).msixAddr (s.port p).msixData))) := by
  change execMgmtVectorSend p s true false = _
  refine answer_eq ?_
  have hissue' : ((s.port p).linkUp && (s.port p).busMaster && !(s.port p).d3hot) = true := hissue
  dsimp only
  rw [if_neg (by simp [hanswers]), State.modPort_port, cleared_port,
    if_neg (by simp [hpba, hmask, PortState.canIssue, hissue'])]
  cases p <;> rfl

theorem exec_mgmtVectorSend_kept {s : State} {p : Port} {enable mask : Bool} (hanswers : configAnswers s p = true)
    (hoff : enable = false ∨ mask = true) :
    exec (.mgmtVectorSend p enable mask) s = .next (answered s ((cleared s).modPort p fun x => { x with
      msixEnable := enable, msixFuncMask := mask })) := by
  change execMgmtVectorSend p s enable mask = _
  refine answer_eq ?_
  dsimp only
  rw [if_neg (by simp [hanswers]), State.modPort_port, if_pos]
  rcases hoff with rfl | rfl <;> simp

/-- Settles O27: it holds. -/
theorem managementEventsAreReadAndSignalled : Obligations.ManagementEventsAreReadAndSignalled :=
  ⟨fun _ _ hopen => ⟨exec_syncRead hopen, exec_maskConfirmRead hopen, exec_mgmtEventRead hopen⟩,
    fun _ _ => ⟨fun _ hopen => exec_mgmtEnableWrite hopen,
      fun hanswers hpba hmask hissue => exec_mgmtVectorSend_sent hanswers hpba hmask hissue,
      fun _ _ hanswers hoff => exec_mgmtVectorSend_kept hanswers hoff⟩⟩

/-! ### Register reads in whole and in part (CN.3, CN.5) -/

/-- A read inside one word is the read of the word's register with the bytes that it asks for. -/
theorem windowRegRead_part {s : State} {p : Port} {w : Window} {off k n : Nat} (halign : off % 4 = 0) (hn : 0 < n)
    (hlen : k + n ≤ 4) : windowRegRead p w (off + k) n s = regRead ⟨p, k, n⟩ w off s := by
  have hword : wordsOf (off + k) n = [(off, k, n)] := by
    have hbase : (off + k) / 4 = off / 4 := by omega
    have hlast : (off + k + n - 1) / 4 = off / 4 := by omega
    have hoff : 4 * (off / 4) = off := by omega
    simp only [wordsOf, if_neg (show n ≠ 0 by omega), hbase, hlast, Nat.add_sub_cancel_left, List.range_one,
      List.map_cons, List.map_nil, Nat.add_zero, hoff]
    congr 3
    omega
  rw [windowRegRead, hword]
  rfl

/-- A read of two words is the reads of both, in ascending order. -/
theorem windowRegRead_two {s : State} {p : Port} {w : Window} {off : Nat} (halign : off % 4 = 0) :
    windowRegRead p w off 8 s = regRead (Reader.whole p) w (off + 4) (regRead (Reader.whole p) w off s) := by
  have hword : wordsOf off 8 = [(off, 0, 4), (off + 4, 0, 4)] := by
    have hlast : (off + 8 - 1) / 4 + 1 - off / 4 = 2 := by omega
    have hoff : 4 * (off / 4) = off := by omega
    have hnext : 4 * (off / 4 + 1) = off + 4 := by omega
    simp only [wordsOf, if_neg (show 8 ≠ 0 by decide), hlast, List.range_succ, List.range_zero, List.nil_append,
      List.cons_append, List.map_cons, List.map_nil, Nat.add_zero, hoff, hnext]
    congr 4 <;> omega
  rw [windowRegRead, hword]
  rfl

/-- The one object in the Hatch page is the abort log. -/
theorem object_of_hatchPage {s : State} {off : Nat} {o : Obj} {e width : Nat} (hlow : 0x1000 ≤ off)
    (hhigh : off < 0x105C) (hreg : regNow s .bar0 off = some (.object o e width)) : o = .hatchAbortLog := by
  have hat : regConduct off = some (.object o e width) := by
    have hsome := (Option.filter_eq_some_iff.1 hreg).1
    rwa [regAt, if_pos (by omega)] at hsome
  unfold regConduct at hat
  split at hat
  · cases hat
  · split at hat <;> simp_all

theorem objValue_cleared (s : State) (r : Req) (o : Obj) (e : Nat) : objValue (cleared s) r o e = objValue s r o e :=
  rfl

section
variable {p : Port} {w : Window} {off : Nat} {s : State}

theorem exec_rcRead {len : Nat} (hin : ¬ windowSize w < off + len) {t : State}
    (h : windowRegRead p w off len (cleared s) = t) : exec (.rcRead p w off len) s = .next (answered s t) := by
  change execRcRead p w off s len = _
  exact answer_eq ((if_neg hin).trans h)

theorem exec_rcRead_beyond {len : Nat} (hpowered : s.powered = true) (hlink : (s.port p).linkUp = true)
    (hout : windowSize w < off + len) :
    exec (.rcRead p w off len) s = .next { s with out := [.unsupportedRequest p] } := by
  have hread : execRcRead p w off s len = .next (answered s ((cleared s).emit (.unsupportedRequest p))) :=
    answer_eq ((if_pos hout).trans (if_pos (by simp [hpowered, hlink])))
  exact hread.trans (congrArg Host.Outcome.next (answered_emit hlink))

theorem exec_rcRead_two (halign : off % 4 = 0) (hin : off + 8 ≤ windowSize w) :
    exec (.rcRead p w off 8) s = .next (answered s
      (regRead (Reader.whole p) w (off + 4) (regRead (Reader.whole p) w off (cleared s)))) :=
  exec_rcRead (by omega) (windowRegRead_two halign)

variable (hopen : readOpen s p (regOwner p w off).2 (if w = .bar0 then [8, 9, off / 4096] else []) = true)
include hopen

/-- An open read of a register waits behind nothing. -/
theorem rcRead_not_behind (first count : Nat) :
    waitsBehind (cleared s) p (.read w off first count) = false := by
  refine read_not_behind (ids := (regOwner p w off).2) rfl (readOpen_mono ?_ ((readOpen_cleared ..).trans hopen))
  cases w with
  | bar2 => exact List.nil_subset _
  | bar0 =>
    simp only [Access.letterboxPages]
    split <;> simp

theorem accessOpen_of_readOpen : accessOpen (cleared s) p (regOwner p w off).2 = true := by
  rw [accessOpen_cleared]
  simp only [readOpen, Bool.and_eq_true] at hopen
  exact hopen.1

theorem regRead_zero (k n : Nat) (hreg : regNow s w off = none ∨
    ∃ o e width, regNow s w off = some (.object o e width) ∧ regAllowed s p w off = false) :
    regRead ⟨p, k, n⟩ w off (cleared s) = (cleared s).answerRead ⟨p, k, n⟩ 0 := by
  rcases hreg with hreg | ⟨o, e, width, hreg, hdenied⟩
  · exact regRead_of_none rfl (accessOpen_of_readOpen hopen) (rcRead_not_behind hopen k n) hreg
  · have hread := regRead_of_some (r := ⟨p, k, n⟩) rfl (accessOpen_of_readOpen hopen) (rcRead_not_behind hopen k n)
      (letterboxPage_of_regNow hreg) hreg (by simp) (by simp) fun _ => rfl
    rw [hread, readOrZero_denied (s := cleared s) (r := ⟨p, k, n⟩) hdenied]

theorem exec_rcRead_zero (halign : off % 4 = 0) (hin : off < windowSize w) (hreg : regNow s w off = none ∨
    ∃ o e width, regNow s w off = some (.object o e width) ∧ regAllowed s p w off = false) :
    exec (.rcRead p w off 4) s = .next { s with out := [.readWord p 0] } := by
  have hsize : windowSize w % 4 = 0 := by cases w <;> rfl
  refine (exec_rcRead (by omega) ((windowRegRead_part (k := 0) halign (by decide) (by decide)).trans
    (regRead_zero hopen 0 4 hreg))).trans ?_
  exact congrArg Host.Outcome.next (answered_emit (readWord_reaches hopen 0))

omit hopen in
/-- The value of a register that is an object's does not depend on the ownership timer of the Hatch. -/
theorem objValue_touched {o : Obj} {e width : Nat} (hreg : regNow s w off = some (.object o e width)) :
    objValue (touched p w off (cleared s)) p.req o e = objValue s p.req o e := by
  unfold touched
  split
  · subst w
    unfold hatchPageTouch
    split
    next hpage =>
      simp only [Bool.and_eq_true, decide_eq_true_eq] at hpage
      obtain rfl : o = .hatchAbortLog := object_of_hatchPage hpage.1.1 hpage.1.2 hreg
      rfl
    · exact objValue_cleared ..
  · exact objValue_cleared ..

theorem regRead_object {o : Obj} {e width : Nat} (k n : Nat) (hreg : regNow s w off = some (.object o e width))
    (hallowed : regAllowed s p w off = true) :
    regRead ⟨p, k, n⟩ w off (cleared s) = (clearStatus p.req o e (touched p w off (cleared s))).answerRead ⟨p, k, n⟩
      (BitVec.ofNat 32 (leNat (objValue s p.req o e))) := by
  have hread := regRead_of_some (r := ⟨p, k, n⟩) rfl (accessOpen_of_readOpen hopen) (rcRead_not_behind hopen k n)
    (letterboxPage_of_regNow hreg) hreg (by simp) (by simp) fun _ => rfl
  rw [hread, readOrZero_allowed (s := cleared s) (r := ⟨p, k, n⟩) hallowed]
  simp only [readReg, regValue]
  rw [objValue_touched hreg]

end

/-- Settles O28: it holds. -/
theorem registerReads : Obligations.RegisterReads := by
  intro p w off s halign
  refine ⟨fun len hpowered hlink hout => exec_rcRead_beyond hpowered hlink hout, fun hin => exec_rcRead_two halign hin,
    fun hopen hin => ⟨fun hreg => exec_rcRead_zero hopen halign hin (.inl hreg),
      fun o e width hreg hdenied => exec_rcRead_zero hopen halign hin (.inr ⟨o, e, width, hreg, hdenied⟩), ?_⟩⟩
  intro o e width hreg hallowed x v
  have hsize : windowSize w % 4 = 0 := by cases w <;> rfl
  have hx : touched p w off (cleared s) = x := rfl
  constructor
  · refine exec_rcRead (by omega) ((windowRegRead_part (k := 0) halign (by decide) (by decide)).trans
      ((regRead_object hopen 0 4 hreg hallowed).trans ?_))
    rw [hx]
    rfl
  · intro k n hn hlt hlen
    refine exec_rcRead (by omega) ((windowRegRead_part halign hn hlen).trans
      ((regRead_object hopen k n hreg hallowed).trans ?_))
    rw [hx, State.answerRead, if_neg (by simp; omega)]

end Sys2Proof.Machine
end

section
/-!
The Deadbolts and the counters of ignored writes.
-/

namespace Sys2Proof.Machine

open Sys2Proof

/-! ### The Deadbolts and the counters of ignored writes (CN.6, CN.8.3) -/

/-- The low byte of a value's bytes. -/
theorem fieldAt_leBytes_low (n v : Nat) : fieldAt (leBytes (n + 1) v) 0 1 = v % 256 := by
  simp [fieldAt, bytesAt, leBytes, leNat]

theorem exec_deadboltSet {r : Req} {v : Word} {s : State} (hopen : writeOpen s r [idManagement] [] = true)
    (hjudge : judgeWrite s r false .deadboltSet 0 (valueBytes r .deadboltSet 5 v.toNat) = none) :
    exec (.deadboltSet r v) s = .next (answered s { written s r [idManagement] [] with
      keeper := { (written s r [idManagement] []).keeper with
        deadbolts := (written s r [idManagement] []).keeper.deadbolts ||| BitVec.ofNat 5 v.toNat } }) := by
  refine answer_eq (viaRegister_of_held (by decide) rfl (fun _ => rfl) (fun _ _ => rfl) rfl (List.nodup_singleton _) rfl
    (fun _ _ => rfl) hopen hjudge ?_ ?_)
  · have hlegal : Obj.deadboltSet.legal (valueBytes r .deadboltSet 5 v.toNat) =
        leNat (valueBytes r .deadboltSet 5 v.toNat) := rfl
    have hvalue : BitVec.ofNat 5 (leNat (valueBytes r .deadboltSet 5 v.toNat)) = BitVec.ofNat 5 v.toNat := by
      rw [leNat_valueBytes r _ (by decide)]
      refine BitVec.eq_of_toNat_eq ?_
      simp only [BitVec.toNat_ofNat]
      have hlen : (Obj.deadboltSet).desc.len = 1 := rfl
      rw [hlen]
      split <;> omega
    have hclamps : Obj.deadboltSet.clamps (valueBytes r .deadboltSet 5 v.toNat) = false := bne_self_eq_false _
    rw [hclamps, clampedBy_false, ← hvalue, ← hlegal]
    rfl
  · exact heldBanks_same rfl

section
variable {r : Req} {v : Word} {s : State}

/-- The bits of the three counters in a write of IGN_COUNT_CLR. -/
theorem clearBits (r : Req) (v : Nat) : fieldAt (valueBytes r .ignCountClr 3 v) 0 1 % 8 = v % 8 := by
  cases r with
  | sideband =>
    change fieldAt (bytesAt (leBytes 1 v) 0 1) 0 1 % 8 = _
    have hbytes : bytesAt (leBytes 1 v) 0 1 = leBytes 1 v := by simp [bytesAt, length_leBytes]
    rw [hbytes, fieldAt_leBytes_low 0]
    omega
  | linkA | linkB =>
    change fieldAt (leBytes 4 (v % 8)) 0 1 % 8 = _
    rw [fieldAt_leBytes_low 3]
    omega

theorem judgeWrite_ignCountClr (bs : List Byte) :
    judgeWrite s r false .ignCountClr 0 bs = if clearsOther r .ignCountClr bs then some rNotOwner else none := by
  have hright : (rightOf s.nv.sec r .ignCountClr (Obj.ignCountClr).index != 3) = false := by
    cases s.nv.sec <;> rfl
  have hdenied : writeDenied s r .ignCountClr 0 bs = false := by
    simp only [writeDenied, hright, Bool.false_or, Bool.or_eq_false_iff]
    exact ⟨Bool.and_false _, rfl⟩
  simp only [judgeWrite, hdenied]
  rfl

theorem exec_ignCountClr_own (hopen : writeOpen s r [idManagement] [] = true) (hv : v.toNat % 8 = 2 ^ reqCode r) :
    exec (.ignCountClr r v) s = .next (answered s
      ((written s r [idManagement] []).modConduct r fun c => { c with ignCount := 0 })) := by
  have hother : clearsOther r .ignCountClr (valueBytes r .ignCountClr 3 v.toNat) = false := by
    simp only [clearsOther, clearBits, hv]
    cases r <;> rfl
  refine answer_eq (viaRegister_of_held (by decide) rfl (fun _ => rfl) (fun _ _ => rfl) rfl (List.nodup_singleton _) rfl
    (fun _ _ => rfl) hopen (by rw [judgeWrite_ignCountClr, hother]; rfl) ?_ ?_)
  · have hclamps : Obj.ignCountClr.clamps (valueBytes r .ignCountClr 3 v.toNat) = false := bne_self_eq_false _
    have hlegal : Obj.ignCountClr.legal (valueBytes r .ignCountClr 3 v.toNat) =
        leNat (valueBytes r .ignCountClr 3 v.toNat) := rfl
    have hbit : bit (Obj.ignCountClr.legal (valueBytes r .ignCountClr 3 v.toNat)) (reqCode r) = true := by
      rw [hlegal, leNat_valueBytes r _ (by decide)]
      have hlen : (Obj.ignCountClr).desc.len = 1 := rfl
      rw [hlen, bit]
      cases r <;> simp [reqCode] at hv ⊢ <;> omega
    rw [hclamps, clampedBy_false]
    exact if_pos hbit
  · exact heldBanks_same rfl

end

theorem exec_ignCountClr_other {p : Port} {v : Word} {s : State} (hopen : postedOpen s p [idManagement] = true)
    (hsome : v.toNat % 8 ≠ 0) (hother : v.toNat % 8 ≠ 2 ^ reqCode p.req) :
    exec (.ignCountClr p.req v) s = .next (answered s
      ((begun s [idManagement]).ignoredWrite p.req 0 0x201C rNotOwner)) := by
  have hlink : p.req ≠ .sideband := by cases p <;> simp [Port.req]
  have hbytes : leBytes 4 (v.toNat % 2 ^ 3) = valueBytes p.req .ignCountClr 3 v.toNat := (if_neg hlink).symm
  have hclears : clearsOther p.req .ignCountClr (leBytes 4 (v.toNat % 2 ^ 3)) = true := by
    rw [hbytes]
    simp only [clearsOther, clearBits]
    have hlt : v.toNat % 8 < 8 := Nat.mod_lt _ (by decide)
    generalize v.toNat % 8 = x at hsome hother hlt
    cases p <;> interval_cases x <;> simp_all [reqCode, Port.req]
  have hwrite : writeReg p .bar0 0x201C v.toNat (.object .ignCountClr 0 3) (begun s [idManagement]) =
      (begun s [idManagement]).ignoredWrite p.req 0 0x201C rNotOwner :=
    writeObject_of_some _ _ _ _ (by rw [judgeWrite_ignCountClr]; exact if_pos hclears)
  have hreg : regWrite p .bar0 0x201C v.toNat (cleared s) =
      (begun s [idManagement]).ignoredWrite p.req 0 0x201C rNotOwner := by
    refine regWrite_of_held rfl (List.nodup_singleton _) rfl rfl hopen hwrite (heldBanks_same ?_)
    exact congrArg Durab.dirty (ignoredWrite_durab ..)
  cases p <;> exact answer_eq hreg

/-- Settles O29: it holds. -/
theorem deadboltsAndCountersAreTheirs : Obligations.DeadboltsAndCountersAreTheirs :=
  ⟨fun _ _ _ hopen hjudge => exec_deadboltSet hopen hjudge, fun _ _ _ hopen hv => exec_ignCountClr_own hopen hv,
    fun _ _ _ hopen hsome hother => exec_ignCountClr_other hopen hsome hother⟩

end Sys2Proof.Machine
end

section
/-!
The ownership of the Hatch.
-/

namespace Sys2Proof.Machine

open Sys2Proof

/-! ### The ownership of the Hatch (CN.7.1) -/

/-- The state in which a write of a Hatch register has its effect: an owner's write restarts the timer. -/
def hatchBegun (p : Port) (s : State) : State :=
  if s.hatch.owner = some p.req then
    { begun s [idManagement] with hatch := { s.hatch with timerFrom := s.now } }
  else begun s [idManagement]

theorem touched_hatch {p : Port} {off : Nat} (s : State) (hlow : 0x1000 ≤ off) (hhigh : off < 0x105C) :
    touched p .bar0 off (begun s [idManagement]) = hatchBegun p s := by
  rw [touched, if_pos rfl, hatchPageTouch, begun_frame]
  simp only [hatchBegun, decide_eq_true hlow, decide_eq_true hhigh, Bool.true_and, beq_iff_eq]
  rfl

theorem hatchBegun_durab (p : Port) (s : State) : (hatchBegun p s).durab = s.durab := by
  unfold hatchBegun
  split
  · exact begun_durab ..
  · exact begun_durab ..

theorem hatchBegun_owner (p : Port) (s : State) : (hatchBegun p s).hatch.owner = s.hatch.owner := by
  unfold hatchBegun
  split
  · rfl
  · rw [begun_hatch]

theorem hatchBegun_of_owner {p : Port} {s : State} (h : s.hatch.owner = some p.req) :
    hatchBegun p s = { begun s [idManagement] with hatch := { s.hatch with timerFrom := s.now } } := if_pos h

section
variable {p : Port} {tag : BitVec 16} {s : State}

/-- A write of a register of the Hatch takes effect at once, where no bank holds it. -/
theorem regWrite_hatch {off v : Nat} {g : Reg} {t : State} (hlow : 0x1000 ≤ off) (hhigh : off < 0x105C)
    (howner : (regOwner p .bar0 off).2 ++ bankOfMask .bar0 off v = [idManagement])
    (hreg : regNow s .bar0 off = some g) (hopen : postedOpen s p [idManagement] = true)
    (heffect : writeReg p .bar0 off v g (hatchBegun p s) = t)
    (hheld : heldBanks (begun s [idManagement]) t = []) : regWrite p .bar0 off v (cleared s) = t := by
  have hallowed : regAllowed s p .bar0 off = true := by
    rw [regAllowed, regRoom, if_neg]
    simp only [Bool.and_eq_true, decide_eq_true_eq]
    omega
  refine regWrite_of_held howner (List.nodup_singleton _) hreg hallowed hopen ?_ hheld
  rw [touched_hatch s hlow hhigh]
  exact heffect

/-- A write of HATCH_OWNER is judged at once, where it changes no line. -/
theorem regWrite_hatchOwner {v : Nat} {t : State} (hopen : postedOpen s p [idManagement] = true)
    (heffect : writeHatchOwner p.req v (hatchBegun p s) = t) (hdirty : t.durab = s.durab) :
    regWrite p .bar0 0x1040 v (cleared s) = t :=
  regWrite_hatch (g := .hatchOwner) (by decide) (by decide) rfl rfl hopen heffect
    (heldBanks_same (by rw [hdirty, begun_durab]))

theorem bit_tag (tag : BitVec 16) : bit tag.toNat 31 = false := by
  have htag := tag.isLt
  rw [bit, Nat.div_eq_of_lt (by omega)]
  rfl

theorem bit_releaseTag (tag : BitVec 16) : bit (tag.toNat + 2 ^ 31) 31 = true := by
  have htag := tag.isLt
  rw [bit, Nat.add_div_right _ (by decide), Nat.div_eq_of_lt (by omega)]
  rfl

theorem ofNat_releaseTag (tag : BitVec 16) : BitVec.ofNat 16 (tag.toNat + 2 ^ 31) = tag := by
  refine BitVec.eq_of_toNat_eq ?_
  rw [BitVec.toNat_ofNat]
  have htag := tag.isLt
  omega

/-- A write of HATCH_OWNER that is not a release. -/
theorem writeHatchOwner_tag (r : Req) (x : State) : writeHatchOwner r tag.toNat x =
    if tag = 0 then x.ignoredWrite r 0 0x1040 rName
    else if x.hatch.owner.isNone then hatchClaim r tag x
    else if x.hatch.owner == some r && x.hatch.tag == tag then hatchTouch x
    else x := by
  simp only [writeHatchOwner, bit_tag, Bool.false_eq_true, if_false, BitVec.ofNat_toNat, BitVec.setWidth_eq]

/-- A write of HATCH_OWNER that is a release. -/
theorem writeHatchOwner_release (r : Req) (x : State) : writeHatchOwner r (tag.toNat + 2 ^ 31) x =
    if x.hatch.owner == some r && x.hatch.tag == tag then
      if x.hatch.busy then x.modHatch fun h => { h with releasing := true } else releaseHatch x
    else x.ignoredWrite r 0 0x1040 rNotOwner := by
  simp only [writeHatchOwner, bit_releaseTag, if_true, ofNat_releaseTag]

variable (hopen : postedOpen s p [idManagement] = true)
include hopen

theorem exec_hatchClaim_free (hfree : s.hatch.owner = none) (htag : tag ≠ 0) :
    exec (.hatchClaim p tag) s = .next (answered s { hatchBegun p s with
      hatch := { s.hatch with timerFrom := s.now, owner := some p.req, tag := tag } }) := by
  have hbegun : hatchBegun p s = begun s [idManagement] := if_neg (by simp [hfree])
  refine answer_eq (regWrite_hatchOwner hopen ?_ (hatchBegun_durab ..))
  rw [writeHatchOwner_tag, if_neg htag, hatchBegun_owner, hfree, if_pos Option.isNone_none, hbegun, begun_frame]
  rfl

theorem exec_hatchClaim_owned (howned : s.hatch.owner.isSome = true)
    (hother : ¬ (s.hatch.owner = some p.req ∧ s.hatch.tag = tag)) (htag : tag ≠ 0) :
    exec (.hatchClaim p tag) s = .next (answered s (hatchBegun p s)) := by
  refine answer_eq (regWrite_hatchOwner hopen ?_ (hatchBegun_durab ..))
  have htags : (hatchBegun p s).hatch.tag = s.hatch.tag := by
    unfold hatchBegun
    split
    · rfl
    · rw [begun_hatch]
  rw [writeHatchOwner_tag, if_neg htag, hatchBegun_owner, htags, if_neg, if_neg]
  · simpa using hother
  · simpa [Option.isSome_iff_ne_none] using howned

theorem exec_hatchClaim_noTag :
    exec (.hatchClaim p 0) s = .next (answered s ((hatchBegun p s).ignoredWrite p.req 0 0x1040 rName)) := by
  refine answer_eq (regWrite_hatchOwner hopen ?_ ?_)
  · exact (writeHatchOwner_tag ..).trans (if_pos rfl)
  · rw [ignoredWrite_durab, hatchBegun_durab]

theorem exec_hatchRefresh (howner : s.hatch.owner = some p.req) (hmine : s.hatch.tag = tag) (htag : tag ≠ 0) :
    exec (.hatchRefresh p tag) s = .next (answered s { hatchBegun p s with
      hatch := { s.hatch with timerFrom := s.now } }) := by
  refine answer_eq (regWrite_hatchOwner hopen ?_ (hatchBegun_durab ..))
  rw [writeHatchOwner_tag, if_neg htag, hatchBegun_of_owner howner, if_neg (by simp [howner]),
    if_pos (by simp [howner, hmine]), begun_frame]
  rfl

theorem exec_hatchRelease_idle (howner : s.hatch.owner = some p.req) (hmine : s.hatch.tag = tag)
    (hbusy : s.hatch.busy = false) :
    exec (.hatchRelease p tag) s = .next (answered s { hatchBegun p s with
      hatch := { Hatch.initial with timeout := s.hatch.timeout } }) := by
  refine answer_eq (regWrite_hatchOwner hopen ?_ (hatchBegun_durab ..))
  rw [writeHatchOwner_release, hatchBegun_of_owner howner, if_pos (by simp [howner, hmine]), if_neg (by simp [hbusy])]
  rfl

theorem exec_hatchRelease_busy (howner : s.hatch.owner = some p.req) (hmine : s.hatch.tag = tag)
    (hbusy : s.hatch.busy = true) :
    exec (.hatchRelease p tag) s = .next (answered s { hatchBegun p s with
      hatch := { s.hatch with timerFrom := s.now, releasing := true } }) := by
  refine answer_eq (regWrite_hatchOwner hopen ?_ (hatchBegun_durab ..))
  rw [writeHatchOwner_release, hatchBegun_of_owner howner, if_pos (by simp [howner, hmine]), if_pos (by simp [hbusy])]
  rfl

theorem exec_hatchRelease_other (hother : ¬ (s.hatch.owner = some p.req ∧ s.hatch.tag = tag)) :
    exec (.hatchRelease p tag) s = .next (answered s ((hatchBegun p s).ignoredWrite p.req 0 0x1040 rNotOwner)) := by
  have htags : (hatchBegun p s).hatch.tag = s.hatch.tag := by
    unfold hatchBegun
    split
    · rfl
    · rw [begun_hatch]
  refine answer_eq (regWrite_hatchOwner hopen ?_ ?_)
  · rw [writeHatchOwner_release, hatchBegun_owner, htags, if_neg (by simpa using hother)]
  · rw [ignoredWrite_durab, hatchBegun_durab]

end

/-- Settles O31: it holds. -/
theorem hatchOwnership : Obligations.HatchOwnership := by
  intro p tag s hopen _ _ _
  refine ⟨exec_hatchClaim_free hopen, exec_hatchClaim_owned hopen, ?_, ?_, ?_, ?_, exec_hatchRelease_other hopen⟩
  · rintro rfl
    exact exec_hatchClaim_noTag hopen
  · rintro ⟨howner, hmine⟩ htag
    exact exec_hatchRefresh hopen howner hmine htag
  · rintro ⟨howner, hmine⟩ hbusy
    exact exec_hatchRelease_idle hopen howner hmine hbusy
  · rintro ⟨howner, hmine⟩ hbusy
    exact exec_hatchRelease_busy hopen howner hmine hbusy

end Sys2Proof.Machine
end

section
/-!
The islands of the objects that the dictionary lists.
-/

namespace Sys2Proof.Machine

open Sys2Proof

/-! ### The islands of an object that the dictionary lists -/

/-- An object's number of a queue, a lane or a Ledger island is one that there is. -/
def Obj.numbered : Obj → Prop
  | .queueControl q | .queueConfig q | .queuePoll q | .queueRingBase q | .queueIndices q
  | .queueCounter q _ | .queueEvent q => q < 256
  | .laneControl n | .laneStatus n | .laneCounter n _ | .laneLines n | .lineConfig n _ => n < 56
  | .ledgerWear i _ => i < 4
  | _ => True

section
variable {index sub : Nat} {o : Obj}

theorem numbered_of_objLow (h : objLow index sub = some o) : o.numbered := by
  unfold objLow at h
  split at h <;> simp_all [Obj.numbered]
  all_goals
    obtain ⟨_, rfl⟩ := h
    trivial

theorem numbered_of_objSourceTarget (h : objSourceTarget index sub = some o) : o.numbered := by
  unfold objSourceTarget at h
  split at h <;> simp_all [Obj.numbered]
  all_goals
    obtain ⟨_, rfl⟩ := h
    trivial

theorem numbered_of_objQueue (hindex : index - 0x3000 < 256) (h : objQueue index sub = some o) : o.numbered := by
  unfold objQueue at h
  dsimp only at h
  split at h
  case h_11 => cases h
  all_goals
    cases h
    exact hindex

theorem numbered_of_objXlate (h : objXlate index sub = some o) : o.numbered := by
  unfold objXlate at h
  dsimp only at h
  split at h
  · split at h <;> cases h <;> trivial
  · split at h <;> cases h <;> trivial

theorem numbered_of_objWired (h : objWired index sub = some o) : o.numbered := by
  unfold objWired at h
  dsimp only at h
  split at h
  · split_ifs at h with hmany
    all_goals
      cases h
      exact Nat.lt_of_not_le hmany
  · split at h <;> cases h <;> trivial

theorem numbered_of_objLedger (h : objLedger index sub = some o) : o.numbered := by
  unfold objLedger at h
  split at h
  case h_8 =>
    split at h
    next hrange =>
      simp only [Bool.and_eq_true, decide_eq_true_eq] at hrange
      cases h
      exact Nat.sub_lt_left_of_lt_add hrange.1.1 hrange.1.2
    · cases h
  case h_1 | h_6 | h_7 =>
    split at h <;> cases h
    trivial
  all_goals
    cases h
    trivial

theorem numbered_of_objDurable (h : objDurable index sub = some o) : o.numbered := by
  unfold objDurable at h
  split at h
  case h_26 =>
    split at h
    · split at h <;> cases h <;> trivial
    · cases h
  all_goals
    cases h
    trivial

theorem numbered_of_objSecurity (h : objSecurity index sub = some o) : o.numbered := by
  unfold objSecurity at h
  split at h <;> cases h <;> trivial

theorem numbered_of_objAt (h : objAt index sub = some o) : o.numbered := by
  unfold objAt at h
  split_ifs at h
  · exact numbered_of_objLow h
  · exact numbered_of_objSourceTarget h
  · exact numbered_of_objQueue (by omega) h
  · exact numbered_of_objXlate h
  · exact numbered_of_objWired h
  · exact numbered_of_objLedger h
  · exact numbered_of_objDurable h
  · exact numbered_of_objSecurity h

theorem gatherOf_lt (sn : Nat) : gatherOf sn < 64 := by
  unfold gatherOf
  split_ifs with hpin hline
  · simp only [Bool.and_eq_true, decide_eq_true_eq] at hpin
    omega
  · simp only [Bool.and_eq_true, decide_eq_true_eq] at hline
    omega
  · have hbits : ∀ hi lo, hi < lo + 6 → bits sn hi lo < 2 ^ 6 := fun hi lo hlen =>
      Nat.lt_of_lt_of_le (Nat.mod_lt _ (Nat.two_pow_pos _)) (Nat.pow_le_pow_right (by decide) (by omega))
    exact Nat.xor_lt_two_pow (n := 6) (Nat.xor_lt_two_pow (Nat.xor_lt_two_pow (hbits _ _ (by decide))
      (hbits _ _ (by decide))) (hbits _ _ (by decide))) (hbits _ _ (by decide))

/-- No object that the dictionary lists stands at the Management island. -/
theorem ne_idManagement_of_objIslands {e i : Nat} (h : objAt index sub = some o) (hi : i ∈ objIslands o e) :
    i ≠ idManagement := by
  have hnumbered := numbered_of_objAt h
  unfold objIslands at hi
  split at hi
  case h_19 =>
    split at hi
    · cases hi
    · split at hi
      · rw [List.mem_singleton.1 hi]
        exact (idManagement_ne_idBank _).symm
      · cases hi
    · split at hi
      · rw [List.mem_singleton.1 hi]
        simp only [idDelivery, idManagement]
        omega
      · cases hi
  case h_12 p =>
    rw [List.mem_singleton.1 hi]
    have hlt := gatherOf_lt (0x100000 + p)
    simp only [idGather, idManagement]
    omega
  all_goals
    simp only [Obj.numbered] at hnumbered
    rw [List.mem_singleton.1 hi]
    simp only [idQueue, idXlate, idGather, idLedger, idManagement]
    omega

end

end Sys2Proof.Machine
end

section
/-!
The commands of the Hatch.
-/

namespace Sys2Proof.Machine

open Sys2Proof

/-! ### The commands of the Hatch (CN.7.2) -/

/-- The state in which a Hatch command that its owner wrote is carried out. -/
def commandGiven (op : Nat) (s : State) : State :=
  { begun s [idManagement] with hatch := { s.hatch with
    timerFrom := s.now, busy := true, opcode := op, result := none, applied := false } }

/-- What a command answers, kept for the owner while there is one. -/
def hatchDone (t : State) (res : HatchResult) : State :=
  if t.hatch.owner = none then t else { t with hatch := { t.hatch with result := some res } }

/-- The result of a read of an object. -/
def readResult (s : State) (r : Req) (o : Obj) (e : Nat) : HatchResult :=
  { code := 0, data := objValue s r o e, length := o.desc.len, applied := true, notBefore := 0, readBack := none }

/-- The result of a write of an object that nothing stopped, with the state that it left. -/
def writeResult (o : Obj) (bs : List Byte) (t : State) : HatchResult :=
  { code := if o.clamps bs then 1 else 0, data := [], length := o.desc.len, applied := true,
    notBefore := if o = .sourceMask then t.now + 250 else 0, readBack := none }

/-- A read of the die's temperature draws its value. -/
def drawnFor (o : Obj) (t : State) : State := if o = .dieTemperature then t.draw else t

/-- A command takes effect at once where the islands of its object can take it and every bank has room. -/
theorem hatchPerform_ready {x : State} {r : Req} {o : Obj} (howner : x.hatch.owner = some r)
    (hrdy : x.keeper.rdy = true) (hbusy : x.hatch.busy = true) (hresult : x.hatch.result = none)
    (hobj : objAt (hatchIndex x.hatch) (hatchSub x.hatch) = some o)
    (hids : ((objIslands o x.hatch.element.toNat).all fun i => x.clocked i && (x.island i).level == .awake) = true)
    (hckpt : x.durab.ckpt = none) (hroom : roomToDirty x) :
    hatchPerform x =
      hatchRun r (if x.hatch.opcode = 2 then busyAll x (objIslands o x.hatch.element.toNat) else x) := by
  simp only [List.all_eq_true, Bool.and_eq_true, beq_iff_eq] at hids
  have hready : hatchNotReady x = false := by simp [hatchNotReady, hobj, notReady, hrdy]
  have hislands : hatchIslands x.hatch = objIslands o x.hatch.element.toNat := by simp [hatchIslands, hobj]
  have hclocked : ((objIslands o x.hatch.element.toNat).any fun i => !x.clocked i) = false := by
    simp only [List.any_eq_false]
    intro i hi
    simp [(hids i hi).1]
  have hawake := fun i hi => (hids i hi).2
  unfold hatchPerform
  rw [howner]
  dsimp only
  simp only [hready, hislands, hclocked, hbusy, hresult, Bool.not_true, Option.isSome_none, Bool.or_false,
    Bool.false_eq_true, if_false, wakeForWrite_of_awake _ (objIslands_nodup ..) _ hawake,
    wakeForRead_of_awake _ _ hawake]
  split
  · rw [crossing_none _ _ (by rw [busyAll_durab, hckpt]), guarded_room _ (room_busyAll _ hroom)]
  · rw [crossing_none _ _ hckpt, guarded_room _ hroom]

section
variable {x : State} {r : Req} {o : Obj}
  (hobj : objAt (hatchIndex x.hatch) (hatchSub x.hatch) = some o) (hrdy : x.keeper.rdy = true)
include hobj hrdy

/-- A READ, or a READ_CLEAR, of an object that the requester may read. -/
theorem dictRead_ready (clear : Bool) (hread : mayRead x r o x.hatch.element.toNat = true) :
    dictRead r clear (hatchIndex x.hatch) (hatchSub x.hatch) x.hatch.element.toNat x =
      (if clear then clearStatus r o x.hatch.element.toNat (drawnFor o x) else drawnFor o x,
        readResult x r o x.hatch.element.toNat) := by
  simp only [dictRead, hobj]
  rw [if_neg (by simp [notReady, hrdy]), if_neg (by simp [hread])]
  rfl

theorem hatchRun_read (hop : x.hatch.opcode = 1) (hread : mayRead x r o x.hatch.element.toNat = true) :
    hatchRun r x = hatchDone (drawnFor o x) (readResult x r o x.hatch.element.toNat) := by
  have hout : hatchOutcome r x = (drawnFor o x, readResult x r o x.hatch.element.toNat) :=
    (if_pos hop).trans (dictRead_ready hobj hrdy false hread)
  rw [hatchRun_eq, hout]
  rfl

theorem hatchRun_readClear (hop : x.hatch.opcode = 3) (hread : mayRead x r o x.hatch.element.toNat = true) :
    hatchRun r x = hatchDone (clearStatus r o x.hatch.element.toNat (drawnFor o x))
      (readResult x r o x.hatch.element.toNat) := by
  have hout : hatchOutcome r x = (clearStatus r o x.hatch.element.toNat (drawnFor o x),
      readResult x r o x.hatch.element.toNat) := by
    refine ((if_neg (by rw [hop]; decide)).trans ((if_neg (by rw [hop]; decide)).trans
      ((if_pos hop).trans (dictRead_ready hobj hrdy true hread)))) 
  rw [hatchRun_eq, hout]
  rfl

/-- A write of an object that nothing stops: what it leaves, and its outcome. -/
theorem dictWrite_of_none (bs : List Byte)
    (hjudge : judgeWrite x r false o x.hatch.element.toNat (bytesAt bs 0 o.desc.len) = none) :
    let t := (applyAny r o x.hatch.element.toNat (bytesAt bs 0 o.desc.len) x).clampedBy r
      (o.clamps (bytesAt bs 0 o.desc.len))
    dictWrite r (hatchIndex x.hatch) (hatchSub x.hatch) x.hatch.element.toNat bs x =
      (t, writeResult o (bytesAt bs 0 o.desc.len) t) := by
  intro t
  simp only [dictWrite, hobj]
  rw [if_neg (by simp [notReady, hrdy]), if_neg (by simp [hrdy])]
  have hwrite : ∀ addr, writeObject r 2 addr false (applyAny r o x.hatch.element.toNat (bytesAt bs 0 o.desc.len)) o
      x.hatch.element.toNat (bytesAt bs 0 o.desc.len) x =
        (t, if o.clamps (bytesAt bs 0 o.desc.len) then 1 else 0) := by
    intro addr
    simp only [writeObject, hjudge]
    rfl
  rw [hwrite]
  dsimp only
  cases hclamps : o.clamps (bytesAt bs 0 o.desc.len) with
  | false => simp [HatchResult.plain, writeResult, hclamps]
  | true => simp [HatchResult.plain, writeResult, hclamps]

theorem hatchRun_write (hop : x.hatch.opcode = 2) (hlink : r ≠ .sideband)
    (hjudge : judgeWrite x r false o x.hatch.element.toNat (bytesAt (hatchBytes x.hatch) 0 o.desc.len) = none) :
    let bs := bytesAt (hatchBytes x.hatch) 0 o.desc.len
    let t := (applyAny r o x.hatch.element.toNat bs x).clampedBy r (o.clamps bs)
    hatchRun r x = hatchDone t (writeResult o bs t) := by
  intro bs t
  have hout : hatchOutcome r x = (t, writeResult o bs t) := by
    unfold hatchOutcome
    dsimp only
    rw [if_neg (by rw [hop]; decide), if_pos hop, dictWrite_of_none hobj hrdy (hatchBytes x.hatch) hjudge]
    exact if_neg hlink
  rw [hatchRun_eq, hout]
  rfl

end

/-! ### A command that the owner writes -/

section
variable (op : Nat) (s : State)

@[simp] theorem commandGiven_keeper : (commandGiven op s).keeper = s.keeper := begun_keeper ..
@[simp] theorem commandGiven_durab : (commandGiven op s).durab = s.durab := begun_durab ..
@[simp] theorem commandGiven_now : (commandGiven op s).now = s.now := begun_now ..

theorem commandGiven_clocked (i : Nat) : (commandGiven op s).clocked i = s.clocked i := by
  change (begun s [idManagement]).clocked i = _
  rw [begun_frame]
  rfl

theorem commandGiven_room (hroom : roomToDirty s) : roomToDirty (commandGiven op s) := fun l =>
  room_begun [idManagement] hroom l

theorem judgeWrite_commandGiven (r : Req) (o : Obj) (e : Nat) (bs : List Byte) :
    judgeWrite (commandGiven op s) r false o e bs = judgeWrite s r false o e bs :=
  judgeWrite_begun s [idManagement] ..

theorem mayRead_commandGiven (r : Req) (o : Obj) (e : Nat) :
    mayRead (commandGiven op s) r o e = mayRead s r o e := by
  rw [commandGiven, begun_frame]
  rfl

end

/-- A WRITE carried out at islands that its object needs. -/
theorem hatchRun_write_given {s y : State} {r : Req} {o : Obj} {power : Power}
    (hobj : objAt (hatchIndex s.hatch) (hatchSub s.hatch) = some o) (hrdy : s.keeper.rdy = true)
    (hlink : r ≠ .sideband) (hjudge : judgeWrite s r false o s.hatch.element.toNat
      (bytesAt (hatchBytes s.hatch) 0 o.desc.len) = none) (hy : y = { commandGiven 2 s with power := power }) :
    let bs := bytesAt (hatchBytes s.hatch) 0 o.desc.len
    let t := (applyAny r o s.hatch.element.toNat bs y).clampedBy r (o.clamps bs)
    hatchRun r y = hatchDone t (writeResult o bs t) := by
  have hhatch : y.hatch = (commandGiven 2 s).hatch := by rw [hy]
  have hwrite := hatchRun_write (x := y) (r := r) (o := o) (by rw [hhatch]; exact hobj)
    (by rw [hy]; exact (congrArg Keeper.rdy (commandGiven_keeper 2 s)).trans hrdy) (by rw [hhatch]; rfl) hlink (by
      rw [hhatch, hy]
      exact (judgeWrite_power ..).trans ((judgeWrite_commandGiven ..).trans hjudge))
  rw [hhatch] at hwrite
  exact hwrite

/-- A source's mask is set at the time of its command. -/
theorem applyAny_sourceMask_now (r : Req) (e : Nat) (bs : List Byte) (y : State) :
    (applyAny r .sourceMask e bs y).now = y.now := by
  change (setMask e _ y).now = y.now
  rw [setMask, applyRoute_bankStep y]

theorem accessOpen_of_postedOpen {s : State} {p : Port} {ids : List Nat} (hopen : postedOpen s p ids = true) :
    accessOpen s p ids = true := by
  simp only [postedOpen, Bool.and_eq_true] at hopen
  exact hopen.1.1

section
variable {p : Port} {o : Obj} {s : State} (hopen : postedOpen s p [idManagement] = true)
  (howner : s.hatch.owner = some p.req) (hbusy : s.hatch.busy = false) (hvalid : s.hatch.valid = false)
  (hobj : objAt (hatchIndex s.hatch) (hatchSub s.hatch) = some o)
  (hids : ((objIslands o s.hatch.element.toNat).all fun i => s.clocked i && (s.island i).level == .awake) = true)
  (hroom : roomToDirty s)
include hopen howner hbusy hvalid hobj hids hroom

/-- A command that the owner writes to a ready controller is carried out at once. -/
theorem regWrite_hatchCmd {op : Nat} (hop : op < 256) : regWrite p .bar0 0x104C op (cleared s) = hatchRun p.req
    (if op = 2 then busyAll (commandGiven op s) (objIslands o s.hatch.element.toNat) else commandGiven op s) := by
  have hgiven : writeHatchCmd p.req op (hatchBegun p s) = hatchPerform (commandGiven op s) := by
    rw [hatchBegun_of_owner howner]
    rw [writeHatchCmd, ownerWrite, if_pos (by simp [howner])]
    refine (if_neg (by simp [hatchTouch, State.modHatch, hbusy, hvalid])).trans ?_
    simp only [hatchCommand, hatchTouch, State.modHatch, Nat.mod_eq_of_lt (show op < 2 ^ 8 from hop)]
    rw [commandGiven, begun_now]
  obtain ⟨_, _, _, hrdy, hckpt, _⟩ := open_parts (accessOpen_of_postedOpen hopen)
  have hperform : hatchPerform (commandGiven op s) = hatchRun p.req
      (if op = 2 then busyAll (commandGiven op s) (objIslands o s.hatch.element.toNat) else commandGiven op s) := by
    refine hatchPerform_ready (x := commandGiven op s) howner (by simp [hrdy]) rfl rfl hobj ?_ (by simp [hckpt])
      (commandGiven_room op s hroom)
    simp only [List.all_eq_true, Bool.and_eq_true, beq_iff_eq] at hids ⊢
    intro i hi
    refine ⟨by rw [commandGiven_clocked, (hids i hi).1], ?_⟩
    change (((cleared s).busy idManagement).island i).level = .awake
    rw [busy_island (ne_idManagement_of_objIslands hobj hi)]
    exact (hids i hi).2
  exact regWrite_hatch (g := .hatchCmd) (by decide) (by decide) rfl rfl hopen (hgiven.trans hperform)
    (heldBanks_room _ (room_begun _ hroom))

theorem exec_hatchRead (hread : mayRead s p.req o s.hatch.element.toNat = true) :
    exec (.hatchRead p) s = .next (answered s (hatchDone (drawnFor o (commandGiven 1 s))
      (readResult (commandGiven 1 s) p.req o s.hatch.element.toNat))) := by
  obtain ⟨_, _, _, hrdy, _⟩ := open_parts (accessOpen_of_postedOpen hopen)
  refine answer_eq ((regWrite_hatchCmd hopen howner hbusy hvalid hobj hids hroom (by decide)).trans ?_)
  rw [if_neg (by decide)]
  exact hatchRun_read (x := commandGiven 1 s) hobj (by simp [hrdy]) rfl ((mayRead_commandGiven ..).trans hread)

theorem exec_hatchReadClear (hread : mayRead s p.req o s.hatch.element.toNat = true) :
    exec (.hatchReadClear p) s = .next (answered s (hatchDone
      (clearStatus p.req o s.hatch.element.toNat (drawnFor o (commandGiven 3 s)))
      (readResult (commandGiven 3 s) p.req o s.hatch.element.toNat))) := by
  obtain ⟨_, _, _, hrdy, _⟩ := open_parts (accessOpen_of_postedOpen hopen)
  refine answer_eq ((regWrite_hatchCmd hopen howner hbusy hvalid hobj hids hroom (by decide)).trans ?_)
  rw [if_neg (by decide)]
  exact hatchRun_readClear (x := commandGiven 3 s) hobj (by simp [hrdy]) rfl ((mayRead_commandGiven ..).trans hread)

/-- What a WRITE that nothing stops leaves. -/
theorem exec_hatchWrite (hjudge : judgeWrite s p.req false o s.hatch.element.toNat
      (bytesAt (hatchBytes s.hatch) 0 o.desc.len) = none) :
    let bs := bytesAt (hatchBytes s.hatch) 0 o.desc.len
    let t := (applyAny p.req o s.hatch.element.toNat bs
      (busyAll (commandGiven 2 s) (objIslands o s.hatch.element.toNat))).clampedBy p.req (o.clamps bs)
    exec (.hatchWrite p) s = .next (answered s (hatchDone t (writeResult o bs t))) := by
  intro bs t
  obtain ⟨_, _, _, hrdy, _⟩ := open_parts (accessOpen_of_postedOpen hopen)
  have hlink : p.req ≠ .sideband := by cases p <;> simp [Port.req]
  refine answer_eq ((regWrite_hatchCmd hopen howner hbusy hvalid hobj hids hroom (by decide)).trans ?_)
  rw [if_pos rfl]
  exact hatchRun_write_given hobj hrdy hlink hjudge (busyAll_frame ..)

end

end Sys2Proof.Machine
end

section
/-!
The Hatch's results, its timeout, and what the sideband's answers leave.
-/

namespace Sys2Proof.Machine

open Sys2Proof

/-! ### What the sideband's requests and responses leave -/

/-- What the sideband's answers change: the sideband itself, what is put out, the sideband's record of ignored writes and
the drawn values; and the ownership timer of a Hatch that the sideband holds. -/
structure SidebandStep (s t : State) : Prop where
  frame : t = { s with sideband := t.sideband, out := t.out, free := t.free, conduct := t.conduct, hatch := t.hatch }
  hatch : sbOwns s = false → t.hatch = s.hatch
  abortLog : ∀ r, (t.conduct.get r).abortLog = (s.conduct.get r).abortLog

namespace SidebandStep

variable {s t u : State}

theorem refl (s : State) : SidebandStep s s := ⟨rfl, fun _ => rfl, fun _ => rfl⟩

theorem trans (hst : SidebandStep s t) (htu : SidebandStep t u) : SidebandStep s u := by
  obtain ⟨hframe, hhatch, hlog⟩ := hst
  obtain ⟨hframe', hhatch', hlog'⟩ := htu
  refine ⟨by rw [hframe', hframe], fun hfree => ?_, fun r => (hlog' r).trans (hlog r)⟩
  have htwo := hhatch hfree
  exact (hhatch' (by rw [sbOwns, htwo]; exact hfree)).trans htwo

theorem foldl {α : Type} {f : State → α → State} (hf : ∀ s a, SidebandStep s (f s a)) (l : List α) (s : State) :
    SidebandStep s (l.foldl f s) :=
  foldl_rel .refl .trans hf l s

theorem emit (s : State) (o : Output) : SidebandStep s (s.emit o) := ⟨rfl, fun _ => rfl, fun _ => rfl⟩
theorem draw (s : State) : SidebandStep s s.draw := ⟨rfl, fun _ => rfl, fun _ => rfl⟩
theorem modSb (s : State) (f : Sideband → Sideband) : SidebandStep s (s.modSb f) := ⟨rfl, fun _ => rfl, fun _ => rfl⟩
theorem sendPacket (p : Response) (s : State) (k : MctpPacket) : SidebandStep s (sendPacket p s k) := emit ..

theorem interrupt (s : State) : SidebandStep s (interrupt s) := by
  unfold Machine.interrupt
  split
  · exact emit ..
  · exact refl _

theorem announce (s : State) : SidebandStep s (announce s) := by
  unfold Machine.announce
  split
  · exact refl _
  · split
    · exact interrupt _
    · exact (foldl (fun s k => sendPacket _ s k) _ _).trans (modSb ..)

theorem respond (p : Response) (s : State) : SidebandStep s (respond p s) := by
  unfold Machine.respond
  dsimp only
  split
  · exact (modSb ..).trans (announce _)
  · exact modSb ..

theorem mirAnswer (q : MirReq) (status : Nat) (body : List Byte) (s : State) :
    SidebandStep s (mirAnswer q status body s) := (modSb ..).trans (respond ..)

theorem ignoredWrite (s : State) (space addr reason : Nat) :
    SidebandStep s (s.ignoredWrite .sideband space addr reason) :=
  ⟨rfl, fun _ => rfl, fun r => by cases r <;> rfl⟩

theorem countUnknown (s : State) : SidebandStep s (countUnknown s) :=
  ((ignoredWrite ..).trans (draw _)).trans (draw _)

theorem hatchTouch (h : sbOwns s = true) : SidebandStep s (hatchTouch s) :=
  ⟨rfl, fun hfree => absurd (h.symm.trans hfree) (by decide), fun _ => rfl⟩

/-- The timer of a Hatch that the sideband holds restarts. -/
theorem touchIfOwned (s : State) : SidebandStep s (if sbOwns s then Machine.hatchTouch s else s) := by
  split
  next h => exact hatchTouch h
  · exact refl _

/-- A request that cannot be carried out is answered at once (R187, R188). -/
theorem mirJudged (q : MirReq) (s : State) : SidebandStep s (match mirBad q with
    | none => s
    | some code => Machine.mirAnswer q code [] (if code = stBadOpcode then Machine.countUnknown s else s)) := by
  split
  · exact refl _
  · split
    · exact (countUnknown _).trans (mirAnswer ..)
    · exact mirAnswer ..

theorem mirNext (s : State) : SidebandStep s (mirNext s) := by
  unfold Machine.mirNext
  split
  · exact refl _
  · split
    · exact refl _
    next q rest _ =>
      exact ((modSb s fun b => { b with waiting := rest, current := some { q with arrived := s.now } }).trans
        (touchIfOwned _)).trans (mirJudged q _)

end SidebandStep

/-! ### The Hatch's result and its ownership timer (CN.7.2, CN.7.3) -/

/-- HATCH_COMPLETE of a command whose result waits, no release pending. -/
theorem exec_hatchComplete {s : State} {res : HatchResult} (hserves : mgmtServes s = true)
    (hbusy : s.hatch.busy = true) (hresult : s.hatch.result = some res) :
    exec .hatchComplete s = .next (answered s (hatchPublish res (cleared s))) := by
  have hperform : hatchPerform (cleared s) = cleared s := by
    unfold hatchPerform
    split
    · rfl
    · dsimp only
      exact if_pos (by simp [cleared, hresult])
  refine answer_eq ((if_pos hserves).trans ?_)
  rw [hatchComplete, if_neg (by simp [cleared, hbusy]), hperform]
  dsimp only
  rw [show (cleared s).hatch.result = some res from hresult]

theorem hatchPublish_kept {s : State} {res : HatchResult} (hkept : s.hatch.releasing = false) :
    hatchPublish res s = (s.elapseTo res.notBefore).modHatch fun h => { h with
      busy := false
      valid := true
      code := res.code
      length := res.length
      applied := res.applied
      result := none
      readBack := res.readBack
      timerFrom := (s.elapseTo res.notBefore).now
      data := if h.opcode != 2 && (res.code == 0 || res.code == 2) then hatchWords res.data else h.data } :=
  if_neg (by simp [hkept])

/-- HATCH_DONE by the owner. -/
theorem exec_hatchDone {p : Port} {s : State} (hopen : postedOpen s p [idManagement] = true)
    (howner : s.hatch.owner = some p.req) :
    exec (.hatchDone p) s = .next (answered s { begun s [idManagement] with
      hatch := { s.hatch with timerFrom := s.now, valid := false } }) := by
  refine answer_eq (regWrite_hatch (g := .hatchStatus) (by decide) (by decide) rfl rfl hopen ?_
    (heldBanks_same rfl))
  rw [hatchBegun_of_owner howner]
  change writeHatchStatus p.req 4 _ = _
  rw [writeHatchStatus, if_pos (by decide), ownerWrite, if_pos (by simp [howner])]
  simp only [hatchTouch, State.modHatch, begun_now]

/-- The abort of a use of the Hatch whose owner's timer has run. -/
def timeoutAborted (s : State) : State :=
  abortHatch 2 ((cleared s).elapseTo (s.hatch.timerFrom + 10000 * s.hatch.timeout))

/-- HATCH_TIMEOUT of an idle Hatch aborts its owner's use; a request of the sideband whose result stood is answered. -/
theorem exec_hatchTimeout {s : State} {r : Req} (hserves : mgmtServes s = true) (howner : s.hatch.owner = some r)
    (hbusy : s.hatch.busy = false) :
    ∃ t, exec .hatchTimeout s = .next (answered s t) ∧ SidebandStep (timeoutAborted s) t := by
  let cut := if mirUnderway (cleared s) then (cleared s).sideband.current else none
  refine ⟨match cut with
    | none => timeoutAborted s
    | some q => mirNext (mirAnswer q stAborted
        (mirAddress q ++ [BitVec.ofNat 8 (b2n (hatchApplied s.hatch))]) (timeoutAborted s)), ?_, ?_⟩
  · change execHatchTimeout s = _
    refine answer_eq ((if_pos hserves).trans ((if_neg (by simp [cleared, howner, hbusy])).trans ?_))
    rfl
  · cases cut with
    | none => exact .refl _
    | some q => exact (SidebandStep.mirAnswer ..).trans (.mirNext _)

/-- The entry that an abort writes in every copy of HATCH_ABORT_LOG (Table CN-21). -/
def abortEntry (r : Req) (cause : Nat) (h : Hatch) : AbortLog :=
  { valid := true, former := ownerCode (some r), opcode := h.opcode, applied := hatchApplied h, cause := cause }

/-- An abort of the owner's use logs it in every copy, tells both ports and releases the Hatch. -/
theorem abortHatch_eq {s : State} {r : Req} (howner : s.hatch.owner = some r) (cause : Nat) :
    abortHatch cause s = (releaseHatch ((s.modConducts fun c => { c with
      abortLog := abortEntry r cause s.hatch, status := c.status ||| 4 }).mgmt 1)).raise 0x101053 := by
  simp only [abortHatch, howner]
  rfl

theorem abortHatch_spec {s : State} {r : Req} (howner : s.hatch.owner = some r) (cause : Nat) :
    let t := abortHatch cause s
    t.hatch = { Hatch.initial with timeout := s.hatch.timeout } ∧ t.now = s.now ∧
      (∀ q, (t.conduct.get q).abortLog = abortEntry r cause s.hatch) ∧
      t.portA.mgmtEvent.getLsbD 1 = true ∧ t.portB.mgmtEvent.getLsbD 1 = true ∧ t.dur = s.dur ∧ t.nv = s.nv ∧
      t.ledger = s.ledger := by
  have hraised := FabricStep.raise (releaseHatch ((s.modConducts fun c => { c with
    abortLog := abortEntry r cause s.hatch, status := c.status ||| 4 }).mgmt 1)) 0x101053
  rw [← abortHatch_eq howner cause] at hraised
  unfold FabricStep at hraised
  dsimp only
  rw [hraised]
  refine ⟨rfl, rfl, fun q => by cases q <;> rfl, ?_, ?_, rfl, rfl, rfl⟩
  · simp [releaseHatch, State.mgmt, PortState.mgmt]
  · simp [releaseHatch, State.mgmt, PortState.mgmt]

theorem timeoutAborted_spec {s : State} {r : Req} (howner : s.hatch.owner = some r) :
    let t := timeoutAborted s
    t.hatch = { Hatch.initial with timeout := s.hatch.timeout } ∧
      s.hatch.timerFrom + 10000 * s.hatch.timeout ≤ t.now ∧
      (∀ q, (t.conduct.get q).abortLog = abortEntry r 2 s.hatch) ∧
      t.portA.mgmtEvent.getLsbD 1 = true ∧ t.portB.mgmtEvent.getLsbD 1 = true ∧ t.dur = s.dur ∧ t.nv = s.nv ∧
      t.ledger = s.ledger := by
  have hlate : ((cleared s).elapseTo (s.hatch.timerFrom + 10000 * s.hatch.timeout)).hatch = s.hatch :=
    elapseTo_hatch ..
  have hspec := abortHatch_spec ((congrArg Hatch.owner hlate).trans howner) 2
  rw [hlate, elapseTo_now, elapseTo_dur, elapseTo_nv, elapseTo_ledger] at hspec
  obtain ⟨hhatch, hnow, hlog, hportA, hportB, hdur, hnv, hledger⟩ := hspec
  exact ⟨hhatch, (Nat.le_max_right _ _).trans_eq hnow.symm, hlog, hportA, hportB, hdur, hnv, hledger⟩

/-- Settles O32: it holds. -/
theorem hatchCommandsAndResults : Obligations.HatchCommandsAndResults := by
  refine ⟨?_, ?_, ?_, ?_⟩
  · intro p o s hopen howner hbusy hvalid hobj hids hroom e x drawn done value
    refine ⟨fun hread => exec_hatchRead hopen howner hbusy hvalid hobj hids hroom hread,
      fun hread => exec_hatchReadClear hopen howner hbusy hvalid hobj hids hroom hread, ?_⟩
    intro bs hjudge
    refine (exec_hatchWrite hopen howner hbusy hvalid hobj hids hroom hjudge).trans ?_
    have hresult : ∀ y : State, writeResult o bs ((applyAny p.req o e bs y).clampedBy p.req (o.clamps bs)) =
        { code := if o.clamps bs then 1 else 0, data := [], length := o.desc.len, applied := true,
          notBefore := if o = .sourceMask then y.now + 250 else 0, readBack := none } := by
      intro y
      by_cases ho : o = .sourceMask
      · subst ho
        rw [writeResult, State.clampedBy_now, applyAny_sourceMask_now]
      · rw [writeResult, if_neg ho, if_neg ho]
    have hnow : (busyAll (commandGiven 2 s) (objIslands o e)).now = s.now := by
      rw [busyAll_frame]
      exact commandGiven_now 2 s
    rw [hresult, hnow]
    rfl
  · intro res s hserves hbusy hresult hkept
    refine ⟨_, exec_hatchComplete hserves hbusy hresult, ?_⟩
    rw [hatchPublish_kept (s := cleared s) hkept]
    refine ⟨rfl, rfl, rfl, rfl, ?_, ?_, ?_, ?_, ?_, ?_, ?_⟩
    · exact (Nat.le_max_right _ _).trans_eq (elapseTo_now ..).symm
    · change ((cleared s).elapseTo res.notBefore).hatch.owner = _
      rw [elapseTo_hatch]
      rfl
    · change (if ((cleared s).elapseTo res.notBefore).hatch.opcode != 2 && (res.code == 0 || res.code == 2) then
        hatchWords res.data else ((cleared s).elapseTo res.notBefore).hatch.data) = _
      rw [elapseTo_hatch]
      simp [cleared]
    · exact elapseTo_dur ..
    · exact elapseTo_nv ..
    · exact elapseTo_ledger ..
    · exact elapseTo_fabric ..
  · exact fun p s hopen howner => exec_hatchDone hopen howner
  · intro r s hserves howner hbusy
    obtain ⟨t, hexec, hstep⟩ := exec_hatchTimeout hserves howner hbusy
    obtain ⟨hhatch, hnow, hlog, hportA, hportB, hdur, hnv, hledger⟩ := timeoutAborted_spec howner
    have hfree : sbOwns (timeoutAborted s) = false := by
      rw [sbOwns, hhatch]
      rfl
    have hentry : abortEntry r 2 s.hatch = { valid := true, former := ownerCode (some r), opcode := s.hatch.opcode,
                                             applied := s.hatch.applied, cause := 2 } := by
      simp [abortEntry, hatchApplied, hbusy]
    refine ⟨_, hexec, (hstep.hatch hfree).trans hhatch, ?_, fun q => ((hstep.abortLog q).trans (hlog q)).trans hentry, ?_⟩
    · rw [answered_now, hstep.frame]
      exact hnow
    · rw [answered_portA, answered_portB, answered_dur, answered_nv, answered_ledger, hstep.frame]
      exact ⟨hportA, hportB, hdur, hnv, hledger⟩

end Sys2Proof.Machine
end

section
/-!
The registers of a queue's block.
-/

namespace Sys2Proof.Machine

open Sys2Proof

/-! ### The registers of a queue's block (Tables WQ-4 to WQ-15) -/

section
variable {q off : Nat} (hq : q < 256) (hoff : off < 256)

theorem queueOffset_eq (q off : Nat) : queueOffset q off = 0x10000 + (0x100 * q + off) := Nat.add_assoc ..

include hq hoff

theorem regAt_queue : regAt .bar0 (queueOffset q off) = regQueue q off := by
  have hrange : ¬ queueOffset q off < 0x10000 ∧ queueOffset q off < 0x20000 := by
    rw [queueOffset_eq]
    omega
  have hqueue : (queueOffset q off - 0x10000) / 256 = q := by
    rw [queueOffset_eq]
    omega
  have hplace : queueOffset q off % 256 = off := by
    rw [queueOffset_eq]
    omega
  simp only [regAt, hqueue, hplace]
  rw [if_neg (fun h => hrange.1 (Nat.lt_trans h (by decide))), if_neg hrange.1, if_pos hrange.2]

theorem regOwner_queue (p : Port) (v : Nat) :
    (regOwner p .bar0 (queueOffset q off)).2 ++ bankOfMask .bar0 (queueOffset q off) v = [idQueue (q / 16)] := by
  have hmask : bankOfMask .bar0 (queueOffset q off) v = [] := by
    rw [bankOfMask, if_neg]
    simp only [queueOffset_eq, Bool.and_eq_true, beq_iff_eq]
    omega
  have hisland : (queueOffset q off - 0x10000) / 4096 = q / 16 := by
    rw [queueOffset_eq]
    omega
  simp only [regOwner, hmask, hisland, List.append_nil]
  rw [if_neg (by rw [queueOffset_eq]; omega), if_neg (by rw [queueOffset_eq]; omega), if_pos]
  rw [queueOffset_eq]
  simp only [Bool.and_eq_true, decide_eq_true_eq]
  omega

theorem regAllowed_queue (s : State) (p : Port) :
    regAllowed s p .bar0 (queueOffset q off) = s.linkReaches p (s.queue q).room := by
  have hqueue : (queueOffset q off - 0x10000) / 256 = q := by
    rw [queueOffset_eq]
    omega
  simp only [regAllowed, regRoom, hqueue]
  rw [if_pos]
  rw [queueOffset_eq]
  simp only [Bool.and_eq_true, decide_eq_true_eq]
  omega

omit hq hoff in
theorem touched_queue (p : Port) (s : State) : touched p .bar0 (queueOffset q off) s = s := by
  rw [touched, if_pos rfl, hatchPageTouch, if_neg]
  rw [queueOffset_eq]
  simp only [Bool.and_eq_true, decide_eq_true_eq]
  omega

/-- The register at a place of a queue's block that does not stand reserved for now. -/
theorem regNow_queue {s : State} {g : Reg} (hreg : regQueue q off = some g) (hpresent : g.present s = true) :
    regNow s .bar0 (queueOffset q off) = some g := by
  rw [regNow, regAt_queue hq hoff, hreg, Option.filter_some, if_pos hpresent]

end

/-- A write of a register of a queue that its link reaches takes effect at once, where no bank holds it. -/
theorem regWrite_queue {s : State} {p : Port} {q : Fin 256} {off v : Nat} {g : Reg} {t : State} (hoff : off < 256)
    (hreg : regQueue q off = some g) (hpresent : g.present s = true)
    (hopen : postedOpen s p [idQueue (q.val / 16)] = true) (hreach : s.linkReaches p (s.queue q).room = true)
    (heffect : writeReg p .bar0 (queueOffset q off) v g (begun s [idQueue (q.val / 16)]) = t)
    (hheld : heldBanks (begun s [idQueue (q.val / 16)]) t = []) :
    regWrite p .bar0 (queueOffset q off) v (cleared s) = t := by
  refine regWrite_of_held (regOwner_queue q.isLt hoff p v) (List.nodup_singleton _)
    (regNow_queue q.isLt hoff hreg hpresent) ?_ hopen ?_ hheld
  · rw [regAllowed_queue q.isLt hoff, hreach]
  · rw [touched_queue]
    exact heffect

section
variable {q : Nat} (hq : q < 256)
include hq

/-- The dictionary lists the objects of the queues that there are. -/
theorem objAt_queue (sub : Nat) : objAt (0x3000 + q) sub = objQueue (0x3000 + q) sub := by
  rw [objAt, if_neg (by omega), if_neg (by omega), if_pos (by omega)]

theorem objAt_queueControl : objAt (Obj.queueControl q).index (Obj.queueControl q).sub = some (.queueControl q) := by
  refine (objAt_queue hq 0).trans ?_
  simp [objQueue]

theorem objAt_queueConfig : objAt (Obj.queueConfig q).index (Obj.queueConfig q).sub = some (.queueConfig q) := by
  refine (objAt_queue hq 1).trans ?_
  simp [objQueue]

end

/-- A write of an object of 0x3000 to 0x6FFF is a unit's. -/
theorem applyObject_unit {r : Req} {image : Bool} {o : Obj} {e : Nat} {bs : List Byte} {s : State}
    (hlow : 0x3000 ≤ o.index) (hhigh : o.index < 0x7000) : applyObject r image o e bs s = writeUnit r image o bs s := by
  rw [applyObject, if_neg (by omega), if_neg (by omega), if_pos hhigh]

section
variable {r : Req} {q : Fin 256} {off width v : Nat} {o : Obj} {s : State}
  (hoff : off < 256) (hreg : regQueue q off = some (.object o 0 width)) (hwidth : width ≠ 0)
  (hobj : objAt o.index o.sub = some o) (hids : objIslands o 0 = [idQueue (q.val / 16)])
  (hany : ∀ bs, applyAny r o 0 bs = applyObject r false o 0 bs)
  (hopen : writeOpen s r [idQueue (q.val / 16)] [idQueue (q.val / 16)] = true)
  (hmay : linkMay s r (s.queue q).room = true)
  (hjudge : judgeWrite s r false o 0 (valueBytes r o width v) = none)
include hoff hreg hwidth hobj hids hany hopen hmay hjudge

/-- A queue's setting that nothing stops is written through its register or as its object. -/
theorem viaRegister_queue {t : State} (heffect : (applyObject r false o 0 (valueBytes r o width v)
      (begun s [idQueue (q.val / 16)])).clampedBy r (o.clamps (valueBytes r o width v)) = t)
    (hdurab : t.durab = s.durab) : viaRegister r .bar0 (queueOffset q off) v o 0 (cleared s) = t := by
  have hwritten : written s r [idQueue (q.val / 16)] (objIslands o 0) = begun s [idQueue (q.val / 16)] := by
    rw [written, hids, ite_self]
    rfl
  refine viaRegister_of_held hwidth (regNow_queue q.isLt hoff hreg rfl) (fun p => regOwner_queue q.isLt hoff p v)
    (fun p t => touched_queue p t) (hany _) (List.nodup_singleton _) hobj ?_ (by rw [hids]; exact hopen) hjudge ?_ ?_
  · rintro p rfl
    rw [regAllowed_queue q.isLt hoff]
    exact linkReaches_of_may hmay
  · rw [hwritten]
    exact heffect
  · rw [hwritten]
    exact heldBanks_same (by rw [hdurab, begun_durab])

end

/-! ### What a change of a queue is at the queue -/

theorem modQueue_congr {s : State} {q : Nat} {f g : Queue → Queue} (h : f (s.queue q) = g (s.queue q)) :
    s.modQueue q f = s.modQueue q g := by
  simp only [State.modQueue, mmod]
  rw [show mget Queue.initial s.dur.queues q = s.queue q from rfl, h]

theorem modQVol_congr {s : State} {q : Nat} {f g : QVol → QVol} (h : f (s.qvol q) = g (s.qvol q)) :
    s.modQVol q f = s.modQVol q g := by
  simp only [State.modQVol, mmod]
  rw [show mget QVol.initial s.queues.vol q = s.qvol q from rfl, h]

end Sys2Proof.Machine
end

section
/-!
Queue settings, and a queue enabled and disabled.
-/

namespace Sys2Proof.Machine

open Sys2Proof

/-! ### QUEUE_PROD and QUEUE_CONFIG (WQ.3, WQ.8) -/

section
variable {p : Port} {q : Fin 256} {v : Word} {s : State} (hopen : postedOpen s p [idQueue (q.val / 16)] = true)
  (hreach : s.linkReaches p (s.queue q).room = true)
include hopen hreach

theorem exec_queueProdWrite {t : State}
    (heffect : writeQueueProd p q (queueOffset q 0x0C) v.toNat (begun s [idQueue (q.val / 16)]) = t)
    (hdurab : t.durab = s.durab) : exec (.queueProdWrite p q v) s = .next (answered s t) :=
  answer_eq (regWrite_queue (g := .queueProd q) (by decide) rfl rfl hopen hreach heffect
    (heldBanks_same (by rw [hdurab, begun_durab])))

theorem exec_queueProdWrite_taken (haccepts : prodAccepts (s.queue q) (v.toNat % 2 ^ 16) = true) :
    exec (.queueProdWrite p q v) s = .next (answered s
      (if (s.queue q).prod = v.toNat % 2 ^ 16 then begun s [idQueue (q.val / 16)]
        else (begun s [idQueue (q.val / 16)]).modQueue q fun d => { d with prod := v.toNat % 2 ^ 16 })) := by
  refine exec_queueProdWrite hopen hreach ?_ ?_
  · simp only [writeQueueProd, begun_queue]
    exact if_pos haccepts
  · split <;> simp

theorem exec_queueProdWrite_refused (haccepts : prodAccepts (s.queue q) (v.toNat % 2 ^ 16) = false) :
    exec (.queueProdWrite p q v) s = .next (answered s
      ((begun s [idQueue (q.val / 16)]).ignoredWrite p.req 0 (queueOffset q 0x0C) rName)) := by
  refine exec_queueProdWrite hopen hreach ?_ ?_
  · simp only [writeQueueProd, begun_queue]
    exact if_neg (by rw [haccepts]; decide)
  · rw [ignoredWrite_durab, begun_durab]

end

/-- The fields of QUEUE_CONFIG are its low 24 bits. -/
theorem bits_low {hi lo : Nat} (h : hi < 24) (v : Nat) : bits (v % 2 ^ 24) hi lo = bits v hi lo := by
  by_cases hlo : lo ≤ 24
  · have hsplit : (2 : Nat) ^ 24 = 2 ^ lo * 2 ^ (24 - lo) := by
      rw [← Nat.pow_add]
      congr 1
      omega
    have hdvd : 2 ^ (hi + 1 - lo) ∣ 2 ^ (24 - lo) := Nat.pow_dvd_pow 2 (by omega)
    rw [bits, bits, hsplit, Nat.mod_mul_right_div_self, Nat.mod_mod_of_dvd _ hdvd]
  · have hone : hi + 1 - lo = 0 := by omega
    simp [bits, hone, Nat.mod_one]

theorem bit_low {n : Nat} (h : n < 24) (v : Nat) : bit (v % 2 ^ 24) n = bit v n := by
  have hlow := bits_low (lo := n) h v
  simp only [bits, Nat.add_sub_cancel_left, Nat.pow_one] at hlow
  simp only [bit, hlow]

theorem setQueueConfig_low (q v : Nat) (s : State) : setQueueConfig q (v % 2 ^ 24) s = setQueueConfig q v s := by
  unfold setQueueConfig
  dsimp only
  rw [bits_low (by decide), bits_low (by decide), bits_low (by decide), bits_low (by decide), bit_low (by decide),
    bit_low (by decide)]

section
variable {r : Req} {q : Fin 256} {s : State}
  (hopen : writeOpen s r [idQueue (q.val / 16)] [idQueue (q.val / 16)] = true)
  (hmay : linkMay s r (s.queue q).room = true)
include hopen hmay

theorem exec_queueConfigWrite {v : Word}
    (hjudge : judgeWrite s r false (.queueConfig q) 0 (valueBytes r (.queueConfig q) 24 v.toNat) = none) :
    exec (.queueConfigWrite r q v) s = .next (answered s
      ((setQueueConfig q v.toNat (begun s [idQueue (q.val / 16)])).clampedBy r
        (clamp 4 16 (bits v.toNat 4 0) != bits v.toNat 4 0))) := by
  have hindex : 0x3000 ≤ (Obj.queueConfig q).index ∧ (Obj.queueConfig q).index < 0x7000 := by
    simp only [Obj.index]
    omega
  have hvalue : leNat (valueBytes r (.queueConfig q) 24 v.toNat) % 2 ^ 24 = v.toNat % 2 ^ 24 := by
    rw [leNat_valueBytes r _ (by change 2 ^ 24 ≤ 256 ^ 4; decide)]
    split
    · change v.toNat % 256 ^ 4 % 2 ^ 24 = _
      omega
    · exact Nat.mod_mod _ _
  have hconfig (x : State) : setQueueConfig q (leNat (valueBytes r (.queueConfig q) 24 v.toNat)) x =
      setQueueConfig q v.toNat x := by
    rw [← setQueueConfig_low, hvalue, setQueueConfig_low]
  have hsize : bits (leNat (valueBytes r (.queueConfig q) 24 v.toNat)) 4 0 = bits v.toNat 4 0 := by
    rw [← bits_low (by decide), hvalue, bits_low (by decide)]
  refine answer_eq (viaRegister_queue (width := 24) (by decide) rfl (by decide) (objAt_queueConfig q.isLt) rfl
    (fun _ => rfl) hopen hmay hjudge ?_ ?_)
  · rw [applyObject_unit hindex.1 hindex.2]
    have hclamps : (Obj.queueConfig q).clamps (valueBytes r (.queueConfig q) 24 v.toNat) =
        (clamp 4 16 (bits v.toNat 4 0) != bits v.toNat 4 0) := by
      simp only [Obj.clamps, hsize]
    rw [hclamps, ← hconfig]
    rfl
  · rw [State.clampedBy_durab]
    exact begun_durab ..

/-! ### QUEUE_CONTROL (WQ.7) -/

/-- EVT_IDLE_EN as QUEUE_CONTROL writes it. -/
def idleWritten (q : Nat) (idle : Bool) (s : State) : State :=
  if (s.queue q).evtIdleEn = idle then s else s.modQueue q fun d => { d with evtIdleEn := idle }

omit hopen hmay in
theorem idleWritten_durab (q : Nat) (idle : Bool) (s : State) : (idleWritten q idle s).durab = s.durab := by
  unfold idleWritten
  split <;> rfl

omit hopen hmay in
@[simp] theorem idleWritten_qvol (q k : Nat) (idle : Bool) (s : State) :
    (idleWritten q idle s).qvol k = s.qvol k := by
  unfold idleWritten
  split <;> rfl

omit hopen hmay in
theorem writeQueueControl_eq (enable idle : Bool) (x : State) :
    writeQueueControl false q (b2n enable + at1 idle 1) x =
      if enable then queueEnable q (idleWritten q idle x) else queueDisable q (idleWritten q idle x) := by
  have hidle : bit (b2n enable + at1 idle 1) 1 = idle := by cases enable <;> cases idle <;> rfl
  have henable : bit (b2n enable + at1 idle 1) 0 = enable := by cases enable <;> cases idle <;> rfl
  simp only [writeQueueControl, hidle, henable, idleWritten, beq_iff_eq, Bool.false_eq_true, if_false]

/-- A write of QUEUE_CONTROL that nothing stops. -/
theorem viaRegister_queueControl {enable idle : Bool} {t : State}
    (hjudge : judgeWrite s r false (.queueControl q) 0 (valueBytes r (.queueControl q) 2 (b2n enable + at1 idle 1)) =
      none)
    (heffect : (if enable then queueEnable q (idleWritten q idle (begun s [idQueue (q.val / 16)]))
      else queueDisable q (idleWritten q idle (begun s [idQueue (q.val / 16)]))) = t) (hdurab : t.durab = s.durab) :
    viaRegister r .bar0 (queueOffset q 0) (b2n enable + at1 idle 1) (.queueControl q) 0 (cleared s) = t := by
  have hindex : 0x3000 ≤ (Obj.queueControl q).index ∧ (Obj.queueControl q).index < 0x7000 := by
    simp only [Obj.index]
    omega
  have hvalue : leNat (valueBytes r (.queueControl q) 2 (b2n enable + at1 idle 1)) = b2n enable + at1 idle 1 := by
    rw [leNat_valueBytes r _ (by change 2 ^ 2 ≤ 256 ^ 4; decide)]
    have hlt : b2n enable + at1 idle 1 < 4 := by cases enable <;> cases idle <;> decide
    split
    · exact Nat.mod_eq_of_lt (Nat.lt_of_lt_of_le hlt (by change 4 ≤ 256 ^ 4; decide))
    · exact Nat.mod_eq_of_lt hlt
  have hclamps : (Obj.queueControl q).clamps (valueBytes r (.queueControl q) 2 (b2n enable + at1 idle 1)) = false :=
    bne_self_eq_false _
  refine viaRegister_queue (width := 2) (by decide) rfl (by decide) (objAt_queueControl q.isLt) rfl
    (fun _ => rfl) hopen hmay hjudge ?_ hdurab
  rw [applyObject_unit hindex.1 hindex.2, hclamps, clampedBy_false, ← heffect, ← writeQueueControl_eq]
  exact congrArg (fun v => writeQueueControl false q v (begun s [idQueue (q.val / 16)])) hvalue

/-- What QUEUE_CONTROL leaves beside the queue's state: EVT_IDLE_EN as written. -/
def idled (q : Fin 256) (idle : Bool) (s : State) : State := idleWritten q idle (begun s [idQueue (q.val / 16)])

omit hopen hmay in
theorem idled_qvol (q : Fin 256) (idle : Bool) (s : State) : (idled q idle s).qvol q = s.qvol q := by
  rw [idled, idleWritten_qvol, begun_qvol]

omit hopen hmay in
theorem idled_durab (q : Fin 256) (idle : Bool) (s : State) : (idled q idle s).durab = s.durab := by
  rw [idled, idleWritten_durab, begun_durab]

omit hopen hmay in
theorem idled_now (q : Fin 256) (idle : Bool) (s : State) : (idled q idle s).now = s.now := by
  unfold idled idleWritten
  split <;> exact begun_now ..

theorem exec_queueEnable {idle : Bool} {t : State}
    (hjudge : judgeWrite s r false (.queueControl q) 0 (valueBytes r (.queueControl q) 2 (1 + at1 idle 1)) = none)
    (heffect : queueEnable q (idled q idle s) = t) : exec (.queueEnable r q idle) s = .next (answered s t) := by
  refine answer_eq (viaRegister_queueControl (enable := true) hopen hmay hjudge ((if_pos rfl).trans heffect) ?_)
  rw [← heffect, queueEnable, State.modQVol_durab, idled_durab]

theorem exec_queueDisable {idle : Bool} {t : State}
    (hjudge : judgeWrite s r false (.queueControl q) 0 (valueBytes r (.queueControl q) 2 (at1 idle 1)) = none)
    (heffect : queueDisable q (idled q idle s) = t) (hdurab : t.durab = s.durab) :
    exec (.queueDisable r q idle) s = .next (answered s t) := by
  have hzero : b2n false + at1 idle 1 = at1 idle 1 := Nat.zero_add _
  refine answer_eq ((congrArg (fun v => viaRegister r .bar0 (queueOffset q 0) v (.queueControl q) 0 (cleared s))
    hzero.symm).trans (viaRegister_queueControl (enable := false) hopen hmay ?_ ((if_neg (by decide)).trans heffect)
      hdurab))
  rw [hzero]
  exact hjudge

end

theorem queueEnable_of_disabled {x : State} {q : Nat} (h : (x.qvol q).state = .disabled) :
    queueEnable q x = x.modQVol q fun v => { v with
      state := .running, recovered := false, sampled := (x.queue q).take, lastTick := x.now, specBlocked := [] } :=
  modQVol_congr (by rw [h])

theorem queueEnable_of_draining {x : State} {q : Nat} (h : (x.qvol q).state = .draining) :
    queueEnable q x = x.modQVol q fun v => { v with state := .running, recovered := false } :=
  modQVol_congr (by rw [h])

theorem queueEnable_of_stopped {x : State} {q : Nat} (h : (x.qvol q).state = .stopped) :
    queueEnable q x = x.modQVol q fun v => { v with recovered := false } :=
  modQVol_congr (by rw [h])

/-- A queue with the state of a drain, whatever else was said of it. -/
theorem qvol_draining (x : State) (q : Nat) :
    ((x.modQVol q fun v => { v with state := .draining }).qvol q).state = .draining := by
  have hread : (x.modQVol q fun v => { v with state := .draining }).qvol q = { x.qvol q with state := .draining } := by
    refine mget_mput_of_ne ?_ _ _
    intro heq
    exact absurd (congrArg QVol.state heq) (by simp [QVol.initial])
  rw [hread]

/-- A queue that was not DISABLED drains. -/
theorem queueDisable_of_enabled {x : State} {q : Nat} (h : (x.qvol q).state ≠ .disabled) :
    queueDisable q x = drainCheck q ((dropFetched q x).modQVol q fun v => { v with state := .draining }) :=
  if_neg (by simpa using h)

theorem drainCheck_of_draining {x : State} {q : Nat} (h : (x.qvol q).state = .draining) :
    drainCheck q x = if (x.queue q).items = [] then drainEnd q x else x := by
  simp only [drainCheck, h, beq_self_eq_true, Bool.true_and, List.isEmpty_iff]

/-- The announcement of a drain's end changes no line. -/
theorem drainEnd_durab (q : Nat) (x : State) : (drainEnd q x).durab = x.durab := by
  unfold drainEnd idleCheck
  split
  · dsimp only
    split
    · simp [queueEvent]
    · rfl
  · rfl

theorem queueDisable_draining {x : State} {q : Nat} (h : (x.qvol q).state ≠ .disabled) :
    let y := (dropFetched q x).modQVol q fun v => { v with state := .draining }
    queueDisable q x = if (x.queue q).items = [] then drainEnd q y else y :=
  (queueDisable_of_enabled h).trans (drainCheck_of_draining (qvol_draining _ q))

/-- Settles O33: it holds. -/
theorem queuesAreConfiguredAndEnabled : Obligations.QueuesAreConfiguredAndEnabled := by
  refine ⟨⟨fun p q v s hopen hreach => ⟨exec_queueProdWrite_taken hopen hreach,
    exec_queueProdWrite_refused hopen hreach⟩, fun r q v s hopen hmay hjudge => exec_queueConfigWrite hopen hmay hjudge⟩,
    ?_⟩
  intro r q idle s hopen hmay w x
  have hx : idled q idle s = x := by rw [idled, idleWritten, begun_queue]
  have hvol : (x.qvol q).state = (s.qvol q).state := by rw [← hx, idled_qvol]
  have hnow : x.now = s.now := by rw [← hx, idled_now]
  refine ⟨fun hjudge => ⟨fun hstate => ?_, fun hstate => ?_, fun hstate => ?_⟩,
    fun hjudge => ⟨fun hstate hitems => ?_, fun hstate hitems => ?_⟩⟩
  · refine exec_queueEnable hopen hmay hjudge ?_
    rw [hx, queueEnable_of_disabled (hvol.trans hstate), hnow]
  · refine exec_queueEnable hopen hmay hjudge ?_
    rw [hx, queueEnable_of_draining (hvol.trans hstate)]
  · refine exec_queueEnable hopen hmay hjudge ?_
    rw [hx, queueEnable_of_stopped (hvol.trans hstate)]
  · refine exec_queueDisable hopen hmay hjudge ?_ ?_
    · rw [hx, queueDisable_draining (hvol ▸ hstate), if_neg hitems]
    · rw [← hx]
      exact idled_durab ..
  · refine exec_queueDisable hopen hmay hjudge ?_ ?_
    · rw [hx, queueDisable_draining (hvol ▸ hstate), if_pos hitems]
    · rw [drainEnd_durab, ← hx]
      exact idled_durab ..

end Sys2Proof.Machine
end

section
/-!
The queue actions and the entry window.
-/

namespace Sys2Proof.Machine

open Sys2Proof

/-! ### QUEUE_ACTION (WQ.7) -/

section
variable {p : Port} {q : Fin 256} {s : State} (hopen : postedOpen s p [idQueue (q.val / 16)] = true)
  (hreach : s.linkReaches p (s.queue q).room = true)
include hopen hreach

/-- A write of QUEUE_ACTION that no refusal stops. -/
theorem regWrite_queueAction {v : Nat} {t : State}
    (hallowed : actionRefused (begun s [idQueue (q.val / 16)]) q (bit v 2) (bit v 3) = false)
    (heffect : queueActions q v (begun s [idQueue (q.val / 16)]) = t)
    (hheld : heldBanks (begun s [idQueue (q.val / 16)]) t = []) :
    regWrite p .bar0 (queueOffset q 0x2C) v (cleared s) = t := by
  refine regWrite_queue (g := .queueAction q) (by decide) rfl rfl hopen hreach ?_ hheld
  exact (if_neg (by simp [hallowed])).trans heffect

/-- A write of QUEUE_ACTION that is refused now. -/
theorem regWrite_queueAction_refused {v : Nat}
    (hrefused : actionRefused (begun s [idQueue (q.val / 16)]) q (bit v 2) (bit v 3) = true) :
    regWrite p .bar0 (queueOffset q 0x2C) v (cleared s) =
      (begun s [idQueue (q.val / 16)]).ignoredWrite p.req 0 (queueOffset q 0x2C) rAccess := by
  refine regWrite_queue (g := .queueAction q) (by decide) rfl rfl hopen hreach (if_pos hrefused) (heldBanks_same ?_)
  exact congrArg Durab.dirty (ignoredWrite_durab ..)

theorem exec_invalidate : exec (.invalidate p q) s = .next (answered s
    ((dropFetched q (begun s [idQueue (q.val / 16)])).modQVol q fun v =>
      { v with invalIndex := (s.queue q).take, invalValid := true })) := by
  refine answer_eq (regWrite_queueAction hopen hreach rfl ?_ (heldBanks_same rfl))
  change queueInvalidate q (begun s [idQueue (q.val / 16)]) = _
  rw [queueInvalidate, begun_queue]

theorem exec_resume_kept (hstate : (s.qvol q).state ≠ .stopped) :
    exec (.resume p q) s = .next (answered s (begun s [idQueue (q.val / 16)])) := by
  refine answer_eq (regWrite_queueAction hopen hreach rfl (if_pos ?_) (heldBanks_same rfl))
  change ((begun s [idQueue (q.val / 16)]).qvol q).state != .stopped
  rw [begun_qvol]
  simpa using hstate

theorem exec_resume_stopped (hroom : roomToDirty s) (hstate : (s.qvol q).state = .stopped) :
    let w := begun s [idQueue (q.val / 16)]
    exec (.resume p q) s = .next (answered s (checkHeadFault q
      ((w.modQueue q fun d => { d with items := d.items.map fun it => { it with
        held := it.held || ((s.queue q).items.any Item.held && (itemEnding w q it).isSome) } }).modQVol q fun v =>
          { v with state := .running }))) := by
  intro w
  refine answer_eq (regWrite_queueAction hopen hreach rfl ?_ (heldBanks_room _ (room_begun _ hroom)))
  change queueResume q w = _
  unfold queueResume
  rw [if_neg (by rw [begun_qvol]; simp [hstate]), begun_queue]

theorem exec_retract_disabled (hstate : (s.qvol q).state = .disabled) :
    exec (.retract p q) s = .next (answered s
      ((dropFetched q (begun s [idQueue (q.val / 16)])).modQueue q fun d => { d with prod := d.take })) := by
  refine answer_eq (regWrite_queueAction hopen hreach ?_ rfl (heldBanks_same rfl))
  simp only [actionRefused, begun_qvol, hstate]
  rfl

theorem exec_retract_refused (hstate : (s.qvol q).state ≠ .disabled) :
    exec (.retract p q) s = .next (answered s
      ((begun s [idQueue (q.val / 16)]).ignoredWrite p.req 0 (queueOffset q 0x2C) rAccess)) := by
  refine answer_eq (regWrite_queueAction_refused hopen hreach ?_)
  simp only [actionRefused, begun_qvol]
  exact Bool.or_eq_true_iff.2 (.inl (by simpa [bit] using hstate))

omit hopen hreach in
theorem queueIdle_begun (ids : List Nat) (k : Nat) : queueIdle (begun s ids) k = queueIdle s k := by
  simp only [queueIdle, begun_queue, begun_qvol]

theorem exec_zeroIndex_idle (hstate : (s.qvol q).state = .disabled) (hidle : queueIdle s q = true) :
    exec (.zeroIndex p q) s = .next (answered s
      ((begun s [idQueue (q.val / 16)]).modQueue q fun d => { d with prod := 0, cons := 0, take := 0 })) := by
  refine answer_eq (regWrite_queueAction hopen hreach ?_ rfl (heldBanks_same rfl))
  simp only [actionRefused, begun_qvol, queueIdle_begun, hstate, hidle]
  rfl

theorem exec_zeroIndex_refused (hbusy : (s.qvol q).state ≠ .disabled ∨ queueIdle s q = false) :
    exec (.zeroIndex p q) s = .next (answered s
      ((begun s [idQueue (q.val / 16)]).ignoredWrite p.req 0 (queueOffset q 0x2C) rAccess)) := by
  refine answer_eq (regWrite_queueAction_refused hopen hreach ?_)
  simp only [actionRefused, begun_qvol, queueIdle_begun]
  refine Bool.or_eq_true_iff.2 (.inr ?_)
  rcases hbusy with hstate | hidle
  · simp [bit, hstate]
  · simp [bit, hidle]

/-! ### The entry window (WQ.2.1) -/

variable (honchip : (s.queue q).onchip = true)
include honchip

theorem exec_entryWindowCommit (v : Word) (hroom : roomToDirty s) :
    let x := (begun s [idQueue (q.val / 16)]).modQVol q fun y =>
      { y with staging := y.staging.set p (setAt (y.staging.get p) 15 v) }
    let slot := (x.qvol q).entrySlot.get p
    exec (.entryWindowCommit p q v) s = .next (answered s ((writeRing ((s.queue q).ringOffset slot)
      (((x.qvol q).staging.get p).flatMap fun y => leBytes 4 y.toNat) x).modQVol q fun y =>
        { y with entrySlot := y.entrySlot.set p ((s.queue q).succ slot) })) := by
  intro x slot
  refine answer_eq (regWrite_queue (g := .window q 15) (by decide) rfl honchip hopen hreach ?_
    (heldBanks_room _ (room_begun _ hroom)))
  have honchip' : ((begun s [idQueue (q.val / 16)]).queue q).onchip = true := by rw [begun_queue, honchip]
  have hqueue : x.queue q = s.queue q := begun_queue ..
  refine (if_pos honchip').trans ?_
  rw [BitVec.ofNat_toNat, BitVec.setWidth_eq]
  refine Eq.trans ?_ (congrArg (fun d : Queue => (writeRing (d.ringOffset slot)
    (((x.qvol q).staging.get p).flatMap fun y => leBytes 4 y.toNat) x).modQVol q fun y =>
      { y with entrySlot := y.entrySlot.set p (d.succ slot) }) hqueue)
  rfl

end

theorem exec_entryWindowSnapshot {p : Port} {q : Fin 256} {s : State}
    (hreach : s.linkReaches p (s.queue q).room = true) (honchip : (s.queue q).onchip = true)
    (hopen : readOpen s p [idQueue (q.val / 16)] [queueOffset q 0x40 / 4096] = true) :
    let entry := Memory.readN s.dur.ring ((s.queue q).ringOffset ((s.qvol q).entrySlot.get p)) 64
    let x := (cleared s).modQVol q fun y => { y with
      latch := y.latch.set p ((List.range 16).map fun k => BitVec.ofNat 32 (fieldAt entry (4 * k) 4)) }
    exec (.entryWindowSnapshot p q) s = .next (answered s
      (x.emit (.readWord p (BitVec.ofNat 32 (latchWord x p q 0))))) := by
  intro entry x
  have hclear := (readOpen_cleared ..).trans hopen
  have haccess : accessOpen (cleared s) p [idQueue (q.val / 16)] = true := by
    simp only [readOpen, Bool.and_eq_true] at hclear
    exact hclear.1
  have hnotSync : (queueOffset q 0x40 == 0x14) = false := by
    rw [queueOffset_eq]
    simp only [beq_eq_false_iff_ne]
    omega
  have hpages : Access.letterboxPages (.read .bar0 (queueOffset q 0x40) 0 4) ⊆ [queueOffset q 0x40 / 4096] := by
    simp [Access.letterboxPages, hnotSync]
  have hreg : regNow (cleared s) .bar0 (queueOffset q 0x40) = some (.window q 0) :=
    regNow_queue q.isLt (by decide) rfl honchip
  have howner : (regOwner p .bar0 (queueOffset q 0x40)).2 = [idQueue (q.val / 16)] := by
    have hboth := regOwner_queue q.isLt (show 0x40 < 256 by decide) p 0
    have hplain : (decide (Window.bar0 = .bar0) && queueOffset q 0x40 == 0x3008 && snExists (0 % 2 ^ 24)) = false := by
      have hfar : (queueOffset q 0x40 == 0x3008) = false := by
        rw [queueOffset_eq, beq_eq_false_iff_ne]
        omega
      rw [hfar]
      rfl
    rwa [bankOfMask, hplain, if_neg Bool.false_ne_true, List.append_nil] at hboth
  have hread := regRead_of_some (r := Reader.whole p) howner haccess
    (read_not_behind (a := .read .bar0 (queueOffset q 0x40) 0 4) rfl (readOpen_mono hpages hclear))
    (letterboxPage_of_regNow hreg) hreg (by simp) (by simp) fun _ => rfl
  have hallowed : regAllowed (cleared s) p .bar0 (queueOffset q 0x40) = true :=
    (regAllowed_queue q.isLt (by decide) (cleared s) p).trans hreach
  rw [readOrZero_allowed (r := Reader.whole p) hallowed, touched_queue] at hread
  have hword : readReg p (.window q 0) (cleared s) = (x, BitVec.ofNat 32 (latchWord x p q 0)) := by
    have hlatched : (if decide (0 = 0) && ((cleared s).queue q).onchip then (windowRead p q 0 (cleared s)).1
        else cleared s) = x := if_pos honchip
    have hvalue : ∀ y, (if decide (0 = 0) && ((cleared s).queue q).onchip then (windowRead p q 0 (cleared s)).1
        else cleared s) = y → readReg p (.window q 0) (cleared s) =
          (y, BitVec.ofNat 32 (regValue y p (.window q 0))) := by
      rintro _ rfl
      rfl
    rw [hvalue x hlatched, regValue]
    exact congrArg (fun n => (x, BitVec.ofNat 32 n)) (if_pos honchip)
  refine answer_eq (hread.trans ?_)
  change (readReg p (.window q 0) (cleared s)).1.answerRead _ (readReg p (.window q 0) (cleared s)).2 = _
  rw [hword]
  rfl

/-- Settles O34: it holds. -/
theorem queueActionsAndEntryWindow : Obligations.QueueActionsAndEntryWindow := by
  refine ⟨fun p q s hopen hreach => ⟨exec_invalidate hopen hreach, exec_resume_kept hopen hreach,
    exec_resume_stopped hopen hreach, exec_retract_disabled hopen hreach, exec_retract_refused hopen hreach,
    exec_zeroIndex_idle hopen hreach, exec_zeroIndex_refused hopen hreach⟩, fun p q s hreach honchip =>
    ⟨fun v hopen hroom => exec_entryWindowCommit hopen hreach honchip v hroom,
      exec_entryWindowSnapshot hreach honchip⟩⟩

end Sys2Proof.Machine
end

section
/-!
Poll ticks and the ends of ring fetches.
-/

namespace Sys2Proof.Machine

open Sys2Proof

/-! ### What the fetches of a queue leave -/

/-- A step of a queue's fetches: neither the time nor what the Keeper and the Ledger hold changes, and a queue in use
keeps its sample. -/
structure FetchStep (q : Nat) (s t : State) : Prop where
  frame : t = { s with
    dur := t.dur, durab := t.durab, fabric := t.fabric, queues := t.queues, xlate := t.xlate
    portA := t.portA, portB := t.portB, out := t.out }
  used : (s.qvol q).state ≠ .disabled → (t.qvol q).state ≠ .disabled ∧
    (t.qvol q).sampled = (s.qvol q).sampled ∧ (t.qvol q).lastTick = (s.qvol q).lastTick

/-- A change of a queue's volatile part that keeps it in use, with its sample. -/
def KeepsSample (f : QVol → QVol) : Prop :=
  ∀ v, v.state ≠ .disabled → (f v).state ≠ .disabled ∧ (f v).sampled = v.sampled ∧ (f v).lastTick = v.lastTick

/-- A queue in use is not as at reset. -/
theorem qvol_ne_initial {v : QVol} (h : v.state ≠ .disabled) : v ≠ QVol.initial := fun heq => h (by rw [heq]; rfl)

/-- A queue's volatile part, changed to one in use, reads back. -/
theorem qvol_modQVol {s : State} {q : Nat} {f : QVol → QVol} (h : (f (s.qvol q)).state ≠ .disabled) :
    (s.modQVol q f).qvol q = f (s.qvol q) :=
  mget_mput_of_ne (qvol_ne_initial h) _ _

theorem qvol_modQVol_other {s : State} {q k : Nat} (h : q ≠ k) (f : QVol → QVol) :
    (s.modQVol k f).qvol q = s.qvol q :=
  mget_mput_other _ _ _ _ _ h

namespace FetchStep

variable {q : Nat} {s t u : State}

theorem refl (s : State) : FetchStep q s s := ⟨rfl, fun h => ⟨h, rfl, rfl⟩⟩

theorem trans (hst : FetchStep q s t) (htu : FetchStep q t u) : FetchStep q s u := by
  obtain ⟨hframe, hused⟩ := hst
  obtain ⟨hframe', hused'⟩ := htu
  refine ⟨by rw [hframe', hframe], fun h => ?_⟩
  obtain ⟨hstate, hsampled, htick⟩ := hused h
  obtain ⟨hstate', hsampled', htick'⟩ := hused' hstate
  exact ⟨hstate', hsampled'.trans hsampled, htick'.trans htick⟩

theorem foldl {α : Type} {f : State → α → State} (hf : ∀ s a, FetchStep q s (f s a)) (l : List α) (s : State) :
    FetchStep q s (l.foldl f s) :=
  foldl_rel refl trans hf l s

/-- What leaves the queues alone is no more than a step of their fetches. -/
theorem of_queues (hframe : t = { s with
      dur := t.dur, durab := t.durab, fabric := t.fabric, xlate := t.xlate
      portA := t.portA, portB := t.portB, out := t.out }) : FetchStep q s t := by
  have hqueues : t.queues = s.queues := by rw [hframe]
  have hvol : t.qvol q = s.qvol q := by rw [State.qvol, hqueues]; rfl
  exact ⟨by rw [hqueues]; exact hframe, fun h => by rw [hvol]; exact ⟨h, rfl, rfl⟩⟩

theorem modQVol {k : Nat} {f : QVol → QVol} (hf : KeepsSample f) (s : State) : FetchStep q s (s.modQVol k f) := by
  refine ⟨rfl, fun h => ?_⟩
  by_cases hk : q = k
  · subst hk
    rw [qvol_modQVol (hf _ h).1]
    exact hf _ h
  · rw [qvol_modQVol_other hk]
    exact ⟨h, rfl, rfl⟩

theorem modQueue (s : State) (f : Queue → Queue) : FetchStep q s (s.modQueue q f) := of_queues rfl
theorem passToLink (s : State) (p : Port) (r : LinkReq) : FetchStep q s (s.passToLink p r) := by
  cases p <;> exact of_queues rfl
theorem raise (s : State) (sn : Nat) : FetchStep q s (s.raise sn) := by
  have h := FabricStep.raise s sn
  unfold FabricStep at h
  exact of_queues (by rw [h])

theorem raiseFrom (s : State) (i sn : Nat) : FetchStep q s (s.raiseFrom i sn) := by
  have h : FabricStep s (s.raiseFrom i sn) := .submit ..
  unfold FabricStep at h
  exact of_queues (by rw [h])

theorem mgmt (s : State) (n : Nat) : FetchStep q s (s.mgmt n) := of_queues rfl

theorem throttleEngage (banks : List Nat) (s : State) : FetchStep q s (throttleEngage banks s) := by
  unfold Machine.throttleEngage
  dsimp only
  split
  · exact of_queues rfl
  · refine trans ?_ (raise _ _)
    exact of_queues rfl

theorem recordFault (r : FaultRec) (s : State) : FetchStep q s (recordFault r s) := by
  unfold Machine.recordFault
  dsimp only
  have hraised (b : Bool) (i : Nat) (u : State) (hu : FetchStep q s u) :
      FetchStep q s (if b then u.raiseFrom i 0x101070 else u) := by
    split
    · exact hu.trans (raiseFrom ..)
    · exact hu
  split <;> exact hraised _ _ _ (of_queues rfl)

theorem reportFault (r : FaultRec) (s : State) : FetchStep q s (reportFault r s) := by
  unfold Machine.reportFault
  extract_lets
  split
  · exact recordFault ..
  · refine trans ?_ (throttleEngage ..)
    exact of_queues rfl

theorem queueEvent (k n : Nat) (s : State) : FetchStep q s (queueEvent k n s) := by
  unfold Machine.queueEvent
  exact (modQVol (by exact fun _ h => ⟨h, rfl, rfl⟩) s).trans (raise ..)

theorem unbegun (slot : Nat) (s : State) : FetchStep q s (unbegun q slot s) := by
  unfold Machine.unbegun
  extract_lets
  split
  · exact refl _
  · exact (modQueue ..).trans (modQVol (by exact fun _ h => ⟨h, rfl, rfl⟩) _)

theorem queueStop (cause slot : Nat) (s : State) : FetchStep q s (queueStop q cause slot s) := by
  unfold Machine.queueStop
  split
  · exact refl _
  · exact ((unbegun ..).trans (modQVol (by exact fun _ _ => ⟨fun h => QState.noConfusion h, rfl, rfl⟩) _)).trans
      (queueEvent ..)

theorem checkHeadFault (s : State) : FetchStep q s (checkHeadFault q s) := by
  unfold Machine.checkHeadFault
  dsimp only
  split
  · split
    · exact refl _
    · exact ((reportFault ..).trans (modQVol (by exact fun _ h => ⟨h, rfl, rfl⟩) _)).trans (queueStop ..)
  · exact refl _

/-- A queue that waits for the engine gains waiting time. -/
theorem waited {b : Bool} (k ns : Nat) (s : State) :
    FetchStep q s (if b then s.modQVol k fun v => { v with waitTime := satAdd 64 v.waitTime ns } else s) := by
  split
  · exact modQVol (by exact fun _ h => ⟨h, rfl, rfl⟩) s
  · exact refl s

theorem windowAdd (f : Fetched) (s : State) : FetchStep q s (windowAdd q f s) :=
  modQVol (by exact fun _ h => ⟨h, rfl, rfl⟩) s

theorem fetchFault (slot : Nat) (owned : Bool) (code level : Nat) (s : State) :
    FetchStep q s (fetchFault q slot owned code level s) := by
  unfold Machine.fetchFault
  split
  · exact (windowAdd ..).trans (checkHeadFault _)
  · exact modQVol (by exact fun _ h => ⟨h, rfl, rfl⟩) s

end FetchStep

/-! #### Translations -/

/-- A translation changes what the Translation islands hold, and may put out a table read. -/
def XlateStep (s t : State) : Prop := t = { s with xlate := t.xlate, out := t.out }

namespace XlateStep

variable {s t u : State}

theorem refl (s : State) : XlateStep s s := rfl

theorem trans (hst : XlateStep s t) (htu : XlateStep t u) : XlateStep s u := by
  unfold XlateStep at *
  rw [htu, hst]

theorem issueWalkRead {room addr : Nat} (h : issueWalkRead s room addr = some t) : XlateStep s t := by
  unfold Machine.issueWalkRead at h
  dsimp only at h
  split at h
  · cases h
    rfl
  · cases h

theorem beginWalk (r : XReq) (s : State) : XlateStep s (beginWalk r s).1 := by
  unfold Machine.beginWalk
  dsimp only
  split
  · rfl
  next h =>
    refine trans (trans ?_ (issueWalkRead h)) rfl
    rfl

theorem grant (r : XReq) (s : State) : XlateStep s (grant r s).1 := by
  unfold Machine.grant
  split
  · exact refl _
  · split
    · exact refl _
    · exact beginWalk ..

theorem translate (r : XReq) (len : Nat) (s : State) : XlateStep s (translate r len s).1 := by
  unfold Machine.translate
  dsimp only
  split
  · exact refl _
  · split
    · rfl
    · split
      · rfl
      · refine trans ?_ (grant ..)
        rfl

/-- The state that a translation leaves. -/
theorem of_translate {r : XReq} {len : Nat} {x : Xlated} (h : Machine.translate r len s = (t, x)) : XlateStep s t := by
  have hstep := translate r len s
  rwa [h] at hstep

theorem fetchStep {q : Nat} (h : XlateStep s t) : FetchStep q s t := by
  unfold XlateStep at h
  exact .of_queues (by rw [h])

end XlateStep

namespace FetchStep

variable {q : Nat}

theorem fetchSlot (slot : Nat) (owned : Bool) (s : State) : FetchStep q s (fetchSlot q slot owned s) := by
  unfold Machine.fetchSlot
  dsimp only
  split
  · exact windowAdd ..
  · split
    · exact refl _
    · split
      · exact refl _
      · split
        case h_1 h =>
          exact ((XlateStep.of_translate h).fetchStep.trans (modQVol (by exact fun _ h => ⟨h, rfl, rfl⟩) _)).trans
            (passToLink ..)
        case h_2 h => exact (XlateStep.of_translate h).fetchStep.trans (modQVol (by exact fun _ h => ⟨h, rfl, rfl⟩) _)
        case h_3 h => exact (XlateStep.of_translate h).fetchStep.trans (fetchFault ..)

theorem fetchAt (base : Nat) (owned : Bool) (s : State) (k : Nat) : FetchStep q s (fetchAt q base owned s k) := by
  unfold Machine.fetchAt
  dsimp only
  split
  · exact refl _
  · exact fetchSlot ..

theorem fetchMore (s : State) : FetchStep q s (fetchMore q s) := by
  have hcovered := foldl (fun s k => fetchAt (q := q) (s.queue q).take true s k)
  unfold Machine.fetchMore
  dsimp only
  split
  · exact foldl (fun s k => fetchAt _ true s k) _ _
  · exact (foldl (fun s k => fetchAt _ true s k) _ _).trans (foldl (fun s k => fetchAt _ false s k) _ _)

end FetchStep

/-! ### POLL_TICK (WQ.3) -/

/-- A queue in use has PROD as it was sampled, and the time of its sample. -/
theorem sampleProd_spec {q : Nat} {s : State} (hused : (s.qvol q).state ≠ .disabled) :
    let t := sampleProd q s
    (t.qvol q).sampled = (s.queue q).prod ∧ (t.qvol q).lastTick = s.now ∧ t.now = s.now ∧ t.nv = s.nv ∧
      t.ledger = s.ledger ∧ t.keeper = s.keeper := by
  unfold sampleProd
  extract_lets d x t
  have hread : (x.qvol q).state = (s.qvol q).state ∧ (x.qvol q).sampled = d.prod ∧ (x.qvol q).lastTick = s.now := by
    simp only [x]
    rw [qvol_modQVol hused]
    exact ⟨rfl, rfl, rfl⟩
  have hstep : FetchStep q x t := (FetchStep.fetchMore _).trans (.checkHeadFault _)
  obtain ⟨_, hsampled, htick⟩ := hstep.used (by rw [hread.1]; exact hused)
  refine ⟨hsampled.trans hread.2.1, htick.trans hread.2.2, ?_, ?_, ?_, ?_⟩ <;> rw [hstep.frame] <;> rfl

/-- A queue in use is in use, with its sample, after time has passed. -/
theorem elapse_used {q : Nat} (ns : Nat) {s : State} (hused : (s.qvol q).state ≠ .disabled) :
    ((s.elapse ns).qvol q).state ≠ .disabled := by
  have hwait : FetchStep q s (waitQueues ns s) :=
    .foldl (fun s p => .foldl (fun s k => .waited _ ns s) _ s) _ s
  have hqueues : (s.elapse ns).queues = (waitQueues ns s).queues := by
    unfold State.elapse
    dsimp only
    split <;> rfl
  have hvol : (s.elapse ns).qvol q = (waitQueues ns s).qvol q := by rw [State.qvol, hqueues]; rfl
  rw [hvol]
  exact (hwait.used hused).1

theorem elapseTo_used {q at' : Nat} {s : State} (hused : (s.qvol q).state ≠ .disabled) :
    ((s.elapseTo at').qvol q).state ≠ .disabled := by
  rcases elapseTo_eq at' s with h | h <;> rw [h]
  · exact hused
  · exact elapse_used _ hused

/-- POLL_TICK of a RUNNING queue. -/
theorem exec_pollTick {q : Fin 256} {s : State} (hready : islandsReady s [idQueue (q.val / 16)] = true)
    (hstate : (s.qvol q).state = .running) :
    exec (.pollTick q) s = .next (answered s (sampleProd q ((begun s [idQueue (q.val / 16)]).elapseTo
      ((s.qvol q).lastTick + 8 * (s.queue q).interval)))) := by
  change execPollTick q s = _
  refine answer_eq ((onIslands_ready (s := cleared s) _ hready).trans ?_)
  rw [show busyAll (cleared s) [idQueue (q.val / 16)] = begun s [idQueue (q.val / 16)] from rfl, if_neg, begun_qvol,
    begun_queue]
  rw [begun_qvol, hstate]
  decide

/-- What a poll tick leaves of a RUNNING queue. -/
theorem polled_spec {q : Nat} {ids : List Nat} {s : State} (hstate : (s.qvol q).state = .running) :
    let t := answered s (sampleProd q ((begun s ids).elapseTo ((s.qvol q).lastTick + 8 * (s.queue q).interval)))
    (t.qvol q).sampled = (s.queue q).prod ∧ (t.qvol q).lastTick = t.now ∧
      (s.qvol q).lastTick + 8 * (s.queue q).interval ≤ t.now ∧ t.nv = s.nv ∧ t.ledger = s.ledger ∧
      t.keeper = s.keeper := by
  have hused : ((begun s ids).qvol q).state ≠ .disabled := by
    rw [begun_qvol, hstate]
    decide
  obtain ⟨hsampled, htick, hnow, hnv, hledger, hkeeper⟩ := sampleProd_spec
    (elapseTo_used (at' := (s.qvol q).lastTick + 8 * (s.queue q).interval) hused)
  have hprod : (((begun s ids).elapseTo ((s.qvol q).lastTick + 8 * (s.queue q).interval)).queue q).prod =
      (s.queue q).prod := by
    rw [State.queue, elapseTo_dur]
    exact congrArg Queue.prod (begun_queue ..)
  rw [elapseTo_now] at hnow htick
  rw [elapseTo_nv, begun_nv] at hnv
  rw [elapseTo_ledger, begun_ledger] at hledger
  rw [elapseTo_keeper, begun_keeper] at hkeeper
  generalize sampleProd q ((begun s ids).elapseTo ((s.qvol q).lastTick + 8 * (s.queue q).interval)) = u at *
  exact ⟨hsampled.trans hprod, htick.trans hnow.symm, (Nat.le_max_right _ _).trans_eq hnow.symm, hnv, hledger, hkeeper⟩

/-! ### RING_FETCH_COMPLETE (WQ.4) -/

section
variable {q : Fin 256} {slot : Nat} {f : Fetch} {rest : List Fetch} {s : State}
  (hready : islandsReady s [idQueue (q.val / 16)] = true)
  (hwaits : ringReadWaits s q slot < ((s.qvol q).fetches.filter fun f => f.slot == slot && f.sent).length)
  (htaken : takeFirst (fun f => f.slot == slot && f.sent) (s.qvol q).fetches = some (f, rest))
include hready hwaits htaken

theorem exec_ringFetchComplete {res : HostRead} {t : State}
    (heffect : (let x := (begun s [idQueue (q.val / 16)]).modQVol q fun v => { v with fetches := rest }
      if f.dropped then idleCheck q x
      else match res with
        | .data bytes => windowAdd q { slot := slot, owned := f.owned, bytes := bytesAt bytes 0 64, fault := none } x
        | _ => fetchFault q slot f.owned fHostError 0xFF x) = t) :
    exec (.ringFetchComplete q slot res) s = .next (answered s t) := by
  refine answer_eq ((readArrives_ready (s := cleared s) _ _ _ (List.nodup_singleton _) hready).trans ?_)
  change fetchReturns q slot res (begun s [idQueue (q.val / 16)]) = t
  unfold fetchReturns
  dsimp only
  have hwaits' : ringReadWaits (begun s [idQueue (q.val / 16)]) q slot = ringReadWaits s q slot := by
    simp only [ringReadWaits, begun_port, begun_queue]
  rw [hwaits', begun_qvol, if_neg (Nat.not_le.2 hwaits), htaken]
  exact heffect

end

/-- Settles O35: it holds. -/
theorem pollAndFetch : Obligations.PollAndFetch := by
  refine ⟨fun q s hready hstate => ⟨_, exec_pollTick hready hstate, polled_spec hstate⟩, ?_⟩
  · intro q slot f rest s hready hwaits htaken x
    refine ⟨fun res hdropped => ?_, fun bytes hkept => ?_, fun res hkept hnone => ?_⟩
    · exact exec_ringFetchComplete hready hwaits htaken (if_pos hdropped)
    · exact exec_ringFetchComplete hready hwaits htaken (if_neg (by simp [hkept]))
    · refine exec_ringFetchComplete hready hwaits htaken ((if_neg (by simp [hkept])).trans ?_)
      cases res with
      | data bytes => exact absurd rfl (hnone bytes)
      | _ => rfl

end Sys2Proof.Machine
end

section
/-!
The engine takes, serves and completes.
-/

namespace Sys2Proof.Machine

open Sys2Proof

/-! ### The engine takes an entry (WQ.5) -/

theorem exec_engineServe_take {i : Fin 16} {q : Nat} {f : Fetched} {s : State}
    (hready : islandsReady s [idQueue i] = true) (hserved : servedQueue s i = some q) (hidle : nextStep s q = none)
    (hfound : (s.qvol q).window.find? (fun f => f.slot == (s.queue q).take && f.owned) = some f) :
    exec (.engineServe i) s = .next (answered s (checkHeadFault q (fetchMore q
      (((begun s [idQueue i]).modQueue q fun d => { d with
        items := d.items ++ [Item.taken f.slot f.bytes s.ledger.nextPiece]
        take := (s.queue q).succ (s.queue q).take }).modQVol q fun v =>
          { v with window := v.window.filter fun g => g.slot != f.slot })))) := by
  change execEngineServe i s = _
  refine answer_eq ?_
  rw [show servedQueue (cleared s) i = some q from hserved]
  dsimp only
  rw [show nextStep (cleared s) q = none from hidle]
  refine (onIslands_ready (s := cleared s) _ hready).trans ?_
  change takeEntry q (begun s [idQueue i]) = _
  unfold takeEntry
  dsimp only
  rw [begun_qvol, begun_queue, hfound, begun_ledger]
  refine congrArg (fun t : State => checkHeadFault q (fetchMore q (t.modQVol q fun v =>
    { v with window := v.window.filter fun g => g.slot != f.slot }))) (modQueue_congr ?_)
  rw [begun_queue]

/-! ### The engine issues a step (WQ.5, WI.1) -/

section
variable {q : Nat} {it : Item} {w : State} (hwait : it.wait = .nothing)
include hwait

theorem serveItem_unknown (hkind : it.kind = 0 ∨ 11 < it.kind) :
    serveItem q it w = w.modItem q it.slot fun it => { it with
      ending := some { code := 3, result := leBytes 8 0, step := 0 }, issued := true } := by
  unfold serveItem
  rw [hwait]
  exact if_pos (by simpa using hkind)

variable (hkind : it.kind ≠ 0) (hlast : it.kind ≤ 11) (hstep : it.step = 0)
include hkind hlast hstep

theorem serveItem_checked {code : Nat} (hcheck : entryCheck w q it = some code) :
    serveItem q it w = endItem q it.slot code (refusedResult it) w := by
  unfold serveItem
  rw [hwait]
  dsimp only
  rw [if_neg (by simp [hkind, hlast]), if_pos (by simp [hstep, hcheck]), hcheck]
  rfl

theorem serveItem_lost {code : Nat} {result : List Byte} (hcheck : entryCheck w q it = none)
    (hrecovered : it.recovered = true) (hlost : lostProgress it.started = some (code, result)) :
    serveItem q it w = endItem q it.slot code result (w.modItem q it.slot fun _ => it.started) := by
  unfold serveItem
  rw [hwait]
  dsimp only
  rw [if_neg (by simp [hkind, hlast]), if_neg (by simp [hcheck]), if_pos hstep, if_pos hrecovered, hlost]

end

/-! ### Completion in place (WQ.6) -/

/-- What follows a completion keeps the on-chip rings, and CONS of an on-chip queue. -/
structure RingStep (q : Nat) (s t : State) : Prop where
  frame : t = { s with
    dur := t.dur, durab := t.durab, fabric := t.fabric, queues := t.queues, xlate := t.xlate
    portA := t.portA, portB := t.portB, out := t.out }
  ring : t.dur.ring = s.dur.ring
  cons : (s.queue q).onchip = true → (t.queue q).onchip = true ∧ (t.queue q).cons = (s.queue q).cons

/-- An on-chip queue is not as at first boot. -/
theorem queue_ne_initial {d : Queue} (h : d.onchip = true) : d ≠ Queue.initial := fun heq => by
  rw [heq] at h
  cases h

/-- An on-chip queue's durable part, changed, reads back. -/
theorem queue_modQueue {s : State} {q : Nat} {f : Queue → Queue} (h : (f (s.queue q)).onchip = true) :
    (s.modQueue q f).queue q = f (s.queue q) :=
  mget_mput_of_ne (queue_ne_initial h) _ _

namespace RingStep

variable {q : Nat} {s t u : State}

theorem refl (s : State) : RingStep q s s := ⟨rfl, rfl, fun h => ⟨h, rfl⟩⟩

theorem trans (hst : RingStep q s t) (htu : RingStep q t u) : RingStep q s u := by
  obtain ⟨hframe, hring, hcons⟩ := hst
  obtain ⟨hframe', hring', hcons'⟩ := htu
  refine ⟨by rw [hframe', hframe], hring'.trans hring, fun h => ?_⟩
  obtain ⟨honchip, hkept⟩ := hcons h
  obtain ⟨honchip', hkept'⟩ := hcons' honchip
  exact ⟨honchip', hkept'.trans hkept⟩

/-- What leaves the queues and the rings alone. -/
theorem of_durable (hframe : t = { s with
      dur := t.dur, durab := t.durab, fabric := t.fabric, queues := t.queues, xlate := t.xlate
      portA := t.portA, portB := t.portB, out := t.out }) (hring : t.dur.ring = s.dur.ring)
    (hqueues : t.dur.queues = s.dur.queues) : RingStep q s t := by
  have hqueue : t.queue q = s.queue q := by rw [State.queue, hqueues]; rfl
  exact ⟨hframe, hring, fun h => by rw [hqueue]; exact ⟨h, rfl⟩⟩

theorem modQVol (k : Nat) (f : QVol → QVol) (s : State) : RingStep q s (s.modQVol k f) := of_durable rfl rfl rfl

theorem modQueue {f : Queue → Queue} (hf : ∀ d, (f d).onchip = d.onchip ∧ (f d).cons = d.cons) (s : State) :
    RingStep q s (s.modQueue q f) := by
  refine ⟨rfl, rfl, fun h => ?_⟩
  have hkept := hf (s.queue q)
  rw [queue_modQueue (hkept.1.trans h)]
  exact ⟨hkept.1.trans h, hkept.2⟩

theorem raise (s : State) (sn : Nat) : RingStep q s (s.raise sn) := by
  have h := FabricStep.raise s sn
  unfold FabricStep at h
  exact of_durable (by rw [h]) (by rw [h]) (by rw [h])

theorem throttleEngage (banks : List Nat) (s : State) : RingStep q s (throttleEngage banks s) := by
  unfold Machine.throttleEngage
  dsimp only
  split
  · exact of_durable rfl rfl rfl
  · refine trans ?_ (raise _ _)
    exact of_durable rfl rfl rfl

theorem recordFault (r : FaultRec) (s : State) : RingStep q s (recordFault r s) := by
  have hstep := FetchStep.recordFault (q := q) r s
  refine of_durable hstep.frame ?_ ?_
  all_goals
    unfold Machine.recordFault
    dsimp only
    split <;> split <;> simp

theorem reportFault (r : FaultRec) (s : State) : RingStep q s (reportFault r s) := by
  unfold Machine.reportFault
  extract_lets
  split
  · exact recordFault ..
  · refine trans ?_ (throttleEngage ..)
    exact of_durable rfl rfl rfl

theorem queueEvent (k n : Nat) (s : State) : RingStep q s (queueEvent k n s) := (modQVol ..).trans (raise ..)

theorem unbegun (slot : Nat) (s : State) : RingStep q s (unbegun q slot s) := by
  unfold Machine.unbegun
  extract_lets
  split
  · exact refl _
  · exact (modQueue (by exact fun _ => ⟨rfl, rfl⟩) _).trans (modQVol ..)

theorem queueStop (cause slot : Nat) (s : State) : RingStep q s (queueStop q cause slot s) := by
  unfold Machine.queueStop
  split
  · exact refl _
  · exact ((unbegun ..).trans (modQVol ..)).trans (queueEvent ..)

theorem checkHeadFault (s : State) : RingStep q s (checkHeadFault q s) := by
  unfold Machine.checkHeadFault
  dsimp only
  split
  · split
    · exact refl _
    · exact ((reportFault ..).trans (modQVol ..)).trans (queueStop ..)
  · exact refl _

theorem drainEnd (s : State) : RingStep q s (drainEnd q s) := by
  unfold Machine.drainEnd idleCheck
  refine trans (t := s.modQVol q fun v => { v with state := .disabled, idleOwed := true }) (modQVol ..) ?_
  dsimp only
  split
  · split
    · exact (modQVol ..).trans (queueEvent ..)
    · exact modQVol ..
  · exact refl _

theorem drainCheck (s : State) : RingStep q s (drainCheck q s) := by
  unfold Machine.drainCheck
  split
  · exact drainEnd _
  · exact refl _

end RingStep

/-- What a completion leaves once CONS has advanced. -/
theorem finishCompletion_ringStep (q : Nat) (it : Item) (e : Ending) (s : State) :
    RingStep q (s.modQueue q fun d => { d with items := d.items.drop 1, cons := d.succ d.cons })
      (finishCompletion q it e s) := by
  unfold finishCompletion
  extract_lets x y z u
  have hy : RingStep q x y := .modQVol ..
  have hz : RingStep q y z := by
    simp only [z]
    split
    · exact .raise ..
    · exact .refl _
  have hu : RingStep q z u := by
    simp only [u]
    split
    · exact .queueEvent ..
    · exact .refl _
  exact (((hy.trans hz).trans hu).trans (.drainCheck _)).trans (.checkHeadFault _)

/-! ### The completion of the first item (WQ.6) -/

theorem itemEnding_begun (s : State) (ids : List Nat) (q : Nat) (it : Item) :
    itemEnding (begun s ids) q it = itemEnding s q it := by
  rw [begun_frame]
  rfl

theorem exec_completionWrite {q : Fin 256} {it : Item} {rest : List Item} {e : Ending} {s : State}
    (hready : islandsReady s [idQueue (q.val / 16)] = true) (hroom : roomToDirty s)
    (hitems : (s.queue q).items = it :: rest) (henabled : (s.qvol q).state ≠ .disabled)
    (hheld : it.held = true → (s.qvol q).state ≠ .stopped) (hwait : it.wait ≠ .write)
    (hended : itemEnding s q it = some e) :
    exec (.completionWrite q) s =
      .next (answered s (writeCompletion q it e (begun s [idQueue (q.val / 16)]))) := by
  change execCompletionWrite q s = _
  refine answer_eq ?_
  refine (onIslands_ready (s := cleared s) _ hready).trans ((guarded_room _ (room_begun _ hroom)).trans ?_)
  unfold completionStepOf
  rw [begun_queue, begun_qvol, hitems]
  dsimp only
  rw [itemEnding_begun, hended]
  exact if_neg (by simpa [henabled, hwait] using hheld)

/-- What a write of ring memory leaves. -/
theorem writeRing_kept (x : Nat) (bytes : List Byte) (s : State) :
    (writeRing x bytes s).dur.ring = Memory.writeN s.dur.ring x bytes ∧ (writeRing x bytes s).nv = s.nv ∧
    (writeRing x bytes s).ledger = s.ledger ∧ (writeRing x bytes s).keeper = s.keeper := by
  unfold writeRing State.touchIf
  split <;> exact ⟨rfl, rfl, rfl, rfl⟩

/-- What the completion image in an on-chip ring leaves. -/
theorem finishCompletion_writeRing {q : Nat} {it : Item} {e : Ending} {s : State} {bytes : List Byte}
    (honchip : (s.queue q).onchip = true) :
    let t := finishCompletion q it e (writeRing ((s.queue q).ringOffset it.slot) bytes s)
    t.dur.ring = Memory.writeN s.dur.ring ((s.queue q).ringOffset it.slot) bytes ∧
    (t.queue q).cons = (s.queue q).succ (s.queue q).cons ∧ t.nv = s.nv ∧ t.ledger = s.ledger ∧
    t.keeper = s.keeper := by
  intro t
  obtain ⟨hframe, hring, hcons⟩ := finishCompletion_ringStep q it e
    (writeRing ((s.queue q).ringOffset it.slot) bytes s)
  have hqueue : ((writeRing ((s.queue q).ringOffset it.slot) bytes s).modQueue q fun d =>
      { d with items := d.items.drop 1, cons := d.succ d.cons }).queue q =
      { s.queue q with items := (s.queue q).items.drop 1, cons := (s.queue q).succ (s.queue q).cons } :=
    queue_modQueue honchip
  rw [hqueue] at hcons
  obtain ⟨hdur, hnv, hledger, hkeeper⟩ := writeRing_kept ((s.queue q).ringOffset it.slot) bytes s
  exact ⟨hring.trans hdur, (hcons honchip).2, (congrArg State.nv hframe).trans hnv,
    (congrArg State.ledger hframe).trans hledger, (congrArg State.keeper hframe).trans hkeeper⟩

section
variable {q : Nat} {it : Item} {e : Ending} {s : State}

theorem writeCompletion_onchip (h : (s.queue q).onchip = true) : writeCompletion q it e s =
    finishCompletion q it e (writeRing ((s.queue q).ringOffset it.slot) (completionBytes it e) s) := by
  unfold writeCompletion
  exact if_pos h

theorem writeCompletion_hit {x : State} {a : Nat} (h : (s.queue q).onchip = false)
    (hissue : (s.port (s.queue q).port).canIssue = true)
    (hhit : translate { room := (s.queue q).room, iova := (s.queue q).entryIova it.slot, write := true,
                        use := .completion q it.slot } 64 s = (x, .hit a)) :
    writeCompletion q it e s = finishCompletion q it e (x.passToLink (s.queue q).port
      (.completion q it.slot e.step it.tag it.kind ((s.queue q).entryIova it.slot) a (completionBytes it e))) := by
  unfold writeCompletion
  dsimp only
  rw [if_neg (by simp [h]), if_neg (by simp [hissue]), hhit]

theorem writeCompletion_waits (h : (s.queue q).onchip = false)
    (hissue : (s.port (s.queue q).port).canIssue = false) (hstate : (s.qvol q).state ≠ .draining) :
    writeCompletion q it e s = s := by
  unfold writeCompletion
  dsimp only
  rw [if_neg (by simp [h]), if_pos (by simp [hissue])]
  exact if_neg (by simpa using hstate)

end

/-- Settles O36: it holds. -/
theorem engineServesAndCompletes : Obligations.EngineServesAndCompletes := by
  unfold Obligations.EngineServesAndCompletes
  refine ⟨fun i q f s hready hserved hidle hfound => exec_engineServe_take hready hserved hidle hfound, ?_, ?_⟩
  · intro i q it s hserves hi w
    refine ⟨engineServe_ready hserves hi, fun hwait => ⟨serveItem_unknown hwait, ?_, ?_⟩⟩
    · exact fun code hkind hlast hstep hcheck => serveItem_checked hwait hkind hlast hstep hcheck
    · exact fun code result hkind hlast hstep hcheck hrecovered hlost =>
        serveItem_lost hwait hkind hlast hstep hcheck hrecovered hlost
  · intro q it rest e s hready hroom hitems henabled hheld hwait hended w
    have hexec := exec_completionWrite hready hroom hitems henabled hheld hwait hended
    have hqueue : w.queue q = s.queue q := begun_queue ..
    refine ⟨fun honchip => ?_, fun x a honchip hissue hhit => ?_, fun honchip hissue hstate => ?_⟩
    · have honchip' : (w.queue q).onchip = true := by rw [hqueue]; exact honchip
      refine ⟨_, hexec, ?_⟩
      have hleaves := finishCompletion_writeRing (it := it) (e := e) (bytes := completionBytes it e) honchip'
      have hwrite := writeCompletion_onchip (it := it) (e := e) honchip'
      rw [hqueue] at hleaves hwrite
      rw [hwrite]
      obtain ⟨hring, hcons, hnv, hledger, hkeeper⟩ := hleaves
      exact ⟨rfl, hring.trans (by rw [begun_dur]), hcons, hnv.trans (begun_nv ..), hledger.trans (begun_ledger ..),
        hkeeper.trans (begun_keeper ..)⟩
    · have hwrite := writeCompletion_hit (q := q) (it := it) (e := e) (s := w) (x := x) (a := a)
        (by rw [hqueue]; exact honchip) (by rw [hqueue, begun_port]; exact hissue) (by rw [hqueue]; exact hhit)
      rw [hqueue] at hwrite
      rw [hexec, hwrite]
    · rw [hexec, writeCompletion_waits (by rw [hqueue]; exact honchip) (by rw [hqueue, begun_port]; exact hissue)
        (by rw [begun_qvol]; exact hstate)]

end Sys2Proof.Machine
end

section
/-!
The steps of multicasts, batches and Swings.
-/

namespace Sys2Proof.Machine

open Sys2Proof

/-! ### The command of a kind issues that kind's step (WI.1) -/

theorem answer_stepsOn {k q : Nat} {it : Item} {s x : State} (h : stepsOn s q k it) (h0 : k ≠ 0) (h11 : k ≤ 11)
    (hx : kindStep q it.begun (itemBegun s q it) = x) : answer s (serveKind k q) = .next (answered s x) :=
  answer_eq ((serveKind_ready h.1).trans ((serveItem_stepsOn h h0 h11).trans hx))

theorem begun_kind_of_stepsOn {k q : Nat} {it : Item} {s : State} (h : stepsOn s q k it) : it.begun.kind = k :=
  (begun_kind it).trans h.1.2.2.2.2

/-- The command of a kind goes on with the data that its item waited for. -/
theorem answer_arrived {k q : Nat} {it : Item} {bytes : List Byte} {s : State} (hwait : it.wait = .arrived bytes)
    (h : serves s q k it) : answer s (serveKind k q) = .next (answered s (itemData q it bytes
      ((begun s (stepIslands s q it)).modItem q it.slot fun it => { it with wait := .nothing }))) := by
  refine answer_eq ((serveKind_ready h).trans ?_)
  unfold serveItem
  rw [hwait]

/-! ### IPI_MULTICAST, ROUTE_BATCH and SWING (WI.2, WI.4, WI.5) -/

section
variable {q : Nat} {it : Item} {w : State}

theorem kindStep_ipi (h : it.kind = 1) : kindStep q it w = if it.step = 0 ∧ it.byte 17 = 2 then
    requestRead q it.slot (w.modItem q it.slot fun it => { it with step := 1 }) else ipiGroup q it w := by
  unfold kindStep ipiStep
  simp only [h, Bool.and_eq_true, decide_eq_true_eq]

theorem kindStep_batch (h : it.kind = 2) : kindStep q it w =
    if it.count = 0 then endItem q it.slot (okCode it.clamped) (leBytes 8 0) w
    else requestRead q it.slot (w.modItem q it.slot fun it => { it with step := 1 }) := by
  unfold kindStep batchStep endOk
  simp only [h]

theorem kindStep_swing (h : it.kind = 3) (hcommit : ¬ (it.count ≠ 0 ∧ it.step = 2 ∧ it.pos = it.count)) :
    kindStep q it w = swingStep q it w := by
  unfold kindStep
  simp only [h]
  exact if_neg (by simpa using hcommit)

theorem swingStep_none (h : it.count = 0) :
    swingStep q it w = endItem q it.slot (okCode it.clamped) (leBytes 8 w.dur.g.epoch) w := if_pos h

theorem swingStep_starts (hcount : it.count ≠ 0) (h : it.step = 0 ∧ w.dur.swing.owner = none ∨ it.step = 1) :
    swingStep q it w = requestRead q it.slot ((w.modDur fun d => { d with swing := { d.swing with
      owner := some (q, it.slot) } }).modItem q it.slot fun it => { it with step := 2 }) := by
  unfold swingStep
  rw [if_neg hcount, if_neg ?_, if_pos ?_]
  · rcases h with ⟨hstep, -⟩ | hstep <;> simp [hstep]
  · rcases h with ⟨hstep, hnone⟩ | hstep <;> simp [*]

theorem swingStep_reads (hstep : it.step = 2) (h : it.pos < it.count) :
    swingStep q it w = requestRead q it.slot w := by
  unfold swingStep
  rw [if_neg (by omega), if_neg (by simp [hstep]), if_neg (by omega), if_pos h]

end

/-- A change of an item changes only the queues of the durable state. -/
theorem modItem_dur (q slot : Nat) (f : Item → Item) (s : State) :
    (s.modItem q slot f).dur = { s.dur with queues := (s.modItem q slot f).dur.queues } := rfl

/-- What a free engine or a held one leaves. -/
@[simp] theorem releaseEngine_dur (q slot : Nat) (s : State) : (releaseEngine q slot s).dur = s.dur := by
  unfold releaseEngine
  split <;> rfl

@[simp] theorem releaseEngine_ledger (q slot : Nat) (s : State) : (releaseEngine q slot s).ledger = s.ledger := by
  unfold releaseEngine
  split <;> rfl

/-- A Swing that finds the staging area held waits for it, and changes neither its owner nor a source. -/
theorem swingStep_waits {q : Nat} {it : Item} {w : State} (hcount : it.count ≠ 0) (hstep : it.step = 0)
    (howned : w.dur.swing.owner.isSome = true) :
    let t := swingStep q it w
    t.dur.swing.waiting = w.dur.swing.waiting ++ [(q, it.slot)] ∧ t.dur.swing.owner = w.dur.swing.owner ∧
    t.dur.sources = w.dur.sources ∧ t.ledger = w.ledger := by
  intro t
  have ht : t = (yieldItem q it.slot ((w.modDur fun d => { d with swing := { d.swing with
      waiting := d.swing.waiting ++ [(q, it.slot)] } }).modItem q it.slot fun it =>
        { it with step := 1 })).modItem q it.slot fun it => { it with wait := .staging } := by
    simp only [t]
    unfold swingStep
    rw [if_neg hcount, if_pos (by simp [hstep, howned])]
  rw [ht]
  unfold yieldItem
  refine ⟨?_, ?_, ?_, by simp⟩ <;> rw [modItem_dur, releaseEngine_dur] <;> rfl

theorem itemBegun_kept (s : State) (q : Nat) (it : Item) :
    (itemBegun s q it).dur.swing = s.dur.swing ∧ (itemBegun s q it).dur.g = s.dur.g ∧
    (itemBegun s q it).dur.sources = s.dur.sources ∧ (itemBegun s q it).ledger = s.ledger := by
  unfold itemBegun
  split
  · refine ⟨?_, ?_, ?_, by simp⟩ <;> rw [modItem_dur, begun_dur]
  · simp

/-! ### The records of a batch (WI.4) -/

section
variable {q slot : Nat} {it : Item} {b : List Byte} {s : State}
  (hitem : (s.queue q).items.find? (fun it => it.slot == slot) = some it)
include hitem

theorem batchRecord_unordered {l : Nat} (hlast : it.lastSn = some l) (horder : (decodeRecord b).1.sn ≤ l) :
    batchRecord q slot (s, true) b = (endItem q slot 0x14 (countsResult it) s, false) := by
  unfold batchRecord
  simp only [hitem, hlast]
  exact if_pos (by simpa using horder)

variable (horder : ∀ l, it.lastSn = some l → l < (decodeRecord b).1.sn)
include horder

theorem batchRecord_ordered : batchRecord q slot (s, true) b =
    let refusal := recordRefusal s (s.queue q).room (decodeRecord b).1 (decodeRecord b).2
    ((if refusal.isNone then applyRoute (decodeRecord b).1 s else s).modItem q slot fun it => { it with
      pos := it.pos + 1
      lastSn := some (decodeRecord b).1.sn
      applied := if refusal.isNone then it.applied + 1 else it.applied
      refused := if refusal.isNone then it.refused else it.refused + 1 }, true) := by
  unfold batchRecord
  simp only [hitem]
  refine if_neg ?_
  cases hlast : it.lastSn with
  | none => simp
  | some l => simpa using horder l hlast

theorem batchRecord_applied
    (hrefusal : recordRefusal s (s.queue q).room (decodeRecord b).1 (decodeRecord b).2 = none) :
    batchRecord q slot (s, true) b = ((applyRoute (decodeRecord b).1 s).modItem q slot fun it => { it with
      pos := it.pos + 1, lastSn := some (decodeRecord b).1.sn, applied := it.applied + 1 }, true) := by
  rw [batchRecord_ordered hitem horder]
  simp [hrefusal]

theorem batchRecord_refused
    (hrefusal : recordRefusal s (s.queue q).room (decodeRecord b).1 (decodeRecord b).2 ≠ none) :
    batchRecord q slot (s, true) b = (s.modItem q slot fun it => { it with
      pos := it.pos + 1, lastSn := some (decodeRecord b).1.sn, refused := it.refused + 1 }, true) := by
  rw [batchRecord_ordered hitem horder]
  simp [hrefusal]

end

/-! ### The commands -/

theorem exec_swing {q : Fin 256} {s x : State} (hstaged : (stagedSwing s).any (fun p => p.1 == q.val) = false)
    (h : answer s (serveKind 3 q) = .next x) : exec (.swing q) s = .next x := by
  let runs : State → State := fun s => if (stagedSwing s).any (fun p => p.1 == q.val) then s else serveKind 3 q s
  have hruns : runs (cleared s) = serveKind 3 q (cleared s) := if_neg (by rw [Bool.not_eq_true]; exact hstaged)
  exact (answer_eq (f := runs) hruns).trans ((answer_eq rfl).symm.trans h)

/-- Settles O37: it holds. -/
theorem routeItemsStep : Obligations.RouteItemsStep := by
  unfold Obligations.RouteItemsStep
  refine ⟨fun q it s => ?_, fun q it bytes s hwait => ⟨?_, ?_, ?_⟩, fun q slot it b s hitem => ⟨?_, ?_⟩⟩
  · intro w
    obtain ⟨hswing, hglobal, hsources, hledger⟩ := itemBegun_kept s q it
    refine ⟨fun h => answer_stepsOn h (by decide) (by decide) ?_,
      fun h => answer_stepsOn h (by decide) (by decide) ?_, fun h hstaged => ⟨?_, ?_, ?_, ?_⟩⟩
    · simpa using kindStep_ipi (q := q.val) (w := w) (begun_kind_of_stepsOn h)
    · simpa using kindStep_batch (q := q.val) (w := w) (begun_kind_of_stepsOn h)
    all_goals have hkind := begun_kind_of_stepsOn h
    · intro hstep hcount
      refine exec_swing hstaged (answer_stepsOn h (by decide) (by decide) ?_)
      rw [kindStep_swing hkind (by simp [hcount]), swingStep_none hcount, begun_slot, hglobal]
    · intro hstep hcount howned
      refine ⟨_, exec_swing hstaged (answer_stepsOn h (by decide) (by decide) rfl), ?_⟩
      have hwaits := swingStep_waits (q := q.val) (w := w) hcount
        ((begun_step it).trans hstep) (by rw [hswing]; exact howned)
      rw [kindStep_swing hkind (by simp [hstep])]
      rw [begun_slot, hswing, hsources, hledger] at hwaits
      exact hwaits
    · intro hstarts
      refine exec_swing hstaged (answer_stepsOn h (by decide) (by decide) ?_)
      have hcount : it.begun.count ≠ 0 := by
        rcases hstarts with ⟨-, hcount, -⟩ | ⟨hstep, hcount⟩
        · exact hcount
        · rw [Item.begun, if_neg (by omega)]
          exact hcount
      rw [kindStep_swing hkind (by rw [begun_step]; omega), swingStep_starts hcount, begun_slot]
      rw [begun_step, hswing]
      exact hstarts.imp (fun h => ⟨h.1, h.2.2⟩) fun h => h.1
    · intro hstep hpos
      refine exec_swing hstaged (answer_stepsOn h (by decide) (by decide) ?_)
      have hbegun : it.begun = it := by rw [Item.begun, if_neg (by omega)]
      rw [hbegun] at hkind ⊢
      rw [kindStep_swing hkind (by omega), swingStep_reads hstep hpos]
  · exact fun h => answer_arrived hwait h
  · exact fun h => answer_arrived hwait h
  · exact fun h hstaged => exec_swing hstaged (answer_arrived hwait h)
  · exact fun ⟨l, hlast, horder⟩ => batchRecord_unordered hitem hlast horder
  · exact fun horder => ⟨batchRecord_applied hitem horder, batchRecord_refused hitem horder⟩

end Sys2Proof.Machine
end

section
/-!
The commit of a Swing, the end of its fold, and the timers.
-/

namespace Sys2Proof.Machine

open Sys2Proof

/-! ### The commit of a Swing and the end of its fold (WI.5) -/

@[simp] theorem releaseEngine_nv (q slot : Nat) (s : State) : (releaseEngine q slot s).nv = s.nv := by
  unfold releaseEngine
  split <;> rfl

@[simp] theorem releaseEngine_keeper (q slot : Nat) (s : State) : (releaseEngine q slot s).keeper = s.keeper := by
  unfold releaseEngine
  split <;> rfl

/-- The end of an item changes only the queues of the durable state, and no store. -/
theorem endItem_kept (q slot code : Nat) (result : List Byte) (s : State) :
    let t := endItem q slot code result s
    t.dur = { s.dur with queues := t.dur.queues } ∧ t.nv = s.nv ∧ t.ledger = s.ledger ∧ t.keeper = s.keeper := by
  unfold endItem
  refine ⟨?_, by simp, by simp, by simp⟩
  rw [releaseEngine_dur, modItem_dur]

/-- The staged routes applied at the new epoch (R478). -/
def swingApplied (w : State) : State :=
  w.dur.swing.staged.foldl (fun s n => applyRoute n s) (w.modG fun g => { g with epoch := g.epoch + 1 })

theorem swingApplied_bankStep (w : State) :
    BankStep (w.modG fun g => { g with epoch := g.epoch + 1 }) (swingApplied w) :=
  .foldl (fun s n => applyRoute_bankStep s n) _ _

theorem swingCommit_spec (q : Nat) (it : Item) (w : State) :
    let t := swingCommit q it w
    t.dur.g.epoch = w.dur.g.epoch + 1 ∧ t.dur.swing.staged = [] ∧ t.dur.swing.folding = true ∧
    t.dur.swing.owner = w.dur.swing.owner ∧ t.dur.sources = (swingApplied w).dur.sources ∧
    t.nv = w.nv ∧ t.ledger = w.ledger ∧ t.keeper = w.keeper := by
  intro t
  have hstep := swingApplied_bankStep w
  unfold BankStep at hstep
  obtain ⟨hdur, hnv, hledger, hkeeper⟩ := endItem_kept q it.slot (okCode it.clamped)
    (leBytes 8 (swingApplied w).dur.g.epoch)
    (((swingApplied w).modDur fun d => { d with swing := { d.swing with staged := [], folding := true } }).modItem
      q it.slot fun it => { it with step := 3 })
  rw [modItem_dur] at hdur
  have hg : (swingApplied w).dur.g.epoch = w.dur.g.epoch + 1 := by rw [hstep]; rfl
  have howner : (swingApplied w).dur.swing.owner = w.dur.swing.owner := by rw [hstep]; rfl
  refine ⟨(congrArg (·.g.epoch) hdur).trans hg, congrArg (·.swing.staged) hdur, congrArg (·.swing.folding) hdur,
    (congrArg (·.swing.owner) hdur).trans howner, congrArg (·.sources) hdur, hnv.trans ?_, hledger.trans ?_,
    hkeeper.trans ?_⟩
  · simp only [State.modItem_nv, State.modDur_nv]; rw [hstep]; rfl
  · simp only [State.modItem_ledger, State.modDur_ledger]; rw [hstep]; rfl
  · simp only [State.modItem_keeper, State.modDur_keeper]; rw [hstep]; rfl

theorem exec_swingCommit {q : Nat} {it : Item} {s : State} (hstaged : stagedSwing s = some (q, it))
    (hserved : servedQueue s (q / 16) = some q)
    (hready : islandsReady s (idQueue (q / 16) :: (List.range 32).map idBank) = true) (hroom : roomToDirty s) :
    exec .swingCommit s = .next (answered s
      (swingCommit q it (begun s (idQueue (q / 16) :: (List.range 32).map idBank)))) := by
  change execSwingCommit s = _
  refine answer_eq ?_
  rw [show stagedSwing (cleared s) = some (q, it) from hstaged]
  refine (if_pos ?_).trans ((onIslands_ready (s := cleared s) _ hready).trans (guarded_room _ (room_begun _ hroom)))
  exact beq_iff_eq.mpr hserved

theorem releaseStaging_spec (s : State) :
    let t := releaseStaging s
    t.dur = { s.dur with
      queues := t.dur.queues
      swing := { s.dur.swing with
        owner := s.dur.swing.waiting.head?, waiting := s.dur.swing.waiting.tail, staged := [], folding := false } } ∧
    t.nv = s.nv ∧ t.ledger = s.ledger := by
  unfold releaseStaging
  dsimp only
  rw [List.drop_one]
  split <;> exact ⟨rfl, rfl, rfl⟩

/-- Settles O38: it holds. -/
theorem swingCommitsAtOneEpoch : Obligations.SwingCommitsAtOneEpoch := by
  unfold Obligations.SwingCommitsAtOneEpoch
  refine ⟨fun q it s hstaged hserved hready hroom => ?_, fun s hruns hfolds => ?_⟩
  · intro w
    refine ⟨_, exec_swingCommit hstaged hserved hready hroom, rfl, ?_⟩
    have hspec := swingCommit_spec q it w
    have happlied : swingApplied w = s.dur.swing.staged.foldl (fun s n => applyRoute n s)
        (w.modG fun g => { g with epoch := g.epoch + 1 }) := by
      unfold swingApplied
      rw [begun_dur]
    rw [← happlied]
    rw [begun_dur, begun_nv, begun_ledger, begun_keeper] at hspec
    exact hspec
  · have hexec : exec .swingFoldEnd s = .next (answered s (releaseStaging (cleared s))) :=
      answer_eq (if_pos (Bool.and_eq_true_iff.mpr ⟨hruns, hfolds⟩))
    obtain ⟨hdur, hnv, hledger⟩ := releaseStaging_spec (cleared s)
    refine ⟨hexec, _, hexec, congrArg (·.swing.owner) hdur, congrArg (·.swing.waiting) hdur,
      congrArg (·.swing.folding) hdur, congrArg (·.swing.staged) hdur, congrArg (·.sources) hdur, hnv, hledger⟩

/-! ### Timers (WI.6) -/

section
variable {q : Nat} {it : Item} {w : State}

theorem kindStep_timerArm (h : it.kind = 4) : kindStep q it w = endItem q it.slot (okCode it.clamped)
    (leBytes 4 (b2n (timerArmed w (it.byte 16))) ++ leBytes 4 0) (setTimer (it.byte 16)
      { due := w.now + 1000 * max 1 (fieldAt it.entry 20 4)
        period := if it.byte 17 = 1 then some (1000 * max 10 (fieldAt it.entry 24 4)) else none } w) := by
  unfold kindStep timerArmStep endOk
  simp only [h]

theorem kindStep_timerCancel (h : it.kind = 5) : kindStep q it w = endItem q it.slot (okCode it.clamped)
    (leBytes 4 (b2n (timerArmed w (it.byte 16))) ++ leBytes 4 0) (setTimer (it.byte 16) .off w) := by
  unfold kindStep timerCancelStep endOk
  simp only [h]

end

theorem itemBegun_timers (s : State) (q : Nat) (it : Item) :
    (itemBegun s q it).dur.timers = s.dur.timers ∧ (itemBegun s q it).now = s.now := by
  unfold itemBegun
  split
  · rw [modItem_dur, begun_dur]
    exact ⟨rfl, by simp⟩
  · simp

/-- Settles O39: it holds. -/
theorem timersRun : Obligations.TimersRun := by
  unfold Obligations.TimersRun
  refine ⟨fun q it s => ?_, fun k s hready harmed hheld => ?_⟩
  · intro it' result
    obtain ⟨htimers, hnow⟩ := itemBegun_timers s q it
    have harmed (t : Nat) : timerArmed (itemBegun s q it) t = timerArmed s t := by
      unfold timerArmed
      rw [htimers]
    refine ⟨fun h => answer_stepsOn h (by decide) (by decide) ?_,
      fun h => answer_stepsOn h (by decide) (by decide) ?_⟩
    · rw [kindStep_timerArm (begun_kind_of_stepsOn h), harmed, hnow]
      simp only [begun_byte, begun_entry, begun_slot]
      rfl
    · rw [kindStep_timerCancel (begun_kind_of_stepsOn h), harmed]
      simp only [begun_byte, begun_slot]
      rfl
  · intro v
    change execTimerExpiry k s = _
    refine answer_eq ((onIslands_ready (s := cleared s) _ hready).trans ?_)
    dsimp only
    rw [busyAll_dur, busyAll_durab]
    refine if_neg ?_
    have hset : mget Timer.off s.dur.timers k ≠ Timer.off := by simpa [timerArmed] using harmed
    simpa [cleared, hset] using hheld

end Sys2Proof.Machine
end

section
/-!
The steps of the memory items and of the Room items.
-/

namespace Sys2Proof.Machine

open Sys2Proof

/-! ### The state in which an item's step has its effect -/

theorem items_ne_nil_of_nextStep {s : State} {q : Nat} {it : Item} (h : nextStep s q = some it) :
    (s.queue q).items ≠ [] := fun hnil => by
  have hcurrent : currentItem (s.queue q) = none := by simp [currentItem, hnil]
  have hengine : engineItem s q = none := by
    unfold engineItem
    split
    · simp [hnil]
    · rfl
  unfold nextStep at h
  rw [hengine] at h
  simp [hcurrent] at h

/-- A queue whose items change at one slot reads back. -/
theorem queue_modItem {s : State} {q slot : Nat} {f : Item → Item} (h : (s.queue q).items ≠ []) :
    (s.modItem q slot f).queue q = { s.queue q with
      items := (s.queue q).items.map fun it => if it.slot == slot then f it else it } := by
  exact mget_mput_of_ne (fun heq => h (List.map_eq_nil_iff.mp (congrArg Queue.items heq))) _ _

@[simp] theorem modItem_port (s : State) (q slot : Nat) (f : Item → Item) (p : Port) :
    (s.modItem q slot f).port p = s.port p := by
  cases p <;> rfl

/-- What the first step of an item, beginning, leaves of its queue: its port, its Room and its first item's slot. -/
structure QueueBegun (d d' : Queue) : Prop where
  port : d'.port = d.port
  room : d'.room = d.room
  mode : d'.modeC = d.modeC
  head : d'.items.head?.map Item.slot = d.items.head?.map Item.slot

theorem itemBegun_queue {s : State} {q : Nat} (it : Item) (h : (s.queue q).items ≠ []) :
    QueueBegun (s.queue q) ((itemBegun s q it).queue q) := by
  unfold itemBegun
  split
  next hstep =>
    rw [queue_modItem (by rw [begun_queue]; exact h), begun_queue]
    refine ⟨rfl, rfl, rfl, ?_⟩
    cases (s.queue q).items with
    | nil => rfl
    | cons x xs =>
      simp only [List.map_cons, List.head?_cons, Option.map_some]
      split
      next hslot => exact congrArg some (beq_iff_eq.mp hslot).symm
      · rfl
  · rw [begun_queue]
    exact ⟨rfl, rfl, rfl, rfl⟩

theorem queueBegun_of_stepsOn {s : State} {q k : Nat} {it : Item} (h : stepsOn s q k it) :
    QueueBegun (s.queue q) ((itemBegun s q it).queue q) :=
  itemBegun_queue it (items_ne_nil_of_nextStep h.1.2.2.2.1)

section
variable (s : State) (q : Nat) (it : Item)

@[simp] theorem itemBegun_ledger : (itemBegun s q it).ledger = s.ledger := (itemBegun_kept s q it).2.2.2

@[simp] theorem itemBegun_xlate : (itemBegun s q it).xlate = s.xlate := by
  unfold itemBegun
  split <;> simp

@[simp] theorem itemBegun_port (p : Port) : (itemBegun s q it).port p = s.port p := by
  unfold itemBegun
  split <;> cases p <;> simp [State.port]

end

theorem isHead_itemBegun {s : State} {q k : Nat} {it : Item} (h : stepsOn s q k it) :
    isHead (itemBegun s q it) q it.begun = isHead s q it := by
  unfold isHead
  rw [(queueBegun_of_stepsOn h).head, begun_slot]

theorem begun_pieces (it : Item) : it.begun.pieces = it.pieces := by
  unfold Item.begun
  split <;> rfl

theorem fenceGoesOn_itemBegun {s : State} {q k : Nat} {it : Item} (h : stepsOn s q k it) :
    stepGoesOn (itemBegun s q it) q { it.begun with wait := .earlier } =
      stepGoesOn s q { it.begun with wait := .earlier } := by
  have hhead : isHead (itemBegun s q it) q { it.begun with wait := .earlier } =
      isHead s q { it.begun with wait := .earlier } := by
    unfold isHead
    rw [(queueBegun_of_stepsOn h).head]
  have hfence (n : Nat) : fencePieces (itemBegun s q it) ((itemBegun s q it).queue q).port n =
      fencePieces s (s.queue q).port n := by
    unfold fencePieces
    rw [(queueBegun_of_stepsOn h).port, itemBegun_ledger]
  unfold stepGoesOn
  dsimp only
  rw [hhead, hfence]

/-! ### LEDGER_APPEND (WI.7) -/

@[simp] theorem begun_appendLength (it : Item) : appendLength it.begun = appendLength it := by simp [appendLength]
@[simp] theorem begun_appendOffset (it : Item) : appendOffset it.begun = appendOffset it := by simp [appendOffset]
@[simp] theorem begun_storeLength (it : Item) : storeLength it.begun = storeLength it := by simp [storeLength]
@[simp] theorem begun_reassignCount (it : Item) : reassignCount it.begun = reassignCount it := by
  simp [reassignCount]

section
variable {q : Nat} {it : Item} {w : State}

theorem kindStep_append (h : it.kind = 6) : kindStep q it w = appendStep q it w := by
  unfold kindStep
  simp only [h]

theorem appendStep_none (h : appendLength it = 0) : appendStep q it w =
    endItem q it.slot (okCode it.clamped) (leBytes 4 (appendOffset it) ++ leBytes 4 0) w := if_pos h

theorem appendStep_first (h : appendLength it ≠ 0) (hstep : it.step = 0) : appendStep q it w =
    if bit it.flags 2 then w.modItem q it.slot fun x => { x with
      step := 1, pos := appendLength it, count := appendLength it, data := bytesAt x.entry 32 (appendLength it) }
    else requestRead q it.slot (w.modItem q it.slot fun x => { x with step := 1, count := appendLength it }) :=
  (if_neg h).trans (if_pos hstep)

theorem appendStep_pieces (h : appendLength it ≠ 0) (hstep : it.step ≠ 0) : appendStep q it w =
    let ps := piecesOf w.ledger.nextPiece (w.queue q).port (appendOffset it) it.data
      (List.replicate (appendLength it) true) (some (q, it.slot))
    let x := w.modItem q it.slot fun x => { x with
      step := 3, issued := true, wait := .pieces, denied := w.ledger.closed }
    if x.ledger.closed then x.modLedger fun l =>
      { l with denied := l.denied.set (w.queue q).port (satAdd 64 (l.denied.get (w.queue q).port) ps.length) }
    else enterStream ps x :=
  (if_neg h).trans (if_neg hstep)

/-! ### FENCE (WI.8) -/

theorem kindStep_fence (h : it.kind = 7) : kindStep q it w =
    if bit (it.byte 16) 0 then
      if stepGoesOn w q { it with wait := .earlier } then
        endItem q it.slot (if it.denied then 0x11 else 1) (leBytes 8 0) w
      else waitEarlier q it.slot w
    else if bit (it.byte 16) 1 then w.modItem q it.slot fun x =>
      { x with step := 1, issued := true, wait := .pieces }
    else endItem q it.slot (okCode it.clamped) (leBytes 8 0)
      (w.modItem q it.slot fun x => { x with step := 1 }) := by
  unfold kindStep
  simp only [h]
  rfl

/-! ### HOST_STORE (WI.9) -/

theorem kindStep_store (h : it.kind = 8) : kindStep q it w = storeStep q it w := by
  unfold kindStep
  simp only [h]

theorem storeStep_none (h : storeLength it = 0) :
    storeStep q it w = endItem q it.slot (okCode it.clamped) (leBytes 8 0) w := if_pos h

theorem storeStep_waits (h : storeLength it ≠ 0) (hhead : isHead w q it = false) :
    storeStep q it w = waitEarlier q it.slot w :=
  (if_neg h).trans (if_pos (by simp [hhead]))

theorem storeStep_held (h : storeLength it ≠ 0) (hhead : isHead w q it = true)
    (hissue : (w.port (w.queue q).port).canIssue = false) : storeStep q it w =
    ((w.modItem q it.slot fun x => { x with step := 2 }).holdEngine q it.slot).modItem q it.slot fun x =>
      { x with wait := .port } :=
  (if_neg h).trans ((if_neg (by simp [hhead])).trans (if_pos (by simp [hissue])))

theorem storeStep_passes {x : State} {a : Nat} (h : storeLength it ≠ 0) (hhead : isHead w q it = true)
    (hissue : (w.port (w.queue q).port).canIssue = true)
    (hhit : translate { room := (w.queue q).room, iova := fieldAt it.entry 16 6, write := true,
                        use := .hostStore q it.slot } (storeLength it)
      (w.modItem q it.slot fun x => { x with step := 2 }) = (x, .hit a)) :
    storeStep q it w = passStore q { it with step := 2 } a x := by
  unfold storeStep
  dsimp only
  rw [if_neg h, if_neg (by simp [hhead]), if_neg (by simp [hissue]),
    show storeLength { it with step := 2 } = storeLength it from rfl, hhit]

/-! ### CHECKPOINT (WI.10) -/

theorem kindStep_checkpoint (h : it.kind = 9) : kindStep q it w =
    let x := w.modItem q it.slot fun x => { x with step := 2, issued := true, wait := .root }
    requestRoot { x with durab := { x.durab with ckptItems := x.durab.ckptItems ++ [(q, it.slot)] } } := by
  unfold kindStep
  simp only [h]
  rfl

end

/-- Settles O40: it holds. -/
theorem memoryItemsStep : Obligations.MemoryItemsStep := by
  unfold Obligations.MemoryItemsStep
  refine ⟨fun q it s => ?_, fun q it s => ?_⟩
  · intro it' w pieces
    refine ⟨fun h hnone => ?_, fun h hsome hstep => ?_, fun h hsome hstep => ?_, fun h => ?_⟩
    · refine answer_stepsOn h (by decide) (by decide) ?_
      rw [kindStep_append (begun_kind_of_stepsOn h), appendStep_none (by simpa using hnone), begun_slot,
        begun_appendOffset]
    · refine answer_stepsOn h (by decide) (by decide) ?_
      rw [kindStep_append (begun_kind_of_stepsOn h), appendStep_first (by simpa using hsome) (by simpa using hstep),
        begun_slot, begun_appendLength, begun_flags]
    · intro x
      refine answer_stepsOn h (by decide) (by decide) ?_
      rw [kindStep_append (begun_kind_of_stepsOn h), appendStep_pieces (by simpa using hsome) (by simpa using hstep),
        begun_slot, begun_appendLength, begun_appendOffset, begun_data, itemBegun_ledger,
        (queueBegun_of_stepsOn h).port]
      dsimp only
      rw [State.modItem_ledger, itemBegun_ledger]
    · refine answer_stepsOn h (by decide) (by decide) ?_
      rw [kindStep_fence (begun_kind_of_stepsOn h), fenceGoesOn_itemBegun h]
      simp only [it', w, begun_slot, begun_byte, begun_denied]
  · intro it' w
    have hissue (h : stepsOn s q 8 it) :
        (w.port (w.queue q).port).canIssue = (s.port (s.queue q).port).canIssue := by
      rw [itemBegun_port, (queueBegun_of_stepsOn h).port]
    refine ⟨fun h hnone => ?_, fun h hsome hhead => ?_, fun h hsome hhead => ?_, fun h => ?_⟩
    · refine answer_stepsOn h (by decide) (by decide) ?_
      rw [kindStep_store (begun_kind_of_stepsOn h), storeStep_none (by simpa using hnone), begun_slot]
    · refine answer_stepsOn h (by decide) (by decide) ?_
      rw [kindStep_store (begun_kind_of_stepsOn h), storeStep_waits (by simpa using hsome)
        ((isHead_itemBegun h).trans hhead), begun_slot]
    · intro y
      refine ⟨fun hheld => ?_, fun x a hissues hhit => ?_⟩
      all_goals
        refine answer_stepsOn h (by decide) (by decide) ?_
        rw [kindStep_store (begun_kind_of_stepsOn h)]
      · rw [storeStep_held (by simpa using hsome) ((isHead_itemBegun h).trans hhead) ((hissue h).trans hheld),
          begun_slot]
      · refine storeStep_passes (by simpa using hsome) ((isHead_itemBegun h).trans hhead)
          ((hissue h).trans hissues) ?_
        rw [(queueBegun_of_stepsOn h).room, begun_entry, begun_slot, begun_storeLength]
        exact hhit
    · refine answer_stepsOn h (by decide) (by decide) ?_
      rw [kindStep_checkpoint (begun_kind_of_stepsOn h), begun_slot]

/-! ### ROOM_REASSIGN and XLATE_INVALIDATE (WI.11, WI.12) -/

section
variable {q : Nat} {it : Item} {w : State}

theorem kindStep_reassign (h : it.kind = 10) : kindStep q it w = reassignStep q it w := by
  unfold kindStep
  simp only [h]

theorem reassignStep_none (h : reassignCount it = 0 ∨ it.byte 17 = it.byte 18) :
    reassignStep q it w = endItem q it.slot (okCode it.clamped) (leBytes 8 0) w := if_pos (by simpa using h)

/-- A ROOM_REASSIGN after its next numbers have moved. -/
def reassigned (q : Nat) (it : Item) (w : State) : State :=
  let upto := min (reassignCount it) (it.pos + 512)
  (((List.range (upto - it.pos)).map (· + (fieldAt it.entry 20 4 + it.pos))).foldl
    (reassignOne q it.slot (it.byte 16) (it.byte 17) (it.byte 18)) w).modItem q it.slot
      fun x => { x with step := 1, pos := upto }

theorem reassigned_begun : reassigned q it.begun w = reassigned q it w := by
  unfold reassigned
  simp only [begun_slot, begun_reassignCount, begun_pos, begun_entry, begun_byte]

variable (hcount : reassignCount it ≠ 0) (hrooms : it.byte 17 ≠ it.byte 18)
include hcount hrooms

theorem reassignStep_more (h : it.pos + 512 < reassignCount it) : reassignStep q it w = reassigned q it w := by
  unfold reassignStep
  exact (if_neg (by simp [hcount, hrooms])).trans (if_pos (by omega))

theorem reassignStep_last {x : Item} (h : reassignCount it ≤ it.pos + 512)
    (hitem : ((reassigned q it w).queue q).items.find? (fun x => x.slot == it.slot) = some x) :
    reassignStep q it w = endItem q x.slot (if x.refused ≠ 0 then 0x13 else okCode x.clamped) (countsResult x)
      (reassigned q it w) := by
  unfold reassignStep
  refine (if_neg (by simp [hcount, hrooms])).trans ((if_neg (by omega)).trans ?_)
  unfold reassigned at hitem
  dsimp only at hitem
  rw [hitem]
  rfl

end

theorem kindStep_xlateInvalidate {q : Nat} {it : Item} {w : State} (h : it.kind = 11) : kindStep q it w =
    if it.byte 17 = 1 ∧ fieldAt it.entry 24 4 = 0 then endItem q it.slot (okCode it.clamped) (leBytes 8 0) w
    else invalidate (it.byte 16)
      (if it.byte 17 = 1 then some (fieldAt it.entry 18 6 / 4096, fieldAt it.entry 24 4) else none)
      (some (q, it.slot)) (w.modItem q it.slot fun x => { x with
        step := 2, issued := true, wait := .fence (w.xlate.issued + 1).toNat }) := by
  unfold kindStep xlateInvalidateStep endOk
  simp only [h, Bool.and_eq_true, decide_eq_true_eq]

/-- Settles O41: it holds. -/
theorem roomItemsStep : Obligations.RoomItemsStep := by
  unfold Obligations.RoomItemsStep
  intro q it s it' w upto moved
  refine ⟨fun h hnone => ?_, fun h hcount hrooms => ⟨fun hmore => ?_, fun x hlast hitem => ?_⟩, fun h => ?_⟩
  all_goals
    refine answer_stepsOn h (by decide) (by decide) ?_
    have hkind := begun_kind_of_stepsOn h
  · rw [kindStep_reassign hkind, reassignStep_none (by simpa using hnone), begun_slot]
  · rw [kindStep_reassign hkind, reassignStep_more (by simpa using hcount) (by simpa using hrooms)
      (by simpa using hmore), reassigned_begun]
    rfl
  · rw [kindStep_reassign hkind]
    have hmoved : reassigned q it.begun w = moved := reassigned_begun
    rw [← hmoved] at hitem ⊢
    exact reassignStep_last (by simpa using hcount) (by simpa using hrooms) (by simpa using hlast)
      (by rw [begun_slot]; exact hitem)
  · rw [kindStep_xlateInvalidate hkind, itemBegun_xlate]
    simp only [it', w, begun_slot, begun_byte, begun_entry]

end Sys2Proof.Machine
end

section
/-!
Faults recorded and consumed.
-/

namespace Sys2Proof.Machine

open Sys2Proof

/-! ### A fault's record (TF.8) -/

section
variable (r : FaultRec) (s : State)

theorem recordFault_room (h : s.dur.faults.count < 4096) :
    (recordFault r s).dur = { s.dur with faults := { s.dur.faults with
      recs := mput .zero s.dur.faults.head
        { r with epoch := s.dur.g.epoch, sequence := (s.dur.faults.sequence + 1) % 2 ^ 32 } s.dur.faults.recs
      head := (s.dur.faults.head + 1) % 4096
      count := s.dur.faults.count + 1
      sequence := (s.dur.faults.sequence + 1) % 2 ^ 32 } } := by
  unfold recordFault
  dsimp only
  rw [if_pos h]
  split <;> simp

theorem recordFault_full (h : 4096 ≤ s.dur.faults.count) :
    (recordFault r s).dur = { s.dur with faults := { s.dur.faults with
      overflow := satAdd 64 s.dur.faults.overflow 1 } } := by
  unfold recordFault
  dsimp only
  rw [if_neg (Nat.not_lt.mpr h)]
  split <;> simp

theorem mgmtEvent_mgmt (p : PortState) : (p.mgmt 3).mgmtEvent.getLsbD 3 = true := by
  simp [PortState.mgmt]

theorem recordFault_kept :
    let t := recordFault r s
    t.xlate.faultCount = mmod 0 s.xlate.faultCount r.room (satAdd 64 · 1) ∧
    t.portA.mgmtEvent.getLsbD 3 = true ∧ t.portB.mgmtEvent.getLsbD 3 = true ∧
    t.ledger = s.ledger ∧ t.nv = s.nv ∧ t.keeper = s.keeper := by
  unfold recordFault
  dsimp only
  split <;> split <;> simp [State.mgmt, mgmtEvent_mgmt]

theorem reportFault_entered (hroom : roomToDirty s) (h : s.xlate.heldFaults = []) :
    reportFault r s = recordFault r s := by
  unfold reportFault
  exact if_pos (by simp [h, heldBanks_room _ hroom])

theorem reportFault_waits (h : s.xlate.heldFaults ≠ []) (hheld : heldBanks s (recordFault r s) = []) :
    reportFault r s =
      throttleEngage [] { s with xlate := { s.xlate with heldFaults := s.xlate.heldFaults ++ [r] } } := by
  unfold reportFault
  dsimp only
  rw [hheld]
  exact if_neg (by simp [h])

/-! ### FL_CONSUME -/

theorem consumeFaults_kept (n : Nat) :
    let t := consumeFaults n s
    t.dur.faults.count = s.dur.faults.count - min n s.dur.faults.count ∧
    (0 < n → 0 < s.dur.faults.count →
      t.dur.faults.tail = (s.dur.faults.tail + min n s.dur.faults.count) % 4096) ∧
    t.dur.faults.head = s.dur.faults.head ∧ t.dur.faults.overflow = s.dur.faults.overflow ∧
    t.dur.sources = s.dur.sources ∧ t.nv = s.nv ∧ t.ledger = s.ledger ∧ t.keeper = s.keeper := by
  unfold consumeFaults
  dsimp only
  split
  next h => exact ⟨by omega, fun hn hcount => by omega, rfl, rfl, rfl, rfl, rfl, rfl⟩
  · exact ⟨rfl, fun _ _ => rfl, rfl, rfl, rfl, rfl, rfl, rfl⟩

end

theorem exec_flConsume {r : Req} {v : Word} {s : State} (hopen : writeOpen s r [idManagement] [] = true)
    (hroom : roomToDirty s)
    (hjudge : judgeWrite s r false .faultConsume 0 (valueBytes r .faultConsume 13 v.toNat) = none) :
    exec (.flConsume r v) s = .next (answered s ((consumeFaults
      (clamp 0 4096 (leNat (valueBytes r .faultConsume 13 v.toNat))) (written s r [idManagement] [])).clampedBy r
        (Obj.faultConsume.clamps (valueBytes r .faultConsume 13 v.toNat)))) :=
  answer_eq (viaRegister_taken (by decide) rfl (fun _ => rfl) (fun _ _ => rfl) rfl (List.nodup_singleton _) rfl
    (fun _ _ => rfl) hopen hroom hjudge)

/-- Settles O42: it holds. -/
theorem faultsAreRecordedAndConsumed : Obligations.FaultsAreRecordedAndConsumed := by
  unfold Obligations.FaultsAreRecordedAndConsumed
  refine ⟨fun r s hroom hnone => ?_, fun r s hheld hbanks => reportFault_waits r s hheld hbanks,
    fun r v s hopen hroom => ?_⟩
  · intro t f
    have ht : t = recordFault r s := reportFault_entered r s hroom hnone
    obtain ⟨hcount, ha, hb, hledger, hnv, hkeeper⟩ := recordFault_kept r s
    have hsources : (recordFault r s).dur.sources = s.dur.sources := by
      rcases Nat.lt_or_ge s.dur.faults.count 4096 with h | h
      · rw [recordFault_room r s h]
      · rw [recordFault_full r s h]
    rw [ht]
    refine ⟨hcount, ha, hb, hledger, hnv, hkeeper, hsources, fun h => ?_, fun h => ?_⟩
    · rw [recordFault_room r s h]
      exact ⟨rfl, rfl, rfl, rfl, rfl⟩
    · rw [recordFault_full r s h]
      exact ⟨rfl, rfl, rfl⟩
  · intro bs hjudge
    have hkept := consumeFaults_kept (written s r [idManagement] []) (clamp 0 4096 (leNat bs))
    dsimp only at hkept
    have hwritten : (written s r [idManagement] []).dur = s.dur ∧ (written s r [idManagement] []).nv = s.nv ∧
        (written s r [idManagement] []).ledger = s.ledger ∧ (written s r [idManagement] []).keeper = s.keeper := by
      unfold written
      simp
    obtain ⟨hdur, hnv, hledger, hkeeper⟩ := hwritten
    rw [hdur, hnv, hledger, hkeeper] at hkept
    obtain ⟨hcount, htail, hrest⟩ := hkept
    refine ⟨_, exec_flConsume hopen hroom hjudge, ?_⟩
    simp only [answered_dur, answered_nv, answered_ledger, answered_keeper, State.clampedBy_dur, State.clampedBy_nv,
      State.clampedBy_ledger, State.clampedBy_keeper]
    refine ⟨hcount, fun hn => htail ?_, hrest⟩
    unfold clamp
    split_ifs <;> omega

end Sys2Proof.Machine
end

section
/-!
The ends of host reads and of table reads.
-/

namespace Sys2Proof.Machine

open Sys2Proof

/-! ### The host reads of items (TF.6) -/

theorem begun_readingItem (s : State) (ids : List Nat) (q : Nat) : readingItem (begun s ids) q = readingItem s q := by
  unfold readingItem
  simp only [begun_port, begun_queue]

theorem busyAll_readingItem (s : State) (ids : List Nat) (q : Nat) :
    readingItem (busyAll s ids) q = readingItem s q := by
  rw [busyAll_frame]
  rfl

section
variable {q : Fin 256} {it : Item} {s : State} (hready : islandsReady s [idQueue (q.val / 16)] = true)
  (hreading : readingItem s q = some it)
include hready hreading

theorem exec_hostReadComplete (res : HostRead) : exec (.hostReadComplete q res) s = .next (answered s
    (readGoesOn q (match res with
      | .data bytes => (begun s [idQueue (q.val / 16)]).modItem q it.slot fun it => { it with wait := .arrived bytes }
      | _ => itemFault q it.slot 4 (nextRead it).1 fHostError 0xFF (begun s [idQueue (q.val / 16)])))) := by
  refine answer_eq (congrArg (readGoesOn q)
    ((readArrives_ready (s := cleared s) _ _ _ (List.nodup_singleton _) hready).trans ?_))
  change itemReadEnds q res (begun s [idQueue (q.val / 16)]) = _
  unfold itemReadEnds
  cases res <;> simp only [begun_readingItem, hreading]

end

theorem readGoesOn_serves {q : Nat} {it : Item} {bytes : List Byte} {s : State} (h : serves s q it.kind it)
    (hwait : it.wait = .arrived bytes) : readGoesOn q s = itemData q it bytes
      ((busyAll s (stepIslands s q it)).modItem q it.slot fun it => { it with wait := .nothing }) := by
  unfold readGoesOn
  rw [h.2.2.2.1]
  dsimp only
  rw [hwait]
  dsimp only
  rw [serveStep_ready h]
  unfold serveItem
  rw [hwait]

/-- The state at which a read that was issued may time out. -/
def timedOut (p : Port) (issued : Nat) (s : State) : State :=
  (cleared s).elapseTo (issued + (completionTimeout (s.port p).cto).1)

theorem exec_hostReadTimeout {read : HostReadId} {p : Port} {issued : Nat} {s : State}
    (h : readIssued s read = some (p, issued)) :
    exec (.hostReadTimeout read) s = .next (answered s (readTimesOut read (timedOut p issued s))) := by
  change execHostReadTimeout read s = _
  refine answer_eq ?_
  rw [show readIssued (cleared s) read = some (p, issued) from h]
  dsimp only
  rw [cleared_port]
  rfl

theorem readTimesOut_item {q : Fin 256} {it : Item} {x : State} (hready : islandsReady x [idQueue (q.val / 16)] = true)
    (hlost : (x.queue q).items.find? (fun it => it.wait == .readLost) = none) (hreading : readingItem x q = some it) :
    readTimesOut (.itemRead q) x =
      itemFault q it.slot 4 (nextRead it).1 fHostError 0xFF (busyAll x [idQueue (q.val / 16)]) := by
  refine (onArrival_ready _ (List.nodup_singleton _) hready).trans ?_
  unfold itemReadTimeout
  rw [show (busyAll x [idQueue (q.val / 16)]).queue q = x.queue q by rw [busyAll_frame]; rfl, hlost]
  dsimp only
  rw [busyAll_readingItem, hreading]

theorem readTimesOut_ring {q : Fin 256} {slot : Nat} {f : Fetch} {rest : List Fetch} {x : State}
    (hready : islandsReady x [idQueue (q.val / 16)] = true)
    (hwaits : ringReadWaits x q slot < ((x.qvol q).fetches.filter fun f => f.slot == slot && f.sent).length)
    (htaken : takeFirst (fun f => f.slot == slot && f.sent) (x.qvol q).fetches = some (f, rest))
    (hdropped : f.dropped = false) :
    readTimesOut (.ringFetch q slot) x = fetchFault q slot f.owned fHostError 0xFF
      ((busyAll x [idQueue (q.val / 16)]).modQVol q fun v => { v with fetches := rest }) := by
  refine (onArrival_ready _ (List.nodup_singleton _) hready).trans ?_
  unfold fetchReturns
  dsimp only
  rw [show ringReadWaits (busyAll x [idQueue (q.val / 16)]) q slot = ringReadWaits x q slot by
      rw [busyAll_frame]; rfl,
    show (busyAll x [idQueue (q.val / 16)]).qvol q = x.qvol q by rw [busyAll_frame]; rfl,
    if_neg (Nat.not_le.2 hwaits), htaken]
  exact if_neg (by simp [hdropped])

/-! ### A walk's table reads (TF.1, TF.2) -/

/-- A walk has ended with what it gives: its request goes on and the waiting requests are granted. -/
def walkEnded (i : Nat) (w : Walk) (y : State) (out : Xlated) : State :=
  let z := resumeUse w.req w.stale out (endWalk i w.id y)
  grantWaiting i (waitingRequests z i) z

section
variable {i id : Nat} {w : Walk} {y : State} (hwalk : (y.xisland i).walks.find? (fun w => w.id == id) = some w)
include hwalk

theorem walkReadEnds_done {res : HostRead} {out : Xlated} (h : walkAdvance i w res y = (endWalk i w.id y, .done out)) :
    walkReadEnds i id res y = walkEnded i w y out := by
  unfold walkReadEnds
  rw [hwalk]
  dsimp only
  rw [h]
  rfl

theorem walkReadEnds_notPresent {bytes : List Byte} (h : bit (fieldAt bytes 0 8) 0 = false) :
    walkReadEnds i id (.data bytes) y = walkEnded i w y (.fault fNotPresent w.level) := by
  refine walkReadEnds_done hwalk ?_
  have hentry : readEntry w (fieldAt bytes 0 8) = .done (.fault fNotPresent w.level) := if_pos (by simp [h])
  have hcache : cacheEntry w (fieldAt bytes 0 8) y = y := if_pos (by simp [h])
  unfold walkAdvance
  dsimp only
  rw [hentry, hcache]

theorem walkReadEnds_error {res : HostRead} (h : ∀ bytes, res ≠ .data bytes) :
    walkReadEnds i id res y = walkEnded i w y (.fault fWalkError 0xFF) := by
  refine walkReadEnds_done hwalk ?_
  cases res with
  | data bytes => exact absurd rfl (h bytes)
  | _ => rfl

end

/-- What a walk's step leaves: the walk caches and the count of free values apart, everything. -/
theorem cacheEntry_frame (w : Walk) (e : Nat) (s : State) :
    cacheEntry w e s = { s with xlate := (cacheEntry w e s).xlate, free := (cacheEntry w e s).free } := by
  unfold cacheEntry
  split <;> rfl

/-- A present directory entry sends the read of the next table (R515). -/
theorem walkReadEnds_directory {i id : Nat} {w : Walk} {bytes : List Byte} {y : State}
    (hwalk : (y.xisland i).walks.find? (fun w => w.id == id) = some w)
    (hpresent : bit (fieldAt bytes 0 8) 0 = true) (hlevel : w.level = 2 ∨ w.level = 3)
    (hissue : (y.port (y.xroom w.req.room).walkPort).canIssue = true) :
    let t := walkReadEnds i id (.data bytes) y
    t.out = y.out ++ [.memRead (y.xroom w.req.room).walkPort
      (entryAddr (w.level - 1) (pteAddr (fieldAt bytes 0 8)) w.req.iova) 8] ∧
    t.dur = y.dur ∧ t.nv = y.nv ∧ t.ledger = y.ledger ∧ t.fabric = y.fabric := by
  have hentry : readEntry w (fieldAt bytes 0 8) = .next (pteAddr (fieldAt bytes 0 8)) := by
    unfold readEntry
    rw [if_neg (by simp [hpresent])]
    exact if_neg (by rcases hlevel with h | h <;> simp [h])
  have hframe := cacheEntry_frame w (fieldAt bytes 0 8) y
  have hroom : (cacheEntry w (fieldAt bytes 0 8) y).xroom w.req.room = y.xroom w.req.room := by rw [hframe]; rfl
  have hport (p : Port) : (cacheEntry w (fieldAt bytes 0 8) y).port p = y.port p := by rw [hframe]; cases p <;> rfl
  unfold walkReadEnds
  rw [hwalk]
  dsimp only
  unfold walkAdvance
  dsimp only
  rw [hentry]
  dsimp only
  unfold issueWalkRead
  dsimp only
  rw [hroom, hport, if_pos hissue]
  dsimp only
  rw [hframe]
  exact ⟨rfl, rfl, rfl, rfl, rfl⟩

theorem begun_xisland (s : State) (ids : List Nat) (i : Nat) : (begun s ids).xisland i = s.xisland i := by
  simp only [State.xisland, begun_xlate]

theorem busyAll_xisland (s : State) (ids : List Nat) (i : Nat) : (busyAll s ids).xisland i = s.xisland i := by
  rw [busyAll_frame]
  rfl

theorem exec_walkReadComplete {i : Fin 4} {id : Nat} {res : HostRead} {s : State}
    (hready : islandsReady s [idXlate i] = true)
    (hlive : (s.xisland i).walks.any (fun w => w.id == id && w.dead) = false) :
    exec (.walkReadComplete i id res) s = .next (answered s (walkReadEnds i id res (begun s [idXlate i]))) := by
  refine answer_eq ((if_neg ?_).trans
    (readArrives_ready (s := cleared s) _ _ _ (List.nodup_singleton _) hready))
  rw [Bool.not_eq_true]
  exact hlive

/-- Settles O43: it holds. -/
theorem hostAndWalkReadsEnd : Obligations.HostAndWalkReadsEnd := by
  unfold Obligations.HostAndWalkReadsEnd
  refine ⟨⟨fun q it s hready hreading => ⟨?_, ?_⟩, fun q it bytes s h hwait => readGoesOn_serves h hwait, ?_, ?_⟩, ?_⟩
  · exact fun bytes => exec_hostReadComplete hready hreading _
  · intro res hnone
    rw [exec_hostReadComplete hready hreading]
    cases res with
    | data bytes => exact absurd rfl (hnone bytes)
    | _ => rfl
  · intro q it p issued s hissued x hready hlost hreading
    rw [exec_hostReadTimeout hissued]
    exact congrArg (fun t => Host.Outcome.next (answered s t)) (readTimesOut_item hready hlost hreading)
  · intro q slot f rest p issued s hissued x hready hwaits htaken hdropped
    rw [exec_hostReadTimeout hissued]
    exact congrArg (fun t => Host.Outcome.next (answered s t)) (readTimesOut_ring hready hwaits htaken hdropped)
  · intro ended
    refine ⟨fun i id w s hready hwalk hlive => ?_, ?_⟩
    · intro x
      have hwalk' : (x.xisland i).walks.find? (fun w => w.id == id) = some w := by rw [begun_xisland]; exact hwalk
      refine ⟨fun bytes habsent => ?_, fun res hnone => ?_, fun bytes hpresent hlevel hissue => ?_⟩
      · rw [exec_walkReadComplete hready hlive, walkReadEnds_notPresent hwalk' habsent]
        rfl
      · rw [exec_walkReadComplete hready hlive, walkReadEnds_error hwalk' hnone]
        rfl
      · have hroom : x.xroom w.req.room = s.xroom w.req.room := by simp only [State.xroom, x, begun_dur]
        refine ⟨_, exec_walkReadComplete hready hlive, ?_⟩
        have hread := walkReadEnds_directory hwalk' hpresent hlevel (by rw [hroom, begun_port]; exact hissue)
        dsimp only at hread
        rw [hroom] at hread
        obtain ⟨hout, hdur, hnv, hledger, hfabric⟩ := hread
        refine ⟨?_, hdur.trans (begun_dur ..), hnv.trans (begun_nv ..), hledger.trans (begun_ledger ..),
          hfabric.trans (begun_fabric ..)⟩
        change List.filter _ _ = _
        rw [hout, begun_out]
        rfl
    · intro i id w p issued s hissued x hready hwalk
      rw [exec_hostReadTimeout hissued]
      refine congrArg (fun t => Host.Outcome.next (answered s t))
        ((onArrival_ready _ (List.nodup_singleton _) hready).trans (walkReadEnds_error ?_ (by simp)))
      rw [busyAll_xisland]
      exact hwalk

end Sys2Proof.Machine
end

section
/-!
Invalidations and their fences.
-/

namespace Sys2Proof.Machine

open Sys2Proof

/-! ### Invalidations (TF.3) -/

/-- What an invalidation leaves: the walk caches, the fences and the latches of the slots apart, everything. -/
theorem invalidate_frame (room : Nat) (range : Option (Nat × Nat)) (item : Option (Nat × Nat)) (s : State) :
    let t := invalidate room range item s
    t = { s with xlate := t.xlate, fabric := t.fabric } ∧ t.xlate.issued = s.xlate.issued + 1 ∧
    ∃ f : Fence, t.xlate.fences = s.xlate.fences ++ [f] ∧ f.number = (s.xlate.issued + 1).toNat ∧ f.room = room ∧
      f.item = item := by
  unfold invalidate
  extract_lets i walks x keys y n x' t
  have hslots : y = { x with fabric := y.fabric } :=
    foldl_rel (R := fun s t => t = { s with fabric := t.fabric }) (fun _ => rfl)
      (fun h k => by rw [k, h]) (fun _ _ => rfl) keys x
  have hissued : y.xlate.issued = s.xlate.issued := (congrArg (·.xlate.issued) hslots :)
  have hfences : y.xlate.fences = s.xlate.fences := (congrArg (·.xlate.fences) hslots :)
  have hnext : n = s.xlate.issued + 1 := congrArg (· + 1) hissued
  refine ⟨?_, hnext, _, congrArg (· ++ _) hfences, congrArg BitVec.toNat hnext, rfl, rfl⟩
  change { y with xlate := t.xlate } = _
  rw [hslots]
  rfl

theorem invalidate_durab (room : Nat) (range : Option (Nat × Nat)) (item : Option (Nat × Nat)) (s : State) :
    (invalidate room range item s).durab = s.durab := (congrArg State.durab (invalidate_frame room range item s).1 :)

theorem exec_xlateInv {p : Port} {v : Word} {s : State} (hopen : postedOpen s p [idManagement] = true) :
    exec (.xlateInv p v) s = .next (answered s
      (if s.linkReaches p (v.toNat % 16) then invalidate (v.toNat % 16) none none (begun s [idManagement])
      else (begun s [idManagement]).ignoredWrite p.req 0 0x6000 rAccess)) := by
  have hreaches : (begun s [idManagement]).linkReaches p (v.toNat % 16) = s.linkReaches p (v.toNat % 16) := by
    rw [begun_frame]
    rfl
  have hwrite : writeXlateInv p 0x6000 v.toNat (begun s [idManagement]) =
      if s.linkReaches p (v.toNat % 16) then invalidate (v.toNat % 16) none none (begun s [idManagement])
      else (begun s [idManagement]).ignoredWrite p.req 0 0x6000 rAccess := by
    unfold writeXlateInv
    dsimp only
    rw [hreaches]
  refine answer_eq (regWrite_of_held rfl (List.nodup_singleton _) rfl rfl hopen hwrite (heldBanks_same ?_))
  split
  · exact congrArg Durab.dirty (invalidate_durab ..)
  · exact congrArg Durab.dirty (ignoredWrite_durab ..)

theorem exec_invalidateRange {r : Req} {rec : List Byte} {s : State} (hopen : dictOpen s r [] = true)
    (hjudge : judgeWrite s r false .invalidateRange 0 (bytesAt rec 0 12) = none) :
    exec (.invalidateRange r rec) s = .next (answered s
      (if fieldAt (bytesAt rec 0 12) 8 4 = 0 then cleared s
      else invalidate (fieldAt (bytesAt rec 0 12) 0 1)
        (some (fieldAt (bytesAt rec 0 12) 1 6 / 4096, fieldAt (bytesAt rec 0 12) 8 4)) none (cleared s))) := by
  have hclamps : Obj.invalidateRange.clamps (bytesAt rec 0 12) = false := bne_self_eq_false _
  refine answer_eq (dictCommand_of_held rfl hopen hjudge ?_ (heldBanks_same ?_))
  · change State.clampedBy _ r (Obj.invalidateRange.clamps (bytesAt rec 0 12)) = _
    rw [hclamps, clampedBy_false]
    rfl
  · split
    · rfl
    · exact congrArg Durab.dirty (invalidate_durab ..)

section
variable {f : Fence} {rest : List Fence} {s : State} (hfences : s.xlate.fences = f :: rest)
include hfences

theorem exec_invalidationFence_waits (hready : fenceReady s f = false) :
    exec .invalidationFence s = .next (answered s (cleared s)) := by
  change execInvalidationFence s = _
  refine answer_eq ?_
  rw [show (cleared s).xlate.fences = f :: rest from hfences]
  refine if_pos ?_
  rw [show fenceReady (cleared s) f = fenceReady s f from rfl, hready]
  rfl

/-- A fence completed. -/
def fenceDone (f : Fence) (rest : List Fence) (s : State) : State :=
  { begun s [idXlate (f.room % 4)] with
    xlate := { (begun s [idXlate (f.room % 4)]).xlate with fences := rest, done := s.xlate.done + 1 } }

theorem exec_invalidationFence (hislands : islandsReady s [idXlate (f.room % 4)] = true)
    (hready : fenceReady s f = true) : exec .invalidationFence s = .next (answered s (match f.item with
      | some (q, slot) => fenceItemEnds q slot (fenceDone f rest s)
      | none => (fenceDone f rest s).raiseFrom (idXlate (f.room % 4)) 0x101071)) := by
  change execInvalidationFence s = _
  refine answer_eq ?_
  rw [show (cleared s).xlate.fences = f :: rest from hfences]
  refine (if_neg ?_).trans ((onIslands_ready (s := cleared s) _ hislands).trans ?_)
  · rw [show fenceReady (cleared s) f = fenceReady s f from rfl, hready]
    decide
  · unfold fenceDone
    dsimp only
    rw [busyAll_xlate, begun_xlate]
    rfl

end

/-- Settles O44: it holds. -/
theorem invalidationsAreFenced : Obligations.InvalidationsAreFenced := by
  unfold Obligations.InvalidationsAreFenced
  refine ⟨⟨fun p v s hopen => exec_xlateInv hopen, fun r rec s hopen hjudge => exec_invalidateRange hopen hjudge,
    fun room range item s => ?_⟩, fun f rest s hfences hislands => ⟨?_, ?_, ?_⟩⟩
  · obtain ⟨hframe, hissued, hfence⟩ := invalidate_frame room range item s
    exact ⟨hissued, (congrArg State.dur hframe :), (congrArg State.nv hframe :), (congrArg State.ledger hframe :), hfence⟩
  · intro hready hitem
    rw [exec_invalidationFence hfences hislands hready, hitem]
    rfl
  · intro q slot it hready hitem hfound
    have hqueue : (fenceDone f rest s).queue q = s.queue q := begun_queue ..
    rw [exec_invalidationFence hfences hislands hready, hitem]
    dsimp only
    unfold fenceItemEnds
    rw [hqueue, hfound]
    rfl
  · exact fun hready => exec_invalidationFence_waits hfences hready

end Sys2Proof.Machine
end

section
/-!
BAR4 writes and reads.
-/

namespace Sys2Proof.Machine

open Sys2Proof

/-! ### BAR4 writes (LG.2) -/

section
variable {p : Port} {h : HostWrite} {s : State}

/-- A BAR4 write whose effect is known. -/
theorem exec_bar4Write {t : State}
    (heffect : (if !s.powered || !(s.port p).linkUp || !h.enables.any id || decide (2 ^ 26 < h.offset + h.data.length)
      then cleared s
      else if !s.keeper.rdy then dropBar4 p true (cleared s)
      else if stagingFull s p then cleared s
      else if s.ledger.closed || !reachesSegments s p h.offset h.data.length then dropBar4 p false (cleared s)
      else enterStream (piecesOf s.ledger.nextPiece p h.offset h.data h.enables none) (cleared s)) = t) :
    exec (.bar4Write p h) s = .next (answered s t) := by
  change execBar4Write p h s = _
  refine answer_eq (Eq.trans ?_ heffect)
  rw [cleared_port]
  rfl

theorem exec_bar4Write_none (hnone : h.enables.any id = false) : exec (.bar4Write p h) s = .next (cleared s) :=
  (exec_bar4Write (t := cleared s) (if_pos (by simp [hnone]))).trans rfl

variable (hpowered : s.powered = true) (hup : (s.port p).linkUp = true) (hsome : h.enables.any id = true)
  (hwithin : h.offset + h.data.length ≤ 2 ^ 26)
include hpowered hup hsome hwithin

theorem bar4_inWindow : ¬ (!s.powered || !(s.port p).linkUp || !h.enables.any id ||
    decide (2 ^ 26 < h.offset + h.data.length)) = true := by
  rw [hpowered, hup, hsome, decide_eq_false (by omega)]
  decide

theorem exec_bar4Write_notReady (hrdy : s.keeper.rdy = false) :
    exec (.bar4Write p h) s = .next (answered s (dropBar4 p true (cleared s))) :=
  exec_bar4Write ((if_neg (bar4_inWindow hpowered hup hsome hwithin)).trans (if_pos (by simp [hrdy])))

variable (hrdy : s.keeper.rdy = true)
include hrdy

theorem exec_bar4Write_waits (hfull : stagingFull s p = true) : exec (.bar4Write p h) s = .next (cleared s) :=
  (exec_bar4Write (t := cleared s) ((if_neg (bar4_inWindow hpowered hup hsome hwithin)).trans
    ((if_neg (by simp [hrdy])).trans (if_pos hfull)))).trans rfl

variable (hroom : stagingFull s p = false)
include hroom

theorem exec_bar4Write_denied
    (hdenied : s.ledger.closed = true ∨ reachesSegments s p h.offset h.data.length = false) :
    exec (.bar4Write p h) s = .next (answered s (dropBar4 p false (cleared s))) :=
  exec_bar4Write ((if_neg (bar4_inWindow hpowered hup hsome hwithin)).trans ((if_neg (by simp [hrdy])).trans
    ((if_neg (by simp [hroom])).trans (if_pos (by simpa using hdenied)))))

theorem exec_bar4Write_enters (hclosed : s.ledger.closed = false)
    (hreach : reachesSegments s p h.offset h.data.length = true) : exec (.bar4Write p h) s = .next (answered s
      (enterStream (piecesOf s.ledger.nextPiece p h.offset h.data h.enables none) (cleared s))) :=
  exec_bar4Write ((if_neg (bar4_inWindow hpowered hup hsome hwithin)).trans ((if_neg (by simp [hrdy])).trans
    ((if_neg (by simp [hroom])).trans (if_neg (by simp [hclosed, hreach])))))

end

/-! ### BAR4 reads -/

section
variable {p : Port} {off len : Nat} {s : State} (hpowered : s.powered = true) (hup : (s.port p).linkUp = true)
include hpowered hup

theorem exec_bar4Read {t : State} (heffect : (if decide (2 ^ 26 < off + len) then
        (cleared s).emit (.unsupportedRequest p)
      else if !s.keeper.rdy || s.ledger.closed || !reachesSegments s p off len then
        (cleared s).emit (.readBytes p (List.replicate len 0) false)
      else ledgerFlow ((cleared s).modLedger fun l =>
        { l with reads := l.reads ++ [(p, off, len, l.nextPiece)] })) = t) :
    exec (.bar4Read p off len) s = .next (answered s t) := by
  change execBar4Read p off len s = _
  refine answer_eq (Eq.trans (if_neg ?_) heffect)
  rw [cleared_port, show (cleared s).powered = s.powered from rfl, hpowered, hup]
  decide

end

theorem answered_emit_unsupported {p : Port} {s : State} (hup : (s.port p).linkUp = true) :
    answered s ((cleared s).emit (.unsupportedRequest p)) = { s with out := [.unsupportedRequest p] } := by
  have hreaches : Output.reaches s (.unsupportedRequest p) = true := hup
  unfold answered
  simp [State.emit, cleared, hreaches]

/-- What has been read of the port reaches it while its link is up. -/
theorem filter_readBytes {p : Port} {s : State} (hup : (s.port p).linkUp = true) (bs : List Byte) (b : Bool) :
    [Output.readBytes p bs b].filter (Output.reaches s) = [.readBytes p bs b] := by
  have hreaches : Output.reaches s (.readBytes p bs b) = true := hup
  simp [hreaches]

/-- With no piece in a stream, the one read that waits completes where its islands let it. -/
theorem ledgerFlow_one {s : State} {r : Port × Nat × Nat × Nat} (hstream : s.ledger.stream = [])
    (hreads : s.ledger.reads = [r]) (hend : readMayEnd s r = true) :
    ledgerFlow s = finishRead r.1 r.2.1 r.2.2.1 (s.modLedger fun l => { l with reads := [] }) := by
  simp [ledgerFlow, flowPort, readsDone, hstream, hreads, hend, State.modLedger]

theorem finishRead_running {p : Port} {off len : Nat} {s : State} (hlive : idLedger (off / 4096 % 4) ∉ s.dap.halted) :
    let t := finishRead p off len s
    t.ledger.mem = s.ledger.mem ∧ t.ledger.reads = s.ledger.reads ∧ t.nv = s.nv ∧ t.dur = s.dur ∧
    t.out = s.out ++ [.readBytes p (Memory.readN s.ledger.mem off len)
      ((linesOf off len).any fun l => decide (l ∈ s.ledger.bad))] := by
  unfold finishRead
  dsimp only
  rw [if_neg (by simpa using hlive)]
  split <;> simp [State.emit, State.modLedger]

theorem finishRead_halted {p : Port} {off len : Nat} {s : State}
    (hhalted : idLedger (off / 4096 % 4) ∈ s.dap.halted) :
    finishRead p off len s = (s.conductBit p.req 4).emit (.readBytes p (List.replicate len 0) false) := by
  unfold finishRead
  exact if_pos (by simpa using hhalted)

/-- A read of BAR4 alone, in an idle Ledger, before it completes. -/
def readPosted (p : Port) (off len : Nat) (s : State) : State :=
  (cleared s).modLedger fun l => { l with reads := l.reads ++ [(p, off, len, l.nextPiece)] }

theorem ledgerFlow_readPosted {p : Port} {off len : Nat} {s : State} (hstream : s.ledger.stream = [])
    (hreads : s.ledger.reads = [])
    (hend : readMayEnd (readPosted p off len s) (p, off, len, s.ledger.nextPiece) = true) :
    ledgerFlow (readPosted p off len s) = finishRead p off len (cleared s) := by
  have hposted : (readPosted p off len s).ledger.reads = [(p, off, len, s.ledger.nextPiece)] := by
    change s.ledger.reads ++ _ = _
    rw [hreads]
    rfl
  have hdone : (readPosted p off len s).modLedger (fun l => { l with reads := [] }) = cleared s := by
    change { cleared s with ledger := { s.ledger with reads := [] } } = cleared s
    rw [← hreads]
    rfl
  rw [ledgerFlow_one (s := readPosted p off len s) hstream hposted hend, hdone]

theorem readMayEnd_running {p : Port} {off len : Nat} {s : State} (hstream : s.ledger.stream = [])
    (hruns : s.running = true) (hlink : s.clocked (idLink p) = true)
    (hisland : s.clocked (idLedger (off / 4096 % 4)) = true) :
    readMayEnd (readPosted p off len s) (p, off, len, s.ledger.nextPiece) = true := by
  have hempty : (readPosted p off len s).ledger.stream = [] := hstream
  have hruns' : (readPosted p off len s).running = true := hruns
  have hlink' : (readPosted p off len s).clocked (idLink p) = true := hlink
  have hisland' : (readPosted p off len s).clocked (idLedger (off / 4096 % 4)) = true := hisland
  simp [readMayEnd, hempty, hruns', hlink', hisland']

/-- Settles O45: it holds. -/
theorem ledgerIsReadAndWritten : Obligations.LedgerIsReadAndWritten := by
  unfold Obligations.LedgerIsReadAndWritten
  refine ⟨fun p h s hpowered hup => ⟨exec_bar4Write_none, fun hsome hwithin => ⟨?_, ?_, ?_, ?_⟩⟩,
    fun p off len s hpowered hup => ⟨fun hbeyond => ?_,
      fun hwithin => ⟨fun hzero => ?_, fun hrdy hopen hreach => ?_⟩⟩⟩
  · exact fun hrdy hfull => exec_bar4Write_waits hpowered hup hsome hwithin hrdy hfull
  · exact fun hrdy hroom hopen hreach => exec_bar4Write_enters hpowered hup hsome hwithin hrdy hroom hopen hreach
  · exact fun hrdy => exec_bar4Write_notReady hpowered hup hsome hwithin hrdy
  · exact fun hrdy hroom hdenied => exec_bar4Write_denied hpowered hup hsome hwithin hrdy hroom hdenied
  · rw [exec_bar4Read hpowered hup (if_pos (by simpa using hbeyond)), answered_emit_unsupported hup]
  · have hzeros := exec_bar4Read (off := off) (len := len) hpowered hup
      ((if_neg (by simpa using hwithin)).trans (if_pos (by simpa [or_assoc] using hzero)))
    rw [hzeros]
    refine congrArg Host.Outcome.next ?_
    change ({ s with out := List.filter (Output.reaches s) [.readBytes p (List.replicate len 0) false] } : State) = _
    rw [filter_readBytes hup]
  · have hflows := exec_bar4Read (off := off) (len := len) hpowered hup
      ((if_neg (by simpa using hwithin)).trans (if_neg (by simp [hrdy, hopen, hreach])))
    refine ⟨hflows, fun hstream hreads => ⟨fun hruns hlink hisland => ?_, fun hhalted => ?_⟩⟩
    · have hlive : idLedger (off / 4096 % 4) ∉ (cleared s).dap.halted := by
        simp only [State.clocked, Bool.and_eq_true, decide_eq_true_eq] at hisland
        exact hisland.2
      obtain ⟨hmem, hnone, hnv, hdur, hout⟩ := finishRead_running (p := p) (off := off) (len := len) hlive
      have hflow := ledgerFlow_readPosted hstream hreads (p := p) (off := off) (len := len)
        (readMayEnd_running hstream hruns hlink hisland)
      refine ⟨_, hflows.trans (congrArg (fun t => Host.Outcome.next (answered s t)) hflow), hmem, hnone.trans hreads,
        hnv, hdur, ?_⟩
      change List.filter _ _ = _
      rw [hout]
      exact filter_readBytes hup _ _
    · have hend : readMayEnd (readPosted p off len s) (p, off, len, s.ledger.nextPiece) = true := by
        have hhalted' : idLedger (off / 4096 % 4) ∈ (readPosted p off len s).dap.halted := hhalted
        simp [readMayEnd, hhalted']
      have hflow := (ledgerFlow_readPosted hstream hreads hend).trans (finishRead_halted hhalted)
      refine ⟨_, hflows.trans (congrArg (fun t => Host.Outcome.next (answered s t)) hflow), rfl, ?_⟩
      change List.filter _ _ = _
      exact filter_readBytes hup _ _

end Sys2Proof.Machine
end

section
/-!
LEDGER_FENCE and the persistence of pieces.
-/

namespace Sys2Proof.Machine

open Sys2Proof

/-! ### LEDGER_FENCE (LG.3) -/

/-- A read of LEDGER_FENCE counted. -/
def fenceCounted (p : Port) (s : State) : State :=
  (cleared s).modLedger fun l => { l with fenceCount := l.fenceCount.set p (satAdd 64 (l.fenceCount.get p) 1) }

theorem exec_ledgerFenceRead {p : Port} {s : State}
    (hopen : readOpen s p [idLedger 0, idLedger 1, idLedger 2, idLedger 3] [7] = true) :
    exec (.ledgerFenceRead p) s = .next (answered s (fenceReadsDone ((ledgerFlow (fenceCounted p s)).modLedger fun l =>
      { l with fenceReads := l.fenceReads ++ [(Reader.whole p, l.nextPiece)] }))) := by
  have hclear : readOpen (cleared s) p [idLedger 0, idLedger 1, idLedger 2, idLedger 3] [7] = true := by
    rw [readOpen_cleared, hopen]
  have haccess : accessOpen (cleared s) p [idLedger 0, idLedger 1, idLedger 2, idLedger 3] = true := by
    simp only [readOpen, Bool.and_eq_true] at hclear
    exact hclear.1
  have hbehind := read_not_behind (a := .read .bar0 0x7000 0 4) rfl hclear
  refine answer_eq ?_
  unfold fenceRead hostAccess
  dsimp only [Reader.whole]
  rw [accessGate_open false haccess]
  exact if_neg (by rw [Bool.not_eq_true]; exact hbehind)

/-- The one fence read that waits, with every piece of its port persistent, completes. -/
theorem fenceReadsDone_one {s : State} {r : Reader} {mark : Nat} (hstream : s.ledger.stream = [])
    (hinbox : s.ledger.inbox = []) (hfences : s.ledger.fenceReads = [(r, mark)]) :
    fenceReadsDone s = finishFence r true (s.modLedger fun l => { l with fenceReads := [] }) := by
  simp [fenceReadsDone, portPieces, hstream, hinbox, hfences, State.modLedger]

theorem finishFence_whole (p : Port) (s : State) : finishFence (Reader.whole p) true s =
    (s.modLedger fun l => { l with dropped := l.dropped.set p.req 0 }).emit
      (.readWord p (BitVec.ofNat 32 (1 + 2 * (s.ledger.dropped.get p.req).toNat))) := rfl

theorem ledgerFenceRead_idle {p : Port} {s : State}
    (hopen : readOpen s p [idLedger 0, idLedger 1, idLedger 2, idLedger 3] [7] = true) (hstream : s.ledger.stream = [])
    (hinbox : s.ledger.inbox = []) (hfences : s.ledger.fenceReads = []) (hreads : s.ledger.reads = []) :
    ∃ t, exec (.ledgerFenceRead p) s = .next t ∧
      t.out = [.readWord p (BitVec.ofNat 32 (1 + 2 * (s.ledger.dropped.get p.req).toNat))] ∧
      t.ledger.dropped = s.ledger.dropped.set p.req 0 ∧ t.ledger.fenceReads = [] ∧
      t.ledger.mem = s.ledger.mem ∧ t.nv = s.nv ∧ t.dur = s.dur := by
  have hflow : ledgerFlow (fenceCounted p s) = fenceCounted p s :=
    ledgerFlow_of_none (s := fenceCounted p s) hstream hreads
  have hdone := fenceReadsDone_one
    (s := (fenceCounted p s).modLedger fun l =>
      { l with fenceReads := l.fenceReads ++ [(Reader.whole p, l.nextPiece)] })
    (r := Reader.whole p) (mark := s.ledger.nextPiece) hstream hinbox (congrArg (· ++ _) hfences)
  refine ⟨_, exec_ledgerFenceRead hopen, ?_⟩
  rw [hflow, hdone, finishFence_whole]
  refine ⟨?_, rfl, rfl, rfl, rfl, rfl⟩
  change List.filter (Output.reaches s) [.readWord p _] = _
  rw [List.filter_cons_of_pos (readWord_reaches hopen _)]
  rfl

/-! ### The persistence of a piece -/

/-- The reads of BAR4 and of LEDGER_FENCE that complete leave the Ledger's bytes, what waits for persistence and its
counts. -/
structure ReadsEnd (s t : State) : Prop where
  mem : t.ledger.mem = s.ledger.mem
  inbox : t.ledger.inbox = s.ledger.inbox
  persisted : t.ledger.persisted = s.ledger.persisted
  dur : t.dur = s.dur
  nv : t.nv = s.nv

namespace ReadsEnd

variable {s t u : State}

theorem refl (s : State) : ReadsEnd s s := ⟨rfl, rfl, rfl, rfl, rfl⟩

theorem trans (h : ReadsEnd s t) (k : ReadsEnd t u) : ReadsEnd s u :=
  ⟨k.mem.trans h.mem, k.inbox.trans h.inbox, k.persisted.trans h.persisted, k.dur.trans h.dur, k.nv.trans h.nv⟩

theorem answerRead (r : Reader) (v : Word) (s : State) : ReadsEnd s (s.answerRead r v) := by
  unfold State.answerRead
  split <;> exact ⟨rfl, rfl, rfl, rfl, rfl⟩

theorem finishRead (p : Port) (off len : Nat) (s : State) : ReadsEnd s (finishRead p off len s) := by
  unfold Machine.finishRead
  dsimp only
  split
  · exact ⟨by simp, by simp, by simp, by simp, by simp⟩
  · split <;> exact ⟨by simp [State.modLedger], by simp [State.modLedger], by simp [State.modLedger],
      by simp [State.modLedger], by simp [State.modLedger]⟩

theorem readsDone (s : State) : ReadsEnd s (readsDone s) := by
  refine foldl_rel refl trans (fun s r => ?_) _ _
  split
  · exact trans (t := s.modLedger fun l => { l with reads := l.reads.erase r }) ⟨rfl, rfl, rfl, rfl, rfl⟩
      (finishRead ..)
  · exact refl _

theorem ledgerFlow (h : s.ledger.stream = []) : ReadsEnd s (ledgerFlow s) := by
  have hflow : Machine.ledgerFlow s = Machine.readsDone s := by simp [Machine.ledgerFlow, flowPort, h]
  rw [hflow]
  exact readsDone s

theorem fenceReadsDone (s : State) : ReadsEnd s (fenceReadsDone s) := by
  refine foldl_rel refl trans (fun s r => ?_) _ _
  split
  · exact refl _
  · exact trans (t := (s.modLedger fun l => { l with fenceReads := l.fenceReads.erase r }).modLedger fun l =>
      { l with dropped := l.dropped.set r.1.port.req 0 }) ⟨rfl, rfl, rfl, rfl, rfl⟩ (answerRead ..)

end ReadsEnd

theorem persisted_kept (x : Piece) (s : State) :
    (persisted x s).ledger.mem = s.ledger.mem ∧ (persisted x s).ledger.stream = s.ledger.stream ∧
    (persisted x s).ledger.persisted =
      s.ledger.persisted.set x.port (satAdd 64 (s.ledger.persisted.get x.port) 1) ∧
    (persisted x s).dur = s.dur ∧ (persisted x s).nv = s.nv := by
  have hwearing (f : Ledger → Ledger) (l : Ledger) (i : Nat) : (wearing i f l).mem = (f l).mem ∧
      (wearing i f l).stream = (f l).stream ∧ (wearing i f l).persisted = (f l).persisted := by
    unfold wearing
    extract_lets l'
    split <;> exact ⟨rfl, rfl, rfl⟩
  obtain ⟨hmem, hstream, hpersisted⟩ := hwearing (fun l => { l with
    persisted := l.persisted.set x.port (satAdd 64 (l.persisted.get x.port) 1)
    backlog := if isCopied s x.line then insertSorted x.line l.backlog else l.backlog
    pageWrites := mmod 0 l.pageWrites (4352 * ledgerIsland x.line + physicalPage l (ledgerIsland x.line) (x.line / 256))
      (· + 1) }) s.ledger (ledgerIsland x.line)
  exact ⟨hmem, hstream, hpersisted, rfl, rfl⟩

section
variable {i : Fin 4} {x : Piece} {rest : List Piece} {s : State} (hready : islandsReady s [idLedger i] = true)
  (htaken : takeFirst (fun x => ledgerIsland x.line == i.val) s.ledger.inbox = some (x, rest))
include hready htaken

theorem exec_piecePersist : exec (.piecePersist i) s = .next (answered s (fenceReadsDone (ledgerFlow (persisted x
    ((begun s [idLedger i]).modLedger fun l => { l with inbox := rest }))))) := by
  refine answer_eq ((onIslands_ready (s := cleared s) _ hready).trans ?_)
  change persistStep i (begun s [idLedger i]) = _
  unfold persistStep
  rw [begun_ledger, htaken]

theorem piecePersist_idle (hstream : s.ledger.stream = []) : ∃ t, exec (.piecePersist i) s = .next t ∧
    t.ledger.mem = s.ledger.mem ∧ t.ledger.inbox = rest ∧
    t.ledger.persisted.get x.port = satAdd 64 (s.ledger.persisted.get x.port) 1 ∧ t.dur = s.dur ∧ t.nv = s.nv := by
  refine ⟨_, exec_piecePersist hready htaken, ?_⟩
  obtain ⟨hmem, hstream', hpersisted, hdur, hnv⟩ :=
    persisted_kept x ((begun s [idLedger i]).modLedger fun l => { l with inbox := rest })
  have hinbox := persisted_inbox x ((begun s [idLedger i]).modLedger fun l => { l with inbox := rest })
  generalize persisted x ((begun s [idLedger i]).modLedger fun l => { l with inbox := rest }) = y at *
  simp only [State.modLedger, begun_ledger, begun_dur, begun_nv] at hmem hstream' hpersisted hdur hnv hinbox
  obtain ⟨kmem, kinbox, kpersisted, kdur, knv⟩ :=
    (ReadsEnd.ledgerFlow (hstream'.trans hstream)).trans (ReadsEnd.fenceReadsDone _)
  refine ⟨kmem.trans hmem, kinbox.trans hinbox, ?_, kdur.trans hdur, knv.trans hnv⟩
  change (fenceReadsDone (ledgerFlow y)).ledger.persisted.get x.port = _
  rw [kpersisted, hpersisted]
  cases x.port <;> rfl

end

/-- Settles O46: it holds. -/
theorem persistenceAndFence : Obligations.PersistenceAndFence := by
  unfold Obligations.PersistenceAndFence
  refine ⟨fun p s hopen => ?_, fun i x rest s hready htaken => ⟨exec_piecePersist hready htaken,
    piecePersist_idle hready htaken⟩⟩
  intro y
  exact ⟨exec_ledgerFenceRead hopen, ledgerFenceRead_idle hopen⟩

end Sys2Proof.Machine
end

section
/-!
The copy to host memory and the moves of pages.
-/

namespace Sys2Proof.Machine

open Sys2Proof

/-! ### The copy to host memory (LG.6) -/

theorem exec_ledgerCopy {i : Fin 4} {line a : Nat} {x s : State} (hready : islandsReady s [idLedger i] = true)
    (henabled : s.dur.g.hostMirror.enable = true) (hissue : (s.port s.dur.g.hostMirror.port).canIssue = true)
    (hfound : s.ledger.backlog.find? (fun l => ledgerIsland l == i.val && isCopied s l && decide (l ∉ s.ledger.bad)) =
      some line)
    (hfresh : line ∉ s.ledger.copying)
    (hhit : translate { room := s.dur.g.hostMirror.room, iova := copyIova s.dur.g.hostMirror line, write := true,
                        use := .ledgerCopy i line } 64 (begun s [idLedger i]) = (x, .hit a)) :
    exec (.ledgerCopy i) s = .next (answered s (passCopy i line a x)) := by
  refine answer_eq ((onIslands_ready (s := cleared s) _ hready).trans ?_)
  have hcopied : isCopied (begun s [idLedger i]) = isCopied s := by
    funext l
    rw [begun_frame]
    rfl
  rw [show busyAll (cleared s) [idLedger i] = begun s [idLedger i] from rfl]
  rw [begun_dur]
  dsimp only
  rw [begun_port, henabled, hissue, if_neg (by decide), hcopied, begun_ledger, hfound]
  refine (if_neg (by simpa using hfresh)).trans ?_
  rw [hhit]

/-! ### The moves of pages (LG.8) -/

theorem mem_insertSorted (x : Nat) (l : List Nat) : x ∈ insertSorted x l := by
  induction l with
  | nil => exact List.mem_singleton_self x
  | cons y ys ih =>
    unfold insertSorted
    split_ifs with hlt heq
    · exact List.mem_cons_self
    · rw [heq]
      exact List.mem_cons_self
    · exact List.mem_cons_of_mem _ ih

/-- WEAR_LOW is set where a change of its pages makes an island run short, and the change is not altered by it. -/
theorem wearing_kept (island : Nat) (f : Ledger → Ledger) (l : Ledger) :
    wearing island f l = { f l with status := (wearing island f l).status } ∧
    (wearLow (wearing island f l) island = true → wearLow l island = false →
      ∀ r, ((wearing island f l).status.get r).getLsbD 1 = true) := by
  unfold wearing
  dsimp only
  split
  next hlow => exact ⟨rfl, fun _ _ r => by cases r <;> simp [Per3.all, Per3.get]⟩
  next hlow => exact ⟨rfl, fun hshort hfine => absurd (by simp [hshort, hfine]) hlow⟩

section
variable {i : Fin 4} {k : Fin 4096} {n : Fin 4352} {s : State} (hready : islandsReady s [idLedger i] = true)
include hready

theorem exec_pageMove : exec (.pageMove i k n) s = .next (answered s
    (if pageFree s.ledger i n && wornAgainst s.ledger i k n then
      (begun s [idLedger i]).modLedger (wearing i (movePage i k n))
    else begun s [idLedger i])) := by
  refine answer_eq ((onIslands_ready (s := cleared s) _ hready).trans ?_)
  rw [busyAll_ledger]
  rfl

/-- A page retired to a spare (R592, R593). -/
def retirePage (island logical physical : Nat) (l : Ledger) : Ledger :=
  { movePage island logical physical l with
    retired := insertSorted (4352 * island + physicalPage l island logical) l.retired
    spares := mput 256 island (sparePages l island - 1) l.spares }

theorem exec_pageRetire (hfree : pageFree s.ledger i n = true) (hspare : 0 < sparePages s.ledger i) :
    exec (.pageRetire i k n) s = .next (answered s
      ((begun s [idLedger i]).modLedger (wearing i (retirePage i k n)))) := by
  refine answer_eq ((onIslands_ready (s := cleared s) _ hready).trans (if_pos ?_))
  rw [busyAll_ledger]
  exact Bool.and_eq_true_iff.mpr ⟨hfree, decide_eq_true hspare⟩

end

/-- Settles O47: it holds. -/
theorem ledgerCopyAndWear : Obligations.LedgerCopyAndWear := by
  unfold Obligations.LedgerCopyAndWear
  refine ⟨fun i line a x s hready henabled hissue hfound hfresh hhit =>
    exec_ledgerCopy hready henabled hissue hfound hfresh hhit, fun i k n s hready => ⟨?_, ?_, ?_⟩⟩
  · intro hfree hworn
    obtain ⟨hkept, hlow⟩ := wearing_kept i (movePage i k n) s.ledger
    refine ⟨_, (exec_pageMove hready).trans (congrArg (fun t => Host.Outcome.next (answered s t))
      (if_pos (by simp [hfree, hworn]))), ?_⟩
    have hledger : (answered s ((begun s [idLedger i]).modLedger (wearing i (movePage i k n)))).ledger =
        wearing i (movePage i k n) s.ledger := congrArg (wearing i (movePage i k n)) (begun_ledger ..)
    rw [hledger]
    exact ⟨by rw [hkept]; rfl, by rw [hkept]; rfl, by rw [hkept]; rfl, begun_dur .., begun_nv .., hlow⟩
  · intro hfine
    exact (exec_pageMove hready).trans (congrArg (fun t => Host.Outcome.next (answered s t))
      (if_neg (by simp [hfine])))
  · intro hfree hspare
    obtain ⟨hkept, hlow⟩ := wearing_kept i (retirePage i k n) s.ledger
    refine ⟨_, exec_pageRetire hready hfree hspare, ?_⟩
    have hledger : (answered s ((begun s [idLedger i]).modLedger (wearing i (retirePage i k n)))).ledger =
        wearing i (retirePage i k n) s.ledger := congrArg (wearing i (retirePage i k n)) (begun_ledger ..)
    rw [hledger]
    exact ⟨by rw [hkept]; rfl, by rw [hkept]; rfl, by rw [hkept]; rfl, by rw [hkept]; exact mem_insertSorted ..,
      begun_dur .., begun_nv .., hlow⟩

end Sys2Proof.Machine
end

section
/-!
The write of a dirty line.
-/

namespace Sys2Proof.Machine

open Sys2Proof

/-! ### The write of a line (DU.2) -/

theorem lineOf_la (la : Nat) : lineOf (lineOf la).la = lineOf la := by
  unfold lineOf Line.la
  dsimp only
  congr 1 <;> omega

/-- What the verification of a slot write changes: the spares, the bookkeeping, and the channel's fault with its
management event. -/
structure Verified (l : Line) (k : WriteCheck) (s t : State) : Prop where
  frame : t = { s with mram := t.mram, durab := t.durab, fabric := t.fabric, portA := t.portA, portB := t.portB }
  durab : t.durab = { s.durab with status := t.durab.status, retries := t.durab.retries }
  retries : t.durab.retries = mmod 0 s.durab.retries l.channel (satAdd 64 · k.retries)
  spares : t.mram.spares = (if k.failed ∧ mget 32 s.mram.spares l.channel ≠ 0 then
    mput 32 l.channel (mget 32 s.mram.spares l.channel - 1) s.mram.spares else s.mram.spares)
  mram : (k.failed = false ∨ mget 32 s.mram.spares l.channel = 0) → t.mram = s.mram
  fault : (k.failed ∧ mget 32 s.mram.spares l.channel ≠ 0) ∨ k.uncorrectable →
    (∀ r, (t.durab.status.get r).getLsbD 0 = true) ∧ t.portA.mgmtEvent.getLsbD 6 = true ∧
      t.portB.mgmtEvent.getLsbD 6 = true

theorem retireSlot_mram (la : Nat) (s : State) :
    (retireSlot la s).mram.spares = (if mget 32 s.mram.spares (lineOf la).channel ≠ 0 then
      mput 32 (lineOf la).channel (mget 32 s.mram.spares (lineOf la).channel - 1) s.mram.spares else s.mram.spares) ∧
    (mget 32 s.mram.spares (lineOf la).channel = 0 → retireSlot la s = s) ∧
    retireSlot la s = { s with mram := (retireSlot la s).mram } := by
  unfold retireSlot
  dsimp only
  split
  next h => exact ⟨by simp [h], fun _ => rfl, rfl⟩
  next h => exact ⟨by simp, fun h' => absurd h' h, rfl⟩

theorem mirrorFault_spec (c : Nat) (s : State) :
    let t := mirrorFault c s
    t = { s with durab := t.durab, fabric := t.fabric, portA := t.portA, portB := t.portB } ∧
    t.durab = { s.durab with status := t.durab.status } ∧ (∀ r, (t.durab.status.get r).getLsbD 0 = true) ∧
    t.portA.mgmtEvent.getLsbD 6 = true ∧ t.portB.mgmtEvent.getLsbD 6 = true := by
  intro t
  have hraise := FabricStep.raise
    (({ s with durab := { s.durab with status := s.durab.status.all (· ||| 1) } } : State).mgmt 6) (0x101038 + c)
  unfold FabricStep at hraise
  change t = _ at hraise
  refine ⟨by rw [hraise]; rfl, by rw [hraise]; rfl, fun r => ?_, ?_, ?_⟩
  all_goals rw [hraise]
  · cases r <;> simp [Per3.all, Per3.get, State.mgmt]
  · simp [State.mgmt, PortState.mgmt]
  · simp [State.mgmt, PortState.mgmt]

theorem verifyWrite_verified {l : Line} (hl : lineOf l.la = l) (k : WriteCheck) (s : State) :
    Verified l k s (verifyWrite l k s) := by
  unfold verifyWrite
  extract_lets c left was x y
  have hy : y = { x with mram := y.mram } ∧ y.mram.spares = (if k.failed ∧ left ≠ 0 then
      mput 32 c (left - 1) s.mram.spares else s.mram.spares) ∧
      (k.failed = false ∨ left = 0 → y.mram = s.mram) := by
    obtain ⟨hspares, hnone, hframe⟩ := retireSlot_mram l.la x
    rw [hl] at hspares hnone
    cases hfailed : k.failed with
    | false => simp [y, x, hfailed]
    | true =>
      have hretired : y = retireSlot l.la x := if_pos hfailed
      rw [hretired]
      refine ⟨hframe, by simpa using hspares, fun h => ?_⟩
      rw [hnone (by simpa using h)]
  obtain ⟨hframe, hspares, hkept⟩ := hy
  clear_value y
  have hdurab : y.durab = { s.durab with retries := mmod 0 s.durab.retries c (satAdd 64 · k.retries) } := by
    rw [hframe]
  split
  next hfault =>
    obtain ⟨hf, hd, hstatus, ha, hb⟩ := mirrorFault_spec c y
    generalize mirrorFault c y = t at *
    have hmram : t.mram = y.mram := by rw [hf]
    refine ⟨?_, ?_, ?_, hmram ▸ hspares, fun h => hmram.trans (hkept h), fun _ => ⟨hstatus, ha, hb⟩⟩
    · rw [hf, hframe]
    · rw [hd, hdurab]
    · rw [hd, hdurab]
  next hfine =>
    refine ⟨by rw [hframe], by rw [hdurab], by rw [hdurab], hspares, hkept, fun h => absurd ?_ hfine⟩
    simpa using h

/-- A line among those that are not dirty any more. -/
def lineClean (l : Line) (s : State) : State :=
  { s with durab := { s.durab with dirty := s.durab.dirty.filter (· ≠ l) } }

theorem writeLine_dirty {l : Line} {k : WriteCheck} {w : State} (hckpt : w.durab.ckpt = none)
    (hdirty : l ∈ w.durab.dirty) : writeLine l k w =
      if k.failed && mget 32 w.mram.spares l.channel == 0 then verifyWrite l k w
      else lineWritten l (lineClean l (writeSlot l w.dur (verifyWrite l k w))) := by
  unfold writeLine
  rw [hckpt]
  exact if_pos hdirty

theorem writeLine_clean {l : Line} {k : WriteCheck} {w : State} (hckpt : w.durab.ckpt = none)
    (hclean : l ∉ w.durab.dirty) : writeLine l k w = w := by
  unfold writeLine
  rw [hckpt]
  exact if_neg hclean

/-- What the write of a dirty line to its next slot leaves (R600, R601, R614, R638). -/
theorem lineWritten_spec {l : Line} (hl : lineOf l.la = l) {k : WriteCheck} (w : State)
    (hspare : k.failed = false ∨ mget 32 w.mram.spares l.channel ≠ 0) :
    let t := lineWritten l (lineClean l (writeSlot l w.dur (verifyWrite l k w)))
    t.durab.dirty = w.durab.dirty.filter (· ≠ l) ∧ t.durab.written = insertNew w.durab.written l ∧
    mget none t.mram.slots (slotKey l.la (!w.durab.current.bit l.la)) =
      some { la := l.la, epoch := w.dur.g.epoch % 2 ^ 32, value := w.dur.only l } ∧
    t.durab.retries = mmod 0 w.durab.retries l.channel (satAdd 64 · k.retries) ∧
    t.mram.spares = (if k.failed then mput 32 l.channel (mget 32 w.mram.spares l.channel - 1) w.mram.spares
      else w.mram.spares) ∧
    (k.failed || k.uncorrectable → ∀ r, (t.durab.status.get r).getLsbD 0 = true) ∧
    (k.failed || k.uncorrectable → t.portA.mgmtEvent.getLsbD 6 = true ∧ t.portB.mgmtEvent.getLsbD 6 = true) ∧
    t.dur = w.dur ∧ t.nv = w.nv ∧ t.ledger = w.ledger := by
  obtain ⟨hframe, hdurab, hretries, hspares, -, hfault⟩ := verifyWrite_verified hl k w
  generalize verifyWrite l k w = v at *
  intro t
  have hdur : v.dur = w.dur := by rw [hframe]
  have hcurrent : v.durab.current = w.durab.current := by rw [hdurab]
  have hfault' : (k.failed || k.uncorrectable) = true → (k.failed ∧ mget 32 w.mram.spares l.channel ≠ 0) ∨
      k.uncorrectable := fun h => by
    rcases Bool.or_eq_true_iff.mp h with hf | hu
    · exact .inl ⟨hf, hspare.resolve_left (by simp [hf])⟩
    · exact .inr hu
  have hslots : t.mram.slots = mput none (slotKey l.la (!w.durab.current.bit l.la))
      (some { la := l.la, epoch := w.dur.g.epoch % 2 ^ 32, value := w.dur.only l }) v.mram.slots := by
    rw [← hdur, ← hcurrent]
    exact congrArg (fun d : Durable => mput none (slotKey l.la (!v.durab.current.bit l.la))
      (some { la := l.la, epoch := v.dur.g.epoch % 2 ^ 32, value := d.only l }) v.mram.slots) hdur.symm
  refine ⟨?_, ?_, ?_, hretries, ?_, fun h => (hfault (hfault' h)).1, fun h => (hfault (hfault' h)).2, hdur, ?_, ?_⟩
  · change v.durab.dirty.filter (· ≠ l) = _
    rw [hdurab]
  · change insertNew v.durab.written l = _
    rw [hdurab]
  · rw [hslots]
    exact mget_mput_of_ne (by simp) _ _
  · refine hspares.trans ?_
    rcases hspare with hf | hleft
    · simp [hf]
    · simp [hleft]
  · change v.nv = _
    rw [hframe]
  · change v.ledger = _
    rw [hframe]

section
variable {c : Fin 8} {la : Nat} {k : WriteCheck} {s : State} (hready : islandsReady s [idMirror c] = true)
  (henabled : s.dur.g.mirrorEnable = true) (hla : la < 2 ^ 19) (hnone : nothingWaits s)
include hready henabled hla hnone

theorem exec_mirrorWrite : exec (.mirrorWrite c la k) s = .next (answered s
    (if (lineOf la).bank / 4 = c.val then writeLine (lineOf la) k (begun s [idMirror c])
    else begun s [idMirror c])) := by
  change answer s (fun s => retryHeld (mirrorStep c la k s)) = _
  refine answer_eq ((retryHeld_of_sameWaiting (s := cleared s) (mirrorStep_sameWaiting ..) hnone).trans ?_)
  refine (onIslands_ready (s := cleared s) _ hready).trans ?_
  by_cases hc : (lineOf la).bank / 4 = c.val
  · rw [if_pos hc]
    refine if_neg ?_
    simpa [Line.channel, hc] using And.intro henabled hla
  · rw [if_neg hc]
    refine if_pos ?_
    simp [Line.channel, hc]

theorem exec_mirrorWrite_not (h : (lineOf la).bank / 4 ≠ c.val ∨ lineOf la ∉ s.durab.dirty) :
    exec (.mirrorWrite c la k) s = .next (answered s (begun s [idMirror c])) := by
  rw [exec_mirrorWrite hready henabled hla hnone]
  have hckpt : (begun s [idMirror c]).durab.ckpt = none := by
    rw [begun_durab]
    exact ckpt_of_ready hready
  split
  next hc =>
    rw [writeLine_clean hckpt (by rw [begun_durab]; exact h.resolve_left (not_not_intro hc))]
  · rfl

theorem exec_mirrorWrite_dirty (hc : (lineOf la).bank / 4 = c.val) (hdirty : lineOf la ∈ s.durab.dirty) :
    exec (.mirrorWrite c la k) s = .next (answered s
      (if k.failed && mget 32 s.mram.spares c == 0 then verifyWrite (lineOf la) k (begun s [idMirror c])
      else lineWritten (lineOf la) (lineClean (lineOf la) (writeSlot (lineOf la) s.dur
        (verifyWrite (lineOf la) k (begun s [idMirror c])))))) := by
  have hckpt : (begun s [idMirror c]).durab.ckpt = none := by
    rw [begun_durab]
    exact ckpt_of_ready hready
  rw [exec_mirrorWrite hready henabled hla hnone, if_pos hc, writeLine_dirty hckpt (by rw [begun_durab]; exact hdirty),
    begun_dur, begun_mram, Line.channel, hc]

end

end Sys2Proof.Machine
end

section
/-!
Checkpoints and their roots.
-/

namespace Sys2Proof.Machine

open Sys2Proof

/-! ### Checkpoints (DU.4) -/

/-- The state in which the AutoCheckpoint interval has passed. -/
def checkpointDue (s : State) : State := (cleared s).elapseTo (s.durab.lastRootAt + 1000000 * s.dur.g.autoCheckpoint)

theorem checkpointDue_kept (s : State) : (checkpointDue s).dur = s.dur ∧ (checkpointDue s).mram = s.mram ∧
    (checkpointDue s).nv = s.nv ∧ (checkpointDue s).durab.ckpt = s.durab.ckpt ∧
    s.durab.lastRootAt + 1000000 * s.dur.g.autoCheckpoint ≤ (checkpointDue s).now := by
  refine ⟨elapseTo_dur .., elapseTo_mram .., elapseTo_nv .., elapseTo_ckpt .., ?_⟩
  unfold checkpointDue
  rw [elapseTo_now]
  exact Nat.le_max_right _ _

section
variable {s : State} (hruns : s.running = true) (henabled : s.dur.g.mirrorEnable = true)
  (hauto : s.dur.g.autoCheckpoint ≠ 0)
include hruns henabled hauto

theorem exec_autoCheckpoint : exec .autoCheckpoint s = .next (answered s (requestRoot (checkpointDue s))) := by
  change execAutoCheckpoint s = _
  refine answer_eq (if_neg ?_)
  have hruns' : (cleared s).running = true := hruns
  have henabled' : (cleared s).dur.g.mirrorEnable = true := henabled
  rw [hruns', show (cleared s).dur.g.mirrorEnable = true from henabled,
    show decide ((cleared s).dur.g.autoCheckpoint = 0) = false from decide_eq_false hauto]
  decide

theorem autoCheckpoint_starts (hnone : s.durab.ckpt = none) : ∃ t, exec .autoCheckpoint s = .next t ∧
    t.dur.g.epoch = s.dur.g.epoch + 1 ∧ s.durab.lastRootAt + 1000000 * s.dur.g.autoCheckpoint ≤ t.now ∧
    t.mram = s.mram ∧ t.nv = s.nv ∧
    ∃ c, t.durab.ckpt = some c ∧ c.epoch = s.dur.g.epoch + 1 ∧ c.cut = [211] := by
  refine ⟨_, exec_autoCheckpoint hruns henabled hauto, ?_⟩
  obtain ⟨hdur, hmram, hnv, hckpt, hnow⟩ := checkpointDue_kept s
  generalize checkpointDue s = x at *
  have hstarts : requestRoot x = startCheckpoint x := if_pos (by simp [hdur, henabled, hckpt, hnone])
  have hepoch : x.dur.g.epoch + 1 = s.dur.g.epoch + 1 := by rw [hdur]
  rw [hstarts]
  exact ⟨hepoch, hnow, hmram, hnv, _, rfl, hepoch, rfl⟩

theorem autoCheckpoint_waits (hsome : s.durab.ckpt.isSome = true) : ∃ t, exec .autoCheckpoint s = .next t ∧
    t.durab.ckptWanted = true ∧ t.durab.ckpt = s.durab.ckpt ∧ t.dur = s.dur ∧ t.mram = s.mram ∧ t.nv = s.nv := by
  refine ⟨_, exec_autoCheckpoint hruns henabled hauto, ?_⟩
  obtain ⟨hdur, hmram, hnv, hckpt, hnow⟩ := checkpointDue_kept s
  generalize checkpointDue s = x at *
  have hwaits : requestRoot x = { x with durab := { x.durab with ckptWanted := true } } :=
    if_neg (by simp [hckpt, Option.ne_none_iff_isSome.mpr hsome])
  rw [hwaits]
  exact ⟨rfl, hckpt, hdur, hmram, hnv⟩

end

/-! ### The cut token (R615, R616) -/

/-- An island that has not taken its cut takes it: its bank's dirty lines are owed. -/
theorem cutIsland_spec {i : Nat} {c : Ckpt} {s : State} (hckpt : s.durab.ckpt = some c) (hfresh : i ∉ c.cut) :
    let t := cutIsland i s
    t = { s with durab := t.durab } ∧
    (∃ c', t.durab.ckpt = some c' ∧ c'.cut = c.cut ++ [i] ∧ c'.epoch = c.epoch) ∧
    (∀ l ∈ s.durab.dirty, 64 ≤ i → i < 96 → l.bank = i - 64 → l ∈ t.durab.owed ∧ l ∉ t.durab.dirty) := by
  unfold cutIsland
  rw [hckpt]
  dsimp only
  rw [if_neg hfresh]
  refine ⟨rfl, ⟨_, rfl, rfl, rfl⟩, fun l hl hlow hhigh hbank => ?_⟩
  have hmine : (decide (64 ≤ i) && decide (i < 96) && l.bank == i - 64) = true := by simp [hlow, hhigh, hbank]
  refine ⟨?_, fun h => ?_⟩
  · by_cases howed : l ∈ s.durab.owed
    · exact List.mem_append_left _ howed
    · exact List.mem_append_right _ (by simpa [hl, howed] using hmine)
  · have hkept := (List.mem_filter.mp h).2
    rw [hmine] at hkept
    exact absurd hkept (by decide)

theorem exec_cutToken {i : Island} {n : Nat} {c : Ckpt} {s : State} (hid : islandId i = some n)
    (hckpt : s.durab.ckpt = some c) (hruns : s.running = true) (hclocked : s.clocked n = true) :
    exec (.cutToken i) s = .next (answered s (cutIsland n (((cleared s).wakeUp n).busy n))) := by
  change execCutToken i s = _
  refine answer_eq ?_
  rw [hid]
  refine if_neg ?_
  have hruns' : (cleared s).running = true := hruns
  have hclocked' : (cleared s).clocked n = true := hclocked
  simp [hckpt, hruns', hclocked']

theorem busied_kept (s : State) (n : Nat) :
    let t := ((cleared s).wakeUp n).busy n
    t.dur = s.dur ∧ t.mram = s.mram ∧ t.nv = s.nv ∧ t.ledger = s.ledger ∧ t.durab = s.durab := by
  refine ⟨?_, ?_, ?_, ?_, ?_⟩ <;> simp

theorem cutToken_spec {i : Island} {n : Nat} {c : Ckpt} {s : State} (hid : islandId i = some n)
    (hckpt : s.durab.ckpt = some c) (hruns : s.running = true) (hclocked : s.clocked n = true) (hfresh : n ∉ c.cut) :
    ∃ t, exec (.cutToken i) s = .next t ∧ t.dur = s.dur ∧ t.mram = s.mram ∧ t.nv = s.nv ∧ t.ledger = s.ledger ∧
      (∃ c', t.durab.ckpt = some c' ∧ c'.cut = c.cut ++ [n] ∧ c'.epoch = c.epoch) ∧
      (∀ l ∈ s.durab.dirty, 64 ≤ n → n < 96 → l.bank = n - 64 → l ∈ t.durab.owed ∧ l ∉ t.durab.dirty) := by
  refine ⟨_, exec_cutToken hid hckpt hruns hclocked, ?_⟩
  obtain ⟨hdur, hmram, hnv, hledger, hdurab⟩ := busied_kept s n
  generalize ((cleared s).wakeUp n).busy n = x at *
  obtain ⟨hframe, hcut, howed⟩ := cutIsland_spec (s := x) (hdurab ▸ hckpt) hfresh
  generalize cutIsland n x = t at *
  rw [hdurab] at howed
  refine ⟨?_, ?_, ?_, ?_, hcut, howed⟩
  · exact (congrArg State.dur hframe :).trans hdur
  · exact (congrArg State.mram hframe :).trans hmram
  · exact (congrArg State.nv hframe :).trans hnv
  · exact (congrArg State.ledger hframe :).trans hledger

/-! ### The root of a checkpoint (R612, R614, R618) -/

/-- A token that has passed everywhere changes no island again. -/
theorem cutIslands_done {c : Ckpt} {ids : List Nat} {s : State} (hckpt : s.durab.ckpt = some c)
    (hcut : ∀ i ∈ ids, i ∈ c.cut) : ids.foldl (fun s i => cutIsland i s) s = s := by
  induction ids with
  | nil => rfl
  | cons i ids ih =>
    have hdone : cutIsland i s = s := by
      unfold cutIsland
      rw [hckpt]
      exact if_pos (hcut i List.mem_cons_self)
    rw [List.foldl_cons, hdone]
    exact ih fun j hj => hcut j (List.mem_cons_of_mem _ hj)

theorem rootStep_cut {c : Ckpt} {s : State} (hckpt : s.durab.ckpt = some c) (hruns : s.running = true)
    (hawake : ((List.range 8).all fun k => s.clocked (idMirror k) && (s.island (idMirror k)).level == .awake) = true)
    (hcut : ∀ n, n < 212 → n ∈ c.cut) :
    rootStep s = finishCheckpoint c (busyAll s ((List.range 8).map idMirror)) := by
  have hall := List.all_eq_true.mp hawake
  have hclocked : (((List.range 8).map idMirror).any fun i => !s.clocked i) = false := by
    simp only [List.any_eq_false, List.mem_map]
    rintro i ⟨k, hk, rfl⟩
    simp [(Bool.and_eq_true_iff.mp (hall k hk)).1]
  have hlevel : (((List.range 8).map idMirror).any fun i => (s.island i).level != .awake) = false := by
    simp only [List.any_eq_false, List.mem_map]
    rintro i ⟨k, hk, rfl⟩
    have := (Bool.and_eq_true_iff.mp (hall k hk)).2
    simp_all
  have hbusy : (busyAll s ((List.range 8).map idMirror)).durab.ckpt = some c := by
    rw [busyAll_durab]
    exact hckpt
  unfold rootStep onIslands handshake
  rw [if_neg (by simp [hruns]), if_neg (by simp only [hclocked]; decide), if_neg (by simp only [hlevel]; decide)]
  change crossing _ _ (busyAll s ((List.range 8).map idMirror)) = _
  unfold crossing
  rw [hbusy]
  dsimp only
  have hhead : (((List.range 8).map idMirror).head?.any fun i => decide (i ∈ c.cut)) = true :=
    decide_eq_true (hcut (idMirror 0) (by decide))
  rw [if_pos hhead, cutIslands_done hbusy ?_, hbusy]
  · exact if_pos (by simpa using fun i hi => hcut i hi)
  · intro i hi
    refine hcut i ?_
    have : i ∈ (List.range 8).map idMirror := List.mem_of_mem_tail hi
    obtain ⟨k, hk, rfl⟩ := List.mem_map.mp this
    have := List.mem_range.mp hk
    unfold idMirror
    omega

/-- The ends of items change the queues alone. -/
theorem answerItems_frame (epoch : Nat) (items : List (Nat × Nat)) (s : State) :
    let t := answerItems epoch items s
    t = { s with dur := { s.dur with queues := t.dur.queues }, queues := t.queues } := by
  refine foldl_rel (R := fun s t => t = { s with dur := { s.dur with queues := t.dur.queues }, queues := t.queues })
    (fun _ => rfl) (fun h k => by rw [k, h]) (fun s x => ?_) items s
  split
  · unfold endOk endItem releaseEngine
    split <;> rfl
  · rfl

/-- What the commit of a root that flips its lines writes (R608, R610, R614). -/
theorem commitRoot_spec (kind : RootKind) (epoch : Nat) (image : Durable) (lines : List Line) (s : State) :
    let t := commitRoot kind epoch image lines s
    ∃ (m : Mram) (head : RootHead) (map : SlotMap), head.kind = kind ∧ head.epoch = epoch ∧
      head.prevEpoch = s.dur.g.lastRootEpoch ∧ map.context = !s.durab.current.context ∧
      t.mram = m.writeBoth (Place.of head map [] []) .complete ∧ m.a0 = s.mram.a0 ∧ m.a1 = s.mram.a1 ∧
      m.b0 = s.mram.b0 ∧ m.b1 = s.mram.b1 ∧ m.base = s.mram.base ∧ t.durab.current = map ∧
      t.dur.g.lastRootEpoch = epoch := by
  obtain ⟨hframe, hcurrent, ha0, ha1, hb0, hb1, hbase⟩ :=
    (writeContexts_writesSlots image s).trans (writeStripes_writesSlots _ image lines)
  unfold commitRoot
  generalize writeStripes image lines (writeContexts image s) = x at *
  refine ⟨x.mram, headOf x kind epoch x.durab.written, flipMap x x.durab.written, rfl, rfl, ?_, ?_, rfl, ha0, ha1, hb0,
    hb1, hbase, rfl, rfl⟩
  · exact (congrArg (fun t : State => t.dur.g.lastRootEpoch) hframe :)
  · exact congrArg (fun map : SlotMap => !map.context) hcurrent

theorem writeStripes_wanted (image : Durable) (lines : List Line) (s : State) :
    (writeStripes image lines s).durab.ckptWanted = s.durab.ckptWanted := by
  rw [writeStripes_eq]
  refine foldl_rel (R := fun s t => t.durab.ckptWanted = s.durab.ckptWanted) (fun _ => rfl)
    (fun h k => k.trans h) (fun s stripe => ?_) _ s
  exact foldl_rel (R := fun s t => t.durab.ckptWanted = s.durab.ckptWanted) (f := writeStripeLine image) (fun _ => rfl)
    (fun h k => k.trans h) (fun _ _ => rfl) stripe s

theorem commitRoot_wanted (kind : RootKind) (epoch : Nat) (image : Durable) (lines : List Line) (s : State) :
    (commitRoot kind epoch image lines s).durab.ckptWanted = s.durab.ckptWanted := by
  have h : (writeStripes image lines (writeContexts image s)).durab.ckptWanted = s.durab.ckptWanted :=
    writeStripes_wanted image lines (writeContexts image s)
  unfold commitRoot
  generalize writeStripes image lines (writeContexts image s) = x at *
  exact h

/-- A checkpoint's root committed and its items answered. -/
def checkpointEnded (c : Ckpt) (s : State) : State :=
  let x := commitRoot .checkpoint c.epoch c.image s.durab.owed s
  throttleRelease (answerItems c.epoch c.covers { x with durab := { x.durab with ckpt := none, owed := [] } })

theorem checkpointEnded_frame (c : Ckpt) (s : State) :
    let x := commitRoot .checkpoint c.epoch c.image s.durab.owed s
    let t := checkpointEnded c s
    t = { x with
      dur := { x.dur with queues := t.dur.queues }
      queues := t.queues
      durab := { x.durab with ckpt := none, owed := [], holding := t.durab.holding } } := by
  unfold checkpointEnded
  intro x t
  have hitems := answerItems_frame c.epoch c.covers { x with durab := { x.durab with ckpt := none, owed := [] } }
  dsimp only at hitems
  simp only [t]
  generalize answerItems c.epoch c.covers { x with durab := { x.durab with ckpt := none, owed := [] } } = y at hitems ⊢
  unfold throttleRelease
  rw [hitems]

theorem checkpointEnded_kept (c : Ckpt) (s : State) :
    (checkpointEnded c s).durab.ckptWanted = s.durab.ckptWanted ∧ (checkpointEnded c s).keeper = s.keeper := by
  have hframe := checkpointEnded_frame c s
  have hwanted := commitRoot_wanted .checkpoint c.epoch c.image s.durab.owed s
  have hkeeper := congrArg State.keeper (commitRoot_frame s .checkpoint c.epoch c.image s.durab.owed)
  dsimp only at hframe hkeeper
  generalize commitRoot .checkpoint c.epoch c.image s.durab.owed s = x at *
  generalize checkpointEnded c s = t at *
  exact ⟨(congrArg (fun t : State => t.durab.ckptWanted) hframe :).trans hwanted,
    (congrArg State.keeper hframe :).trans hkeeper⟩

theorem finishCheckpoint_eq (c : Ckpt) (s : State) : finishCheckpoint c s =
    if (checkpointEnded c s).durab.ckptWanted then startCheckpoint (checkpointEnded c s)
    else if (checkpointEnded c s).keeper.scanWanted then enterScan (checkpointEnded c s)
    else checkpointEnded c s := rfl

/-- A checkpoint whose root nothing follows. -/
theorem finishCheckpoint_alone {c : Ckpt} {s : State} (hwanted : s.durab.ckptWanted = false)
    (hscan : s.keeper.scanWanted = false) : finishCheckpoint c s = checkpointEnded c s := by
  obtain ⟨hwanted', hkeeper⟩ := checkpointEnded_kept c s
  rw [finishCheckpoint_eq, hwanted', hwanted, hkeeper, hscan]
  rfl

theorem rootCommit_spec {c : Ckpt} {s : State} (hckpt : s.durab.ckpt = some c) (hruns : s.running = true)
    (hawake : ((List.range 8).all fun k => s.clocked (idMirror k) && (s.island (idMirror k)).level == .awake) = true)
    (hcut : ∀ n, n < 212 → n ∈ c.cut) (hwanted : s.durab.ckptWanted = false) (hscan : s.keeper.scanWanted = false)
    (hnone : nothingWaits s) :
    ∃ (t : State) (m : Mram) (head : RootHead) (map : SlotMap), exec .rootCommit s = .next t ∧
      head.kind = .checkpoint ∧ head.epoch = c.epoch ∧ head.prevEpoch = s.dur.g.lastRootEpoch ∧
      map.context = !s.durab.current.context ∧ t.mram = m.writeBoth (Place.of head map [] []) .complete ∧
      m.a0 = s.mram.a0 ∧ m.a1 = s.mram.a1 ∧ m.b0 = s.mram.b0 ∧ m.b1 = s.mram.b1 ∧ m.base = s.mram.base ∧
      t.durab.ckpt = none ∧ t.durab.owed = [] ∧ t.durab.current = map ∧ t.dur.g.lastRootEpoch = c.epoch ∧
      t.nv = s.nv ∧ t.ledger = s.ledger := by
  have hstep : rootStep (cleared s) = checkpointEnded c (begun s ((List.range 8).map idMirror)) :=
    (rootStep_cut (s := cleared s) hckpt hruns hawake hcut).trans
      (finishCheckpoint_alone (by rw [busyAll_durab]; exact hwanted) (by rw [busyAll_keeper]; exact hscan))
  have hexec : exec .rootCommit s = .next (answered s (checkpointEnded c (begun s ((List.range 8).map idMirror)))) := by
    change answer s (fun s => retryHeld (rootStep s)) = _
    refine answer_eq ((retryHeld_of_sameWaiting (s := cleared s) (rootStep_sameWaiting _) hnone).trans hstep)
  have hframe := checkpointEnded_frame c (begun s ((List.range 8).map idMirror))
  obtain ⟨m, head, map, hkind, hepoch, hprev, hcontext, hmram, ha0, ha1, hb0, hb1, hbase, hcurrent, hlast⟩ :=
    commitRoot_spec .checkpoint c.epoch c.image (begun s ((List.range 8).map idMirror)).durab.owed
      (begun s ((List.range 8).map idMirror))
  have hroot := commitRoot_frame (begun s ((List.range 8).map idMirror)) .checkpoint c.epoch c.image
    (begun s ((List.range 8).map idMirror)).durab.owed
  dsimp only at hframe
  rw [begun_dur] at hprev
  rw [begun_durab] at hcontext
  rw [begun_mram] at ha0 ha1 hb0 hb1 hbase
  have hnv : (commitRoot .checkpoint c.epoch c.image (begun s ((List.range 8).map idMirror)).durab.owed
      (begun s ((List.range 8).map idMirror))).nv = s.nv := by
    rw [hroot]
    exact begun_nv ..
  have hledger : (commitRoot .checkpoint c.epoch c.image (begun s ((List.range 8).map idMirror)).durab.owed
      (begun s ((List.range 8).map idMirror))).ledger = s.ledger := by
    rw [hroot]
    exact begun_ledger ..
  generalize commitRoot .checkpoint c.epoch c.image (begun s ((List.range 8).map idMirror)).durab.owed
    (begun s ((List.range 8).map idMirror)) = x at *
  generalize checkpointEnded c (begun s ((List.range 8).map idMirror)) = t at *
  refine ⟨_, m, head, map, hexec, hkind, hepoch, hprev, hcontext, ?_, ha0, ha1, hb0, hb1, hbase, ?_⟩
  all_goals simp only [answered_mram, answered_durab, answered_dur, answered_nv, answered_ledger]
  · exact (congrArg State.mram hframe :).trans hmram
  · exact ⟨(congrArg (fun t : State => t.durab.ckpt) hframe :), (congrArg (fun t : State => t.durab.owed) hframe :),
      (congrArg (fun t : State => t.durab.current) hframe :).trans hcurrent,
      (congrArg (fun t : State => t.dur.g.lastRootEpoch) hframe :).trans hlast,
      (congrArg State.nv hframe :).trans hnv, (congrArg State.ledger hframe :).trans hledger⟩

/-- Settles O48: it holds. -/
theorem linesAndCheckpointsAreWritten : Obligations.LinesAndCheckpointsAreWritten := by
  unfold Obligations.LinesAndCheckpointsAreWritten
  refine ⟨fun c la k s hready henabled hla hnone => ?_,
    fun s hruns henabled hauto => ⟨autoCheckpoint_starts hruns henabled hauto,
      autoCheckpoint_waits hruns henabled hauto⟩,
    fun i n c s hid hckpt hruns hclocked hfresh => cutToken_spec hid hckpt hruns hclocked hfresh,
    fun c s hckpt hruns hawake hcut hwanted hscan hnone =>
      rootCommit_spec hckpt hruns hawake hcut hwanted hscan hnone⟩
  intro w l
  refine ⟨exec_mirrorWrite_not hready henabled hla hnone, fun hc hdirty => ⟨fun hspare => ?_, fun hfailed hleft => ?_⟩⟩
  · refine ⟨_, (exec_mirrorWrite_dirty hready henabled hla hnone hc hdirty).trans
      (congrArg (fun t => Host.Outcome.next (answered s t)) (if_neg ?_)), ?_⟩
    · rcases hspare with h | h <;> simp [h]
    · have hspec := lineWritten_spec (lineOf_la la) (k := k) w (by rw [begun_mram, Line.channel, hc]; exact hspare)
      rw [begun_dur, begun_durab, begun_mram, begun_nv, begun_ledger, Line.channel, hc] at hspec
      exact hspec
  · refine ⟨_, (exec_mirrorWrite_dirty hready henabled hla hnone hc hdirty).trans
      (congrArg (fun t => Host.Outcome.next (answered s t)) (if_pos ?_)), ?_⟩
    · simp [hfailed, hleft]
    · obtain ⟨hframe, hdurab, -, -, hmram, -⟩ := verifyWrite_verified (lineOf_la la) k w
      generalize verifyWrite (lineOf la) k w = v at *
      simp only [answered_mram, answered_durab, answered_dur, answered_nv, answered_ledger]
      refine ⟨?_, (hmram (.inr ?_)).trans (begun_mram ..), (congrArg State.dur hframe :).trans (begun_dur ..),
        (congrArg State.nv hframe :).trans (begun_nv ..), (congrArg State.ledger hframe :).trans (begun_ledger ..)⟩
      · have hdirty : w.durab.dirty = s.durab.dirty := congrArg Durab.dirty (begun_durab ..)
        exact (congrArg Durab.dirty hdurab :).trans hdirty
      · rw [begun_mram, Line.channel, hc]
        exact hleft

end Sys2Proof.Machine
end

section
/-!
MirrorEnable and DirtyBudget.
-/

namespace Sys2Proof.Machine

open Sys2Proof

/-! ### MirrorEnable and DirtyBudget (DU.2 to DU.4) -/

/-- No bank holds anything back while mirroring is off. -/
theorem roomToDirty_of_off {s : State} (h : s.dur.g.mirrorEnable = false) : roomToDirty s := fun l => by
  unfold throttled
  rw [h]
  rfl

/-- The entry into Scan leaves what is durable. -/
theorem enterScan_frame (s : State) :
    let t := enterScan s
    t = { s with ledger := t.ledger, conduct := t.conduct, out := t.out, free := t.free, keeper := t.keeper } := by
  have hcleared : LedgerStep { s with keeper := { s.keeper with rdy := false } }
      (clearRdy (fenceReadsDone (persistAll s))) := by
    refine LedgerStep.trans ?_ (failLedgerReads_ledgerStep _)
    have hended := (persistAll_ledgerStep s).trans (fenceReadsDone_ledgerStep _)
    unfold LedgerStep at *
    generalize fenceReadsDone (persistAll s) = t at *
    rw [hended]
  unfold enterScan
  unfold LedgerStep at hcleared
  generalize clearRdy (fenceReadsDone (persistAll s)) = t at *
  rw [hcleared]

/-- Mirroring has stopped, before a SCAN_ENTER that waited goes on (R620). -/
def mirrorStopped (s : State) : State :=
  let covers := (s.durab.ckpt.map Ckpt.covers).getD []
  let s := { s with
    mram := s.mram.erase
    durab := { s.durab with
      rootValid := false
      ckpt := none
      ckptItems := covers ++ s.durab.ckptItems
      ckptWanted := s.durab.ckptWanted || s.durab.ckpt.isSome
      dirty := s.durab.dirty ++ s.durab.owed.filter (fun l => l ∉ s.durab.dirty)
      owed := [] } }
  throttleRelease ((s.modG fun g => { g with mirrorEnable := false }).touch (objectLine 718))

theorem mirrorOff_eq (s : State) :
    mirrorOff s = if s.keeper.scanWanted then enterScan (mirrorStopped s) else mirrorStopped s := rfl

theorem mirrorStopped_spec (s : State) :
    let t := mirrorStopped s
    t.dur.g.mirrorEnable = false ∧ t.mram = s.mram.erase ∧ t.durab.ckpt = none ∧ t.durab.rootValid = false ∧
    t.dur.g.epoch = s.dur.g.epoch ∧ t.nv = s.nv ∧ t.ledger = s.ledger ∧ t.keeper = s.keeper :=
  ⟨rfl, rfl, rfl, rfl, rfl, rfl, rfl, rfl⟩

theorem mirrorOff_spec (s : State) :
    let t := mirrorOff s
    t.dur.g.mirrorEnable = false ∧ t.mram = s.mram.erase ∧ t.durab.ckpt = none ∧ t.durab.rootValid = false ∧
    t.dur.g.epoch = s.dur.g.epoch ∧ t.nv = s.nv ∧
    (s.keeper.scanWanted = false → t.ledger = s.ledger ∧ t.keeper = s.keeper) := by
  obtain ⟨henable, hmram, hckpt, hvalid, hepoch, hnv, hledger, hkeeper⟩ := mirrorStopped_spec s
  rw [mirrorOff_eq]
  generalize mirrorStopped s = x at *
  cases hscan : s.keeper.scanWanted with
  | false => exact ⟨henable, hmram, hckpt, hvalid, hepoch, hnv, fun _ => ⟨hledger, hkeeper⟩⟩
  | true =>
    have hframe := enterScan_frame x
    dsimp only at hframe
    rw [if_pos rfl, hframe]
    exact ⟨henable, hmram, hckpt, hvalid, hepoch, hnv, fun h => absurd h (by decide)⟩

/-- Mirroring about to start, before its root (R621). -/
def mirrorStarting (s : State) : State :=
  let s := (s.modG fun g => { g with mirrorEnable := true, epoch := g.epoch + 1 }).touch (objectLine 718)
  { s with durab := { s.durab with dirty := [], owed := [], ckptItems := [], ckptWanted := false } }

theorem mirrorOn_eq (s : State) : mirrorOn s =
    throttleRelease (answerItems (s.dur.g.epoch + 1) s.durab.ckptItems
      (commitMirrorStart (s.dur.g.epoch + 1) (mirrorStarting s))) := rfl

theorem mirrorOn_spec (s : State) :
    let t := mirrorOn s
    ∃ p : Place, t.dur.g.mirrorEnable = true ∧
      t.dur.g.epoch = s.dur.g.epoch + 1 ∧ t.dur.g.lastRootEpoch = s.dur.g.epoch + 1 ∧ p.head.kind = .mirrorStart ∧
      p.head.epoch = s.dur.g.epoch + 1 ∧ p.map = { lines := [], context := false } ∧ t.mram.a0 = some p ∧
      t.mram.a1 = some p ∧ t.mram.b0 = some p ∧ t.mram.b1 = some p ∧ t.nv = s.nv ∧ t.ledger = s.ledger ∧
      t.keeper = s.keeper := by
  obtain ⟨p, hkind, hepoch, -, hmap, -, ha0, ha1, hb0, hb1, hframe⟩ :=
    commitMirrorStart_spec (mirrorStarting s) (s.dur.g.epoch + 1)
  have hitems := answerItems_frame (s.dur.g.epoch + 1) s.durab.ckptItems
    (commitMirrorStart (s.dur.g.epoch + 1) (mirrorStarting s))
  rw [mirrorOn_eq]
  dsimp only at hitems
  generalize commitMirrorStart (s.dur.g.epoch + 1) (mirrorStarting s) = x at *
  generalize answerItems (s.dur.g.epoch + 1) s.durab.ckptItems x = y at *
  have hdur : y.dur.g = { (mirrorStarting s).dur.g with lastRootEpoch := s.dur.g.epoch + 1 } := by
    rw [hitems, hframe]
  have hmram : y.mram = x.mram := (congrArg State.mram hitems :)
  refine ⟨p, ?_, ?_, ?_, hkind, hepoch, hmap, ?_, ?_, ?_, ?_, ?_, ?_, ?_⟩
  · exact (congrArg Globals.mirrorEnable hdur :)
  · exact (congrArg Globals.epoch hdur :)
  · exact (congrArg Globals.lastRootEpoch hdur :)
  · exact (congrArg Mram.a0 hmram :).trans ha0
  · exact (congrArg Mram.a1 hmram :).trans ha1
  · exact (congrArg Mram.b0 hmram :).trans hb0
  · exact (congrArg Mram.b1 hmram :).trans hb1
  · exact (congrArg State.nv hitems :).trans (congrArg State.nv hframe :)
  · exact (congrArg State.ledger hitems :).trans (congrArg State.ledger hframe :)
  · exact (congrArg State.keeper hitems :).trans (congrArg State.keeper hframe :)

theorem clamp_clamp {lo hi : Nat} (h : lo ≤ hi) (v : Nat) : clamp lo hi (clamp lo hi v) = clamp lo hi v := by
  unfold clamp
  split_ifs <;> omega

/-- A write of DirtyBudget (R602, R606). -/
theorem setDirtyBudget_spec (v : Nat) (s : State) :
    let t := setDirtyBudget v s
    t.dur.g.dirtyBudget = clamp 1 8 v ∧ t.dur.g.epoch = s.dur.g.epoch ∧ t.mram = s.mram ∧ t.nv = s.nv ∧
    t.ledger = s.ledger := by
  unfold setDirtyBudget
  extract_lets v' x y t
  have hx : x.dur.g.dirtyBudget = v' ∧ x.dur.g.epoch = s.dur.g.epoch ∧ x.mram = s.mram ∧ x.nv = s.nv ∧
      x.ledger = s.ledger := by
    simp only [x]
    split
    next h => exact ⟨h, rfl, rfl, rfl, rfl⟩
    · exact ⟨rfl, rfl, rfl, rfl, rfl⟩
  have hengage (banks : List Nat) : (throttleEngage banks y).dur = y.dur ∧ (throttleEngage banks y).mram = y.mram ∧
      (throttleEngage banks y).nv = y.nv ∧ (throttleEngage banks y).ledger = y.ledger := by
    unfold throttleEngage
    dsimp only
    split <;> simp
  simp only [t]
  split
  · obtain ⟨hdur, hmram, hnv, hledger⟩ := hengage ((List.range 32).filter fun b => decide (quota y < bankDirty y b))
    rw [hdur, hmram, hnv, hledger]
    exact hx
  · exact hx

theorem written_kept (s : State) (r : Req) (reg obj : List Nat) : (written s r reg obj).dur = s.dur ∧
    (written s r reg obj).mram = s.mram ∧ (written s r reg obj).nv = s.nv ∧
    (written s r reg obj).ledger = s.ledger ∧ (written s r reg obj).keeper = s.keeper ∧
    (written s r reg obj).fabric = s.fabric := by
  unfold written
  simp

/-- Settles O49: it holds. -/
theorem mirrorSwitches : Obligations.MirrorSwitches := by
  unfold Obligations.MirrorSwitches
  refine ⟨fun r s hopen hroom henabled hjudge => ?_, fun r s hopen hoff hjudge => ?_, fun r v s hopen hroom => ?_⟩
  · have hexec : exec (.mirrorDisable r) s = .next (answered s (mirrorOff (cleared s))) := by
      refine answer_eq ((dictCommand_taken (o := .mirrorEnable) rfl hopen hroom hjudge).trans ?_)
      change State.clampedBy (setMirror false (cleared s)) r false = _
      rw [clampedBy_false, setMirror, show (cleared s).dur.g.mirrorEnable = true from henabled]
      rfl
    exact ⟨_, hexec, mirrorOff_spec (cleared s)⟩
  · have hexec : exec (.mirrorEnable r) s = .next (answered s (mirrorOn (cleared s))) := by
      refine answer_eq ((dictCommand_taken (o := .mirrorEnable) rfl hopen (roomToDirty_of_off hoff) hjudge).trans ?_)
      change State.clampedBy (setMirror true (cleared s)) r false = _
      rw [clampedBy_false, setMirror, show (cleared s).dur.g.mirrorEnable = false from hoff]
      rfl
    obtain ⟨p, hspec⟩ := mirrorOn_spec (cleared s)
    exact ⟨_, p, hexec, hspec⟩
  · intro bs hjudge
    have hexec : exec (.dirtyBudgetWrite r v) s = .next (answered s
        ((setDirtyBudget (clamp 1 8 (leNat bs)) (written s r [idManagement] [])).clampedBy r
          (Obj.dirtyBudget.clamps bs))) :=
      answer_eq (viaRegister_taken (by decide) rfl (fun _ => rfl) (fun _ _ => rfl) rfl (List.nodup_singleton _) rfl
        (fun _ _ => rfl) hopen hroom hjudge)
    obtain ⟨hdur, hmram, hnv, hledger, -, -⟩ := written_kept s r [idManagement] []
    have hspec := setDirtyBudget_spec (clamp 1 8 (leNat bs)) (written s r [idManagement] [])
    dsimp only at hspec
    rw [hdur, hmram, hnv, hledger, clamp_clamp (by decide)] at hspec
    refine ⟨_, hexec, ?_⟩
    simp only [answered_dur, answered_mram, answered_nv, answered_ledger, State.clampedBy_dur, State.clampedBy_mram,
      State.clampedBy_nv, State.clampedBy_ledger]
    exact hspec

end Sys2Proof.Machine
end

section
/-!
The ceiling, and islands that doze, are retained and wake.
-/

namespace Sys2Proof.Machine

open Sys2Proof

/-! ### The ceiling (PW.1) -/

/-- The ceiling written while the core runs. -/
theorem setCeiling_spec {v : Nat} {s : State} (hrun : s.inRun = true) :
    let t := setCeiling v s
    t.dur.g.ceiling = v ∧ t.keeper.pstate = (if v = 0 then .p0 else if v = 1 then .p1 else .p2) ∧ t.nv = s.nv ∧
    t.ledger = s.ledger ∧ t.mram = s.mram ∧ t.fabric = s.fabric := by
  unfold setCeiling
  extract_lets x k y deep t
  have hwakes : t = { y with power := t.power } :=
    foldl_rel (R := fun s t => t = { s with power := t.power }) (fun _ => rfl) (fun h k => by rw [k, h])
      (fun s i => wakeUp_frame s i) deep y
  have hx : x = { s with dur := { s.dur with g := { s.dur.g with ceiling := v } }, durab := x.durab } := by
    simp only [x]
    unfold State.touchIf
    rfl
  have hy : y = { x with keeper := { x.keeper with pstate := ceilingState x } } := by
    refine if_pos ?_
    rw [hx]
    exact hrun
  clear_value t y x
  have hceiling : x.dur.g.ceiling = v := (congrArg (fun s : State => s.dur.g.ceiling) hx :)
  rw [hwakes, hy]
  refine ⟨hceiling, ?_, (congrArg State.nv hx :), (congrArg State.ledger hx :), (congrArg State.mram hx :),
    (congrArg State.fabric hx :)⟩
  change ceilingState x = _
  unfold ceilingState
  rw [hceiling]

theorem exec_ceilingWrite {r : Req} {v : Word} {s : State} (hopen : writeOpen s r [idManagement] [] = true)
    (hroom : roomToDirty s)
    (hjudge : judgeWrite s r false .powerCeiling 0 (valueBytes r .powerCeiling 2 v.toNat) = none) :
    exec (.ceilingWrite r v) s = .next (answered s (setCeiling
      (leNat (valueBytes r .powerCeiling 2 v.toNat)) (written s r [idManagement] []))) := by
  refine answer_eq ((viaRegister_taken (by decide) rfl (fun _ => rfl) (fun _ _ => rfl) rfl (List.nodup_singleton _) rfl
    (fun _ _ => rfl) hopen hroom hjudge).trans ?_)
  have hclamps : Obj.powerCeiling.clamps (valueBytes r .powerCeiling 2 v.toNat) = false := bne_self_eq_false _
  rw [hclamps, clampedBy_false]
  rfl

/-! ### Islands doze, are retained and wake (PW.2 to PW.4) -/

section
variable {i : Island} {n : Nat} {s : State} (hid : islandId i = some n) (hruns : s.running = true)
  (hclocked : s.clocked n = true)
include hid hruns hclocked

theorem exec_islandDoze (hmay : mayDoze i.kind = true) (hceiling : s.dur.g.ceiling ≠ 0)
    (hawake : (s.island n).level = .awake) (hidle : islandIdle s i = true) :
    exec (.islandDoze i) s = .next (answered s (((cleared s).elapseTo
      ((s.island n).lastBusy + 10 * s.dur.g.dozeDelay)).modIsland n fun x =>
        { x with level := .dozing, waking := false })) := by
  change execIslandDoze i s = _
  refine answer_eq ?_
  rw [hid]
  refine if_neg ?_
  rw [show (cleared s).running = true from hruns, show (cleared s).clocked n = true from hclocked,
    show (cleared s).island n = s.island n from rfl, show islandIdle (cleared s) i = true from hidle, hmay, hawake,
    show decide ((cleared s).dur.g.ceiling = 0) = false from decide_eq_false hceiling]
  decide

/-- An island retained, before what it loses by it. -/
def retainedAt (n : Nat) (s : State) : State :=
  let x := ((cleared s).elapseTo
    ((s.island n).lastBusy + 10 * s.dur.g.dozeDelay + 1000 * s.dur.g.retainDelay)).modIsland n fun p =>
      { p with level := .retained }
  { x with power := { x.power with retains := satAdd 64 x.power.retains 1 } }

theorem exec_islandRetain (hmay : mayRetain i.kind = true) (hceiling : s.dur.g.ceiling = 2)
    (hdozes : (s.island n).level = .dozing) (hasleep : (s.island n).waking = false) (hidle : islandIdle s i = true)
    (hretain : retainable s i = true) :
    exec (.islandRetain i) s = .next (answered s (match i.kind with
      | .translation =>
        (retainedAt n s).modXIsland i.idx fun x => { x with leaf := [], dir1 := [], dir2 := [], dir3 := [] }
      | _ => retainedAt n s)) := by
  change execIslandRetain i s = _
  refine answer_eq ?_
  rw [hid]
  refine if_neg ?_
  rw [show (cleared s).running = true from hruns, show (cleared s).clocked n = true from hclocked,
    show (cleared s).island n = s.island n from rfl, show islandIdle (cleared s) i = true from hidle,
    show retainable (cleared s) i = true from hretain, hmay, hdozes, hasleep,
    show (cleared s).dur.g.ceiling = 2 from hceiling]
  decide

theorem exec_islandWake (hwaking : (s.island n).waking = true) :
    exec (.islandWake i) s = .next (answered s (((cleared s).wakeUp n).busy n)) := by
  change execIslandWake i s = _
  refine answer_eq ?_
  rw [hid]
  exact if_pos (by simp only [Bool.and_eq_true]; exact ⟨⟨hruns, hclocked⟩, hwaking⟩)

end

/-- What an island's retention leaves, but for a walk cache. -/
theorem retainedAt_spec (n : Nat) (s : State) :
    let t := retainedAt n s
    (t.island n).level = .retained ∧ t.power.retains = satAdd 64 s.power.retains 1 ∧
    (s.island n).lastBusy + 10 * s.dur.g.dozeDelay + 1000 * s.dur.g.retainDelay ≤ t.now ∧
    t.xlate = s.xlate ∧ t.dur = s.dur ∧ t.nv = s.nv ∧ t.ledger = s.ledger := by
  intro t
  refine ⟨?_, ?_, ?_, ?_, ?_, ?_, ?_⟩
  · have hlevel : ({ ((cleared s).elapseTo ((s.island n).lastBusy + 10 * s.dur.g.dozeDelay +
        1000 * s.dur.g.retainDelay)).island n with level := .retained } : IslandPower) ≠ .initial := fun h => by
      have hasleep := congrArg IslandPower.level h
      cases hasleep
    exact congrArg IslandPower.level (mget_mput_of_ne hlevel _ _)
  · simp [t, retainedAt, State.modIsland]
  · change _ ≤ ((cleared s).elapseTo _).now
    rw [elapseTo_now]
    exact Nat.le_max_right _ _
  · simp [t, retainedAt, State.modIsland]
  · simp [t, retainedAt, State.modIsland]
  · simp [t, retainedAt, State.modIsland]
  · simp [t, retainedAt, State.modIsland]

theorem wakeUp_wakes {n : Nat} {s : State} (h : (s.island n).level ≠ .awake) :
    (s.wakeUp n).power.wakes = satAdd 64 s.power.wakes 1 := by
  unfold State.wakeUp
  rw [if_neg h]
  rfl

/-- Settles O51: it holds. -/
theorem powerFollowsCeilingAndIdleness : Obligations.PowerFollowsCeilingAndIdleness := by
  unfold Obligations.PowerFollowsCeilingAndIdleness
  refine ⟨fun r v s hopen hroom hrun => ?_, fun i n s hid hruns hclocked => ⟨?_, ?_, ?_⟩⟩
  · intro bs hjudge
    obtain ⟨hdur, hmram, hnv, hledger, hkeeper, hfabric⟩ := written_kept s r [idManagement] []
    have hrun' : (written s r [idManagement] []).inRun = true := by
      unfold State.inRun
      rw [hkeeper]
      exact hrun
    have hspec := setCeiling_spec (v := leNat bs) hrun'
    dsimp only at hspec
    rw [hmram, hnv, hledger, hfabric] at hspec
    exact ⟨_, exec_ceilingWrite hopen hroom hjudge, hspec⟩
  · exact fun hmay hceiling hawake hidle => exec_islandDoze hid hruns hclocked hmay hceiling hawake hidle
  · intro hmay hceiling hdozes hasleep hidle hretain
    refine ⟨_, exec_islandRetain hid hruns hclocked hmay hceiling hdozes hasleep hidle hretain, ?_⟩
    obtain ⟨hlevel, hretains, hnow, hxlate, hdur, hnv, hledger⟩ := retainedAt_spec n s
    generalize retainedAt n s = x at *
    split
    next hkind =>
      have hcaches := congrArg (fun m : Xlate => mmod XIsland.initial m.islands i.idx fun x =>
        { x with leaf := [], dir1 := [], dir2 := [], dir3 := [] }) hxlate
      exact ⟨hlevel, hretains, hnow, fun _ => hcaches, fun h => absurd hkind h, hdur, hnv, hledger⟩
    next hkind => exact ⟨hlevel, hretains, hnow, fun h => absurd h hkind, fun _ => hxlate, hdur, hnv, hledger⟩
  · exact fun hwaking hasleep => ⟨exec_islandWake hid hruns hclocked hwaking, wakeUp_wakes (s := cleared s) hasleep⟩

end Sys2Proof.Machine
end

section
/-!
Authorization requests and the transitions that they record.
-/

namespace Sys2Proof.Machine

open Sys2Proof

/-! ### An AuthRequest that no check stops (SD.2) -/

/-- An AuthRequest has its effect at once where it dirties no line. -/
theorem authRequest_taken {s : State} {r : Req} {action arg : Byte} (hopen : dictOpen s r [] = true)
    (hjudge : judgeWrite s r false .authRequest 0 [action, arg, 0, 0] = none)
    (hdirty : (authRequest r action.toNat arg.toNat (cleared s)).durab.dirty = s.durab.dirty) :
    dictCommand r .authRequest 0 [action, arg, 0, 0] (cleared s) =
      authRequest r action.toNat arg.toNat (cleared s) := by
  have hfield (a b : Byte) : fieldAt [a, b, 0, 0] 0 1 = a.toNat ∧ fieldAt [a, b, 0, 0] 1 1 = b.toNat := by
    simp [fieldAt, bytesAt, leNat]
  refine dictCommand_of_held rfl hopen hjudge ?_ (heldBanks_same hdirty)
  have hclamps : Obj.authRequest.clamps [action, arg, 0, 0] = false := bne_self_eq_false _
  change (authRequest r (fieldAt [action, arg, 0, 0] 0 1) (fieldAt [action, arg, 0, 0] 1 1) (cleared s)).clampedBy r
    (Obj.authRequest.clamps [action, arg, 0, 0]) = _
  rw [hclamps, clampedBy_false]
  rw [(hfield action arg).1, (hfield action arg).2]

section
variable {s : State} {r : Req} (hopen : dictOpen s r [] = true)
include hopen

theorem exec_newNonce (hjudge : judgeWrite s r false .authRequest 0 [1, 0, 0, 0] = none) :
    exec (.newNonce r) s = .next (answered s (newNonce r (cleared s))) :=
  answer_eq (authRequest_taken hopen hjudge rfl)

theorem exec_authNone (hjudge : judgeWrite s r false .authRequest 0 [0, 0, 0, 0] = none) :
    exec (.authNone r) s = .next (answered s (cleared s)) :=
  answer_eq (authRequest_taken hopen hjudge rfl)

theorem exec_setState {arg : Byte} {t : State}
    (hjudge : judgeWrite s r false .authRequest 0 [2, arg, 0, 0] = none)
    (heffect : setState r arg.toNat (cleared s) = t) (hdirty : t.durab.dirty = s.durab.dirty) :
    exec (.setState r arg) s = .next (answered s t) := by
  subst heffect
  exact answer_eq (authRequest_taken hopen hjudge hdirty)

theorem exec_debug {arg : Byte} {t : State}
    (hjudge : judgeWrite s r false .authRequest 0 [3, arg, 0, 0] = none)
    (heffect : debugGrant r arg.toNat (cleared s) = t) (hdirty : t.durab.dirty = s.durab.dirty) :
    exec (.debug r arg) s = .next (answered s t) := by
  subst heffect
  exact answer_eq (authRequest_taken hopen hjudge hdirty)

end

/-- A nonce's end, at a time. -/
def nonceEnded (r : Req) (due : Nat) (s : State) : State :=
  ((cleared s).elapseTo due).modAuth r fun a => { a with nonce := none }

theorem nonceEnded_spec (r : Req) (due : Nat) (s : State) :
    let t := nonceEnded r due s
    (t.auth.get r).nonce = none ∧ due ≤ t.now ∧ t.nv = s.nv ∧ t.dap = s.dap ∧ t.keeper = s.keeper := by
  refine ⟨by simp [nonceEnded, State.modAuth], ?_, elapseTo_nv due (cleared s), elapseTo_dap due (cleared s),
    elapseTo_keeper due (cleared s)⟩
  change due ≤ ((cleared s).elapseTo due).now
  rw [elapseTo_now]
  exact Nat.le_max_right _ _

/-- A nonce ends 60 s after its issue. -/
theorem nonceExpiry_spec {r : Req} {s : State} {nonce : List Byte} {due : Nat}
    (hnonce : (s.auth.get r).nonce = some nonce) (hdue : (s.auth.get r).nonceAt + 60000000001 = due) :
    ∃ t, exec (.nonceExpiry r) s = .next t ∧ (t.auth.get r).nonce = none ∧ due ≤ t.now ∧ t.nv = s.nv ∧
      t.dap = s.dap ∧ t.keeper = s.keeper := by
  have hrun : execNonceExpiry r s = .next (answered s (nonceEnded r due s)) := by
    have hlit : (s.auth.get r).nonceAt + 60000000000 + 1 = due := by omega
    subst hlit
    unfold execNonceExpiry
    refine answer_eq (if_neg ?_)
    rw [cleared_auth, hnonce]
    exact Bool.false_ne_true
  exact ⟨_, hrun, nonceEnded_spec r due s⟩

/-! ### A transition asked for and recorded -/

theorem transitionRecord_of_none {s : State} (h : s.nv.recording = none) : transitionRecord s = s := by
  unfold transitionRecord
  rw [h]

section
variable {s : State} (hidle : s.nv.recording = none)
include hidle

theorem setState_refused {r : Req} {arg : Nat} (h : transition s.nv.sec (SecState.at arg) = none) :
    setState r arg s = authResult r 5 s := by
  unfold setState
  simp only [transitionRecord_of_none hidle, h]

theorem setState_listed {r : Req} {arg : Nat} {signed cold : Bool}
    (h : transition s.nv.sec (SecState.at arg) = some (signed, cold))
    (hkey : s.nv.sec = .provisioning → ownerKeyValid s.nv.ownerKey = true) :
    setState r arg s =
      (let record := fun (s : State) => { s with nv := { s.nv with recording := some (r, SecState.at arg, cold) } }
      if signed then withSignature r 2 arg record s else record s) := by
  have hvalid : ¬ (decide (s.nv.sec = .provisioning) && !ownerKeyValid s.nv.ownerKey) = true := by
    simp only [Bool.and_eq_true, decide_eq_true_eq, Bool.not_eq_true', not_and, Bool.not_eq_false]
    exact hkey
  unfold setState
  simp only [transitionRecord_of_none hidle, h]
  exact if_neg hvalid

end

/-- A submission that needs a signature, by its nonce and its signature. -/
theorem withSignature_eq (r : Req) (action arg : Nat) (ok : State → State) (s : State) :
    withSignature r action arg ok s =
      (let a := s.auth.get r
      let used := s.modAuth r fun a => { a with nonce := none }
      if nonceValid s a = false then authResult r 4 s
      else if ecdsaVerify s.nv.ownerKey (authMessage r (a.nonce.getD []) action arg) (a.sigR.take 48)
        (a.sigS.take 48) then ok used
      else authResult r 3 used) := by
  unfold withSignature
  simp only [Bool.not_eq_true']

/-- A submission that needs a signature dirties a line only where its effect does. -/
theorem withSignature_dirty {r : Req} {action arg : Nat} {ok : State → State} {s : State}
    (hok : ∀ x : State, x.durab.dirty = s.durab.dirty → (ok x).durab.dirty = s.durab.dirty) :
    (withSignature r action arg ok s).durab.dirty = s.durab.dirty := by
  rw [withSignature_eq]
  dsimp only
  split
  · rfl
  · split
    · exact hok _ rfl
    · rfl

/-- The record of a transition: pending until a cold power-on, or in effect with every grant ended. -/
theorem transitionRecord_spec {r : Req} {target : SecState} {cold : Bool} {s : State}
    (hrec : s.nv.recording = some (r, target, cold)) :
    let t := transitionRecord s
    t.nv.recording = none ∧ t.nv.sec = (if cold then s.nv.sec else target) ∧
    t.nv.pendingSealed = (cold || s.nv.pendingSealed) ∧ (t.auth.get r).result = (if cold then 2 else 1) ∧
    t.mram = s.mram ∧ (cold = true → t.ledger = s.ledger) ∧
    (cold = false → (∀ q, (t.auth.get q).nonce = none) ∧ t.dap.halted = [] ∧
      t.dap.grant = (if target = .provisioning then 3 else 0)) := by
  unfold transitionRecord
  rw [hrec]
  cases cold with
  | true => exact ⟨rfl, rfl, rfl, by simp [authResult, State.modAuth], rfl, fun _ => rfl, nofun⟩
  | false =>
    have hresumed := resumeHalts_sameGuard { s with nv := { s.nv with recording := none, sec := target } }
    simp only [Bool.false_eq_true, if_false, endGrants]
    generalize resumeHalts { s with nv := { s.nv with recording := none, sec := target } } = x at *
    obtain ⟨hnv, hkeeper, hauth, hdap, hmram, hclosed⟩ := hresumed
    simp only [authResult, State.modAuth, baseGrant, hnv, hmram, hdap]
    refine ⟨trivial, trivial, by simp, by simp, trivial, nofun, fun _ => ⟨fun q => ?_, trivial, trivial⟩⟩
    cases r <;> cases q <;> rfl

/-- Settles O52: it holds. -/
theorem authorizationAndTransitions : Obligations.AuthorizationAndTransitions := by
  unfold Obligations.AuthorizationAndTransitions
  refine ⟨fun r s hopen => ⟨exec_newNonce hopen, exec_authNone hopen, fun arg hjudge hidle hnone => ?_,
    fun nonce hnonce => nonceExpiry_spec hnonce rfl⟩, fun r arg signed cold s hopen hjudge hidle hlisted hkey => ?_,
    fun r target cold s haux hserves hrec => ?_⟩
  · exact exec_setState hopen hjudge (setState_refused (s := cleared s) hidle hnone) rfl
  · intro w a recorded used good
    have heffect := setState_listed (s := cleared s) (r := r) hidle hlisted hkey
    cases signed with
    | false => exact exec_setState hopen hjudge heffect rfl
    | true =>
      have hrun := exec_setState (t := withSignature r 2 arg.toNat recorded w) hopen hjudge heffect
        (withSignature_dirty fun x hx => hx)
      exact hrun.trans (congrArg (fun t => Host.Outcome.next (answered s t)) (withSignature_eq ..))
  · refine ⟨_, answer_eq (if_pos ?_), transitionRecord_spec (s := cleared s) hrec⟩
    simp only [Bool.and_eq_true]
    exact ⟨haux, hserves⟩

end Sys2Proof.Machine
end

section
/-!
Scan and the instructions of the TAP.
-/

namespace Sys2Proof.Machine

open Sys2Proof

/-! ### Debug commands through HYDAP (SD.7.3, SD.7.6) -/

/-- A debug command as HYDAP takes it: the access captured, its effect still to come. -/
def dapTaken (op : Nat) (s : State) : State :=
  { cleared s with dap := { s.dap with
    capReg := 6, capWrite := true, capData := BitVec.ofNat 32 op, capStatus := 0 } }

theorem dapCommand_taken {s : State} (hlive : tapLive s = true) (hsel : s.dap.tap = .hydap) (op : Nat)
    (f : State → State) : answer s (dapCommand op f) = .next (answered s (f (dapTaken op s))) := by
  refine answer_eq (if_neg ?_)
  rw [show tapLive (cleared s) = true from hlive, cleared_dap, hsel]
  decide

/-! ### Scan -/

theorem failLedgerReads_inbox (s : State) : (failLedgerReads s).ledger.inbox = s.ledger.inbox := by
  unfold failLedgerReads
  extract_lets t u
  have hfences : t.ledger = s.ledger :=
    foldl_rel (R := fun s t => t.ledger = s.ledger) (fun _ => rfl) (fun h k => k.trans h)
      (fun s r => by simp) _ s
  have hreads : u.ledger = t.ledger :=
    foldl_rel (R := fun s t => t.ledger = s.ledger) (fun _ => rfl) (fun h k => k.trans h)
      (f := fun s (r : Port × Nat × Nat × Nat) => s.emit (.readBytes r.1 (List.replicate r.2.2.1 (0 : Byte)) false))
      (fun _ _ => rfl) _ t
  exact (congrArg Ledger.inbox (hreads.trans hfences) :)

/-- With every clock running, no piece is left in a Ledger island once they are persistent. -/
theorem persistAll_inbox {s : State} (h : s.power.lockLost = []) : (persistAll s).ledger.inbox = [] := by
  unfold persistAll
  extract_lets runs ps
  have hruns : ∀ p : Piece, runs p = true := fun p => by
    simp only [runs, h]
    rfl
  have hkept := foldl_rel (R := fun s t => t.ledger.inbox = s.ledger.inbox) (fun _ => rfl) (fun h k => k.trans h)
    (f := fun s p => persisted p s) (fun s p => persisted_inbox p s) ps
    (s.modLedger fun l => { l with inbox := l.inbox.filter fun p => !runs p })
  refine hkept.trans ?_
  change s.ledger.inbox.filter (fun p => !runs p) = []
  simp [hruns]

/-- What an entry into Scan sets. -/
theorem enterScan_spec (s : State) :
    let t := enterScan s
    t.keeper.scan = true ∧ t.keeper.rdy = false ∧ t.ledger.stream = [] ∧
    (s.power.lockLost = [] → t.ledger.inbox = []) := by
  refine ⟨rfl, ?_, rfl, fun hlock => ?_⟩
  · change (clearRdy (fenceReadsDone (persistAll s))).keeper.rdy = false
    rw [(clearRdy_sameGuard _).keeper]
  · change (failLedgerReads _).ledger.inbox = []
    rw [failLedgerReads_inbox]
    exact (ReadsEnd.fenceReadsDone _).inbox.trans (persistAll_inbox hlock)

section
variable {s : State} (hlive : tapLive s = true) (hsel : s.dap.tap = .hydap)
include hlive hsel

theorem scanEnter_now (hcheck : dapCheck s 3 = none) (hoff : s.dur.g.mirrorEnable = false) :
    ∃ t, exec .scanEnter s = .next t ∧ t.keeper.scan = true ∧ t.keeper.rdy = false ∧ t.fabric.shutter = true ∧
      (s.power.lockLost = [] → t.ledger.inbox = []) ∧ t.ledger.stream = [] ∧ t.nv = s.nv ∧ t.mram = s.mram := by
  refine ⟨_, dapCommand_taken hlive hsel 4 dapScanEnter, ?_⟩
  have henters : dapScanEnter (dapTaken 4 s) = dapStatus dapOk (enterScan (setShutter true (dapTaken 4 s))) := by
    unfold dapScanEnter
    rw [show dapCheck (dapTaken 4 s) 3 = none from hcheck]
    exact if_pos (by rw [show (setShutter true (dapTaken 4 s)).dur.g.mirrorEnable = false from hoff]; rfl)
  rw [henters]
  obtain ⟨hscan, hrdy, hstream, hinbox⟩ := enterScan_spec (setShutter true (dapTaken 4 s))
  have hframe := enterScan_frame (setShutter true (dapTaken 4 s))
  dsimp only at hframe
  generalize enterScan (setShutter true (dapTaken 4 s)) = x at *
  exact ⟨hscan, hrdy, (congrArg (fun s : State => s.fabric.shutter) hframe :), hinbox, hstream,
    (congrArg State.nv hframe :), (congrArg State.mram hframe :)⟩

theorem scanEnter_asks (hcheck : dapCheck s 3 = none) (hon : s.dur.g.mirrorEnable = true) :
    ∃ t, exec .scanEnter s = .next t ∧ t.keeper.scanWanted = true ∧ t.keeper.scan = s.keeper.scan ∧
      t.fabric.shutter = true ∧ t.durab.ckpt.isSome = true ∧ t.nv = s.nv ∧ t.ledger = s.ledger := by
  refine ⟨_, dapCommand_taken hlive hsel 4 dapScanEnter, ?_⟩
  have hasks : dapScanEnter (dapTaken 4 s) = dapStatus dapOk (requestRoot { setShutter true (dapTaken 4 s) with
      keeper := { s.keeper with scanWanted := true } }) := by
    unfold dapScanEnter
    rw [show dapCheck (dapTaken 4 s) 3 = none from hcheck]
    exact if_neg (by rw [show (setShutter true (dapTaken 4 s)).dur.g.mirrorEnable = true from hon]; decide)
  rw [hasks]
  unfold requestRoot
  split
  · exact ⟨rfl, rfl, rfl, rfl, rfl, rfl⟩
  · next hbusy =>
    refine ⟨rfl, rfl, rfl, ?_, rfl, rfl⟩
    change s.durab.ckpt.isSome = true
    have hbusy' : ¬ (s.dur.g.mirrorEnable && s.durab.ckpt.isNone) = true := hbusy
    simpa [hon, Option.ne_none_iff_isSome] using hbusy'

theorem scanExit_resets (hscan : s.keeper.scan = true) (hram : s.keeper.ramStopped = false)
    (hstate : s.keeper.pstate ≠ .p4) : ∃ t, exec .scanExit s = .next t ∧ t.keeper.pstate = .p4 ∧
      t.keeper.scan = false ∧ t.keeper.nextCause = 6 ∧ t.mram = s.mram ∧ t.dur = .initial := by
  refine ⟨_, dapCommand_taken hlive hsel 5 dapScanExit, ?_⟩
  have hexits : dapScanExit (dapTaken 5 s) = dapStatus dapOk (keeperDiscard 6 (dapTaken 5 s)) := if_pos hscan
  have haux : s.keeper.vddAux = true := (Bool.and_eq_true _ _ ▸ hlive).1
  rw [hexits, keeperDiscard_of_powered (s := dapTaken 5 s) 6 hram haux hstate]
  have hmram : (discardReady (dapTaken 5 s)).mram = s.mram := (discardReady_sameGuard _).mram
  generalize discardReady (dapTaken 5 s) = x at *
  exact ⟨rfl, rfl, rfl, hmram, rfl⟩

theorem scanExit_refused (hscan : s.keeper.scan = false) : ∃ t, exec .scanExit s = .next t ∧
    t.dap.capStatus = 5 ∧ t.keeper = s.keeper ∧ t.nv = s.nv ∧ t.dur = s.dur ∧ t.ledger = s.ledger := by
  refine ⟨_, dapCommand_taken hlive hsel 5 dapScanExit, ?_⟩
  have hrefused : dapScanExit (dapTaken 5 s) = dapStatus dapBadArg (dapTaken 5 s) :=
    if_neg (by rw [show (dapTaken 5 s).keeper.scan = false from hscan]; decide)
  rw [hrefused]
  exact ⟨rfl, rfl, rfl, rfl, rfl⟩

end

/-! ### The instructions of the TAP (SD.7.2) -/

/-- The TAP with an instruction selected. -/
def tapped (i : TapInstr) (s : State) : State := { cleared s with dap := { s.dap with tap := i } }

section
variable {s : State} (hlive : tapLive s = true)
include hlive

theorem tapSelect_live (i : TapInstr) (width value : Nat) :
    tapSelect i width value (cleared s) = (tapped i s).emit (.tdo width value) := if_pos hlive

theorem tapSelect_draw (i : TapInstr) (width value : Nat) :
    tapSelect i width value (cleared s).draw = (tapped i s).draw.emit (.tdo width value) := if_pos hlive

theorem exec_hyscan_active (hscan : s.keeper.scan = true) : exec .hyscan s =
    .next (answered s ((tapped .hyscan s).draw.emit (.tdo 32 (Config.scanChain s.free).toNat))) := by
  change execHyscan s = _
  unfold execHyscan
  exact answer_eq ((if_pos hscan).trans (tapSelect_draw hlive ..))

theorem exec_hyscan_idle (hscan : s.keeper.scan = false) : exec .hyscan s =
    .next (answered s ((tapped .hyscan s).emit (.tdo 1 0))) := by
  change execHyscan s = _
  unfold execHyscan
  exact answer_eq ((if_neg (Bool.eq_false_iff.mp hscan)).trans (tapSelect_live hlive ..))

theorem exec_samplePreload : exec .samplePreload s =
    .next (answered s ((tapped .sample s).draw.emit (.tdo 32 (Config.boundaryScan s.free).toNat))) := by
  change execSamplePreload s = _
  unfold execSamplePreload
  exact answer_eq (tapSelect_draw hlive ..)

theorem extest_bypassed {i : TapInstr} (hstate : s.keeper.pstate = .p3 ∨ s.keeper.pstate = .p5) :
    extest i (cleared s) = (tapped i s).emit (.tdo 1 0) := by
  refine (if_neg (by rw [show tapLive (cleared s) = true from hlive]; decide)).trans (if_neg ?_)
  change ¬ (tapped i s).extestHeld = true
  unfold State.extestHeld
  rcases hstate with h | h <;> simp [tapped, h]

end

theorem resetAborted_dap (p : Port) (s : State) : (resetAborted p s).dap = s.dap := by
  have hcopies : (clearCopies p s).dap = s.dap := by cases p <;> rfl
  by_cases h : s.hatch.owner = some p.req
  · exact (resetAborted_of_owner p s h).dap.trans hcopies
  · rw [resetAborted_of_not_owner p s h, hcopies]

/-- A link that goes down takes its port's reset with it, and nothing of what is durable. -/
structure LinkDown (p : Port) (s t : State) : Prop where
  down : (t.port p).linkUp = false
  other : (t.port p.other).linkUp = (s.port p.other).linkUp
  keeper : t.keeper = s.keeper
  nv : t.nv = s.nv
  mram : t.mram = s.mram
  mem : t.ledger.mem = s.ledger.mem
  dap : t.dap = s.dap

theorem linkGoesDown_linkDown (p : Port) (s : State) : LinkDown p s (linkGoesDown p s) := by
  unfold linkGoesDown
  generalize hdown : s.modPort p (fun x => { x with linkUp := false }) = u
  obtain ⟨-, -, -, hkeeper, hnv, hmram, hmem, hport, hother⟩ := resetDone_spec p u
  have hdap := (resetDone_keepsPorts p (resetAborted p u)).dap.trans (resetAborted_dap p u)
  rw [portReset_eq]
  generalize resetDone p (resetAborted p u) = t at *
  have hup : (t.port p).linkUp = (u.port p).linkUp := congrArg (·.1) hport
  have hotherUp : (t.port p.other).linkUp = (u.port p.other).linkUp := congrArg (·.1) hother
  subst hdown
  refine ⟨?_, ?_, ?_, ?_, ?_, ?_, ?_⟩ <;> simp_all

/-- A link that is up goes down; one that is down stays. -/
theorem linkDown_if (p : Port) (s : State) :
    LinkDown p s (if (s.port p).linkUp then linkGoesDown p s else s) := by
  split
  · exact linkGoesDown_linkDown p s
  · next hdown => exact ⟨Bool.eq_false_iff.mpr hdown, rfl, rfl, rfl, rfl, rfl, rfl⟩

/-- The instructions of the EXTEST family. -/
def TapInstr.isExtest : TapInstr → Bool
  | .extest | .extestPulse | .extestTrain => true
  | _ => false

theorem extestHeld_of_run {i : TapInstr} {s : State} (hi : i.isExtest = true) (hp3 : s.keeper.pstate ≠ .p3)
    (hp5 : s.keeper.pstate ≠ .p5) : (tapped i s).extestHeld = true := by
  have hstate : (match s.keeper.pstate with
      | .p3 | .p5 => false
      | _ => true) = true := by
    cases h : s.keeper.pstate <;> simp_all
  unfold State.extestHeld
  rw [Bool.and_eq_true]
  exact ⟨hi, hstate⟩

/-- An instruction of the EXTEST family holds both links down. -/
theorem extest_holds {i : TapInstr} {s : State} (hlive : tapLive s = true) (hheld : (tapped i s).extestHeld = true) :
    let t := extest i (cleared s)
    t.portA.linkUp = false ∧ t.portB.linkUp = false ∧ t.extestHeld = true ∧ t.nv = s.nv ∧ t.mram = s.mram ∧
    t.ledger.mem = s.ledger.mem ∧ t.keeper = s.keeper := by
  have hruns : extest i (cleared s) =
      (let x := if ((tapped i s).port .a).linkUp then linkGoesDown .a (tapped i s) else tapped i s
      let y := if (x.port .b).linkUp then linkGoesDown .b x else x
      y.draw.emit (.tdo 32 (Config.boundaryScan y.free).toNat)) :=
    (if_neg (by rw [show tapLive (cleared s) = true from hlive]; decide)).trans (if_pos hheld)
  rw [hruns]
  extract_lets x y t
  have hx : LinkDown .a (tapped i s) x := linkDown_if ..
  have hy : LinkDown .b x y := linkDown_if ..
  clear_value x y
  have hdap : t.dap = (tapped i s).dap := hy.dap.trans hx.dap
  have hkeeper : t.keeper = s.keeper := hy.keeper.trans hx.keeper
  refine ⟨hy.other.trans hx.down, hy.down, ?_, hy.nv.trans hx.nv, hy.mram.trans hx.mram, hy.mem.trans hx.mem, hkeeper⟩
  unfold State.extestHeld at hheld ⊢
  rw [hdap, hkeeper]
  exact hheld

/-- Settles O55: it holds. -/
theorem scanAndTap : Obligations.ScanAndTap := by
  unfold Obligations.ScanAndTap
  refine ⟨fun s hlive hsel => ⟨scanEnter_now hlive hsel, scanEnter_asks hlive hsel, scanExit_resets hlive hsel,
    scanExit_refused hlive hsel⟩, fun s hlive => ?_⟩
  intro w
  refine ⟨answer_eq (tapSelect_live hlive ..), answer_eq (tapSelect_live hlive ..),
    answer_eq (tapSelect_live hlive ..), exec_samplePreload hlive, exec_hyscan_active hlive,
    exec_hyscan_idle hlive, fun hstate => ⟨answer_eq (extest_bypassed hlive hstate),
    answer_eq (extest_bypassed hlive hstate), answer_eq (extest_bypassed hlive hstate)⟩, fun hp3 hp5 c hc => ?_⟩
  simp only [List.mem_cons, List.not_mem_nil, or_false] at hc
  rcases hc with rfl | rfl | rfl
  · exact ⟨_, rfl, extest_holds hlive (extestHeld_of_run rfl hp3 hp5)⟩
  · exact ⟨_, rfl, extest_holds hlive (extestHeld_of_run rfl hp3 hp5)⟩
  · exact ⟨_, rfl, extest_holds hlive (extestHeld_of_run rfl hp3 hp5)⟩

end Sys2Proof.Machine
end

section
/-!
Debug grants, HALT and RELEASE, and the accesses of HYDAP.
-/

namespace Sys2Proof.Machine

open Sys2Proof

/-! ### What the halts' release leaves -/

/-- The flow of the Ledger changes the Ledger, the reads that it lets complete and the islands that it wakes. -/
def FlowStep (s t : State) : Prop :=
  t = { s with ledger := t.ledger, conduct := t.conduct, out := t.out, power := t.power }

namespace FlowStep

theorem refl (s : State) : FlowStep s s := rfl

theorem trans {s t u : State} (h : FlowStep s t) (k : FlowStep t u) : FlowStep s u := by
  unfold FlowStep at *
  rw [k, h]

theorem wakeUp (s : State) (i : Nat) : FlowStep s (s.wakeUp i) := by
  unfold FlowStep
  rw [wakeUp_frame]

theorem flowPort (p : Port) (n : Nat) (s : State) : FlowStep s (flowPort p n s) := by
  induction n generalizing s with
  | zero => exact refl s
  | succ n ih =>
    unfold Machine.flowPort
    split
    · exact refl s
    · split
      · exact ((wakeUp ..).trans (u := State.modLedger _ _) rfl).trans (ih _)
      · exact refl s

theorem finishRead (p : Port) (off len : Nat) (s : State) : FlowStep s (finishRead p off len s) := by
  unfold Machine.finishRead
  dsimp only
  split
  · rfl
  · refine (wakeUp s (idLedger (off / 4096 % 4))).trans ?_
    split <;> rfl

theorem ledgerFlow (s : State) : FlowStep s (ledgerFlow s) := by
  refine ((flowPort ..).trans (flowPort ..)).trans (foldl_rel refl trans (fun s r => ?_) _ _)
  split
  · exact trans (t := s.modLedger fun l => { l with reads := l.reads.erase r }) rfl (finishRead ..)
  · exact refl s

end FlowStep

theorem pauseShift_sources (i dt : Nat) (s : State) : (pauseShift i dt s).dur.sources = s.dur.sources := by
  unfold pauseShift
  extract_lets
  split_ifs <;> rfl

theorem releaseHalts_sources (s : State) : (releaseHalts s).dur.sources = s.dur.sources :=
  foldl_rel (R := fun s t => t.dur.sources = s.dur.sources) (fun _ => rfl) (fun h k => k.trans h)
    (f := fun s (p : Nat × Nat) => pauseShift p.1 (s.now + 1 - p.2) s) (fun _ _ => pauseShift_sources ..) _ s

/-- The halts end: no island is halted; the Keeper, its store, the mirror MRAM, the requesters' authorization and the
sources are as they were. -/
theorem resumeHalts_spec (s : State) :
    let t := resumeHalts s
    t.dap = { s.dap with halted := [], haltedAt := [] } ∧ t.nv = s.nv ∧ t.mram = s.mram ∧ t.auth = s.auth ∧
    t.durab = s.durab ∧ t.dur.sources = s.dur.sources := by
  obtain ⟨hnv, -, hauth, hdap, hmram, -⟩ := resumeHalts_sameGuard s
  have hflow := FlowStep.ledgerFlow (releaseHalts s)
  unfold FlowStep at hflow
  have hdurab : (resumeHalts s).durab = (releaseHalts s).durab := (congrArg State.durab hflow :)
  have hdur : (resumeHalts s).dur = (releaseHalts s).dur := (congrArg State.dur hflow :)
  exact ⟨hdap, hnv, hmram, hauth, hdurab.trans (releaseHalts_keepsRoots s).durab,
    (congrArg Durable.sources hdur).trans (releaseHalts_sources s)⟩

/-! ### Debug grants (R731, R732) -/

/-- The grant set to a level. -/
theorem setGrant_spec (r : Req) (level : Nat) (s : State) :
    let t := setGrant r level s
    t.dap.grant = (if s.nv.sec = .provisioning then 3 else level) ∧ (t.auth.get r).result = 1 ∧
    (level < 2 → s.nv.sec ≠ .provisioning → t.dap.halted = []) ∧ t.nv = s.nv ∧ t.mram = s.mram ∧
    (2 ≤ level → t.ledger = s.ledger) ∧ t.durab.dirty = s.durab.dirty := by
  have hset (x : State) : (setGrant r level s = authResult r 1 { x with dap := { x.dap with
      grant := if x.nv.sec = .provisioning then 3 else level } }) →
      x.nv = s.nv → x.mram = s.mram → x.durab = s.durab →
      (level < 2 → s.nv.sec ≠ .provisioning → x.dap.halted = []) → (2 ≤ level → x.ledger = s.ledger) →
      (let t := setGrant r level s
      t.dap.grant = (if s.nv.sec = .provisioning then 3 else level) ∧ (t.auth.get r).result = 1 ∧
      (level < 2 → s.nv.sec ≠ .provisioning → t.dap.halted = []) ∧ t.nv = s.nv ∧ t.mram = s.mram ∧
      (2 ≤ level → t.ledger = s.ledger) ∧ t.durab.dirty = s.durab.dirty) := by
    intro hx hnv hmram hdurab hhalted hledger
    rw [hx]
    refine ⟨by rw [← hnv]; rfl, by simp [authResult, State.modAuth], hhalted, hnv, hmram, hledger,
      (congrArg (·.dirty) hdurab :)⟩
  by_cases hlow : (level < 2 && s.nv.sec != .provisioning) = true
  · obtain ⟨hdap, hnv, hmram, -, hdurab, -⟩ := resumeHalts_spec s
    refine hset (resumeHalts s) ?_ hnv hmram hdurab (fun _ _ => by rw [hdap]) ?_
    · unfold setGrant
      rw [if_pos hlow]
    · simp only [Bool.and_eq_true, decide_eq_true_eq] at hlow
      omega
  · refine hset s ?_ rfl rfl rfl (fun hlt hsec => absurd ?_ hlow) fun _ => rfl
    · unfold setGrant
      rw [if_neg hlow]
    · simp [hlt, hsec]

theorem debugGrant_below {r : Req} {level : Nat} {s : State} (h : level < s.dap.grant) :
    debugGrant r level s = setGrant r level s := if_pos h

theorem debugGrant_free {r : Req} {level : Nat} {s : State} (h : levelUse s.nv.sec level = .free) :
    debugGrant r level s = setGrant r level s := by
  unfold debugGrant
  rw [h]
  exact ite_self _

section
variable {r : Req} {level : Nat} {s : State} (hgrant : s.dap.grant ≤ level)
include hgrant

theorem debugGrant_refused (h : levelUse s.nv.sec level = .refused) : debugGrant r level s = authResult r 5 s := by
  unfold debugGrant
  rw [h]
  exact if_neg (Nat.not_lt.mpr hgrant)

theorem debugGrant_granted (h : levelUse s.nv.sec level = .granted) :
    debugGrant r level s = withSignature r 3 level (setGrant r level) s := by
  unfold debugGrant
  rw [h]
  exact if_neg (Nat.not_lt.mpr hgrant)

end

/-! ### HALT and RELEASE (R742, R743) -/

theorem mem_insertSorted_iff {x y : Nat} {l : List Nat} : y ∈ insertSorted x l ↔ y = x ∨ y ∈ l := by
  induction l with
  | nil => simp [insertSorted]
  | cons z zs ih =>
    unfold insertSorted
    split_ifs with hlt heq
    · exact List.mem_cons
    · subst heq
      simp
    · rw [List.mem_cons, ih, List.mem_cons]
      exact or_left_comm

/-- One island halted. -/
def haltIsland (s : State) (i : Nat) : State :=
  if i ∈ s.dap.halted then s
  else
    { s.wakeUp i with dap := { (s.wakeUp i).dap with
      halted := insertSorted i (s.wakeUp i).dap.halted
      haltedAt := mput 0 i ((s.wakeUp i).now + 1) (s.wakeUp i).dap.haltedAt } }

theorem haltIsland_frame (s : State) (i : Nat) : haltIsland s i =
    { s with
      dap := { s.dap with halted := (haltIsland s i).dap.halted, haltedAt := (haltIsland s i).dap.haltedAt }
      power := (haltIsland s i).power } := by
  unfold haltIsland
  split
  · rfl
  · rw [wakeUp_frame]

theorem haltIsland_halted (s : State) (i j : Nat) :
    j ∈ (haltIsland s i).dap.halted ↔ j ∈ s.dap.halted ∨ j = i := by
  unfold haltIsland
  split
  · next hin =>
    refine ⟨.inl, ?_⟩
    rintro (h | rfl)
    · exact h
    · exact hin
  · rw [wakeUp_frame]
    exact mem_insertSorted_iff.trans or_comm

theorem haltIslands_frame (ids : List Nat) (s : State) : haltIslands ids s =
    { s with
      dap := { s.dap with halted := (haltIslands ids s).dap.halted, haltedAt := (haltIslands ids s).dap.haltedAt }
      power := (haltIslands ids s).power } :=
  foldl_rel (R := fun s t => t = { s with
      dap := { s.dap with halted := t.dap.halted, haltedAt := t.dap.haltedAt }, power := t.power })
    (fun _ => rfl) (fun h k => by rw [k, h]) (f := haltIsland) haltIsland_frame ids s

theorem haltIslands_halted (ids : List Nat) (s : State) (j : Nat) :
    j ∈ (haltIslands ids s).dap.halted ↔ j ∈ s.dap.halted ∨ j ∈ ids := by
  change j ∈ (ids.foldl haltIsland s).dap.halted ↔ _
  induction ids generalizing s with
  | nil => simp
  | cons i ids ih =>
    rw [List.foldl_cons, ih, haltIsland_halted, List.mem_cons]
    exact or_assoc

section
variable {s : State} (hlive : tapLive s = true) (hsel : s.dap.tap = .hydap)
include hlive hsel

theorem halt_refused {code : Nat} (hcheck : dapCheck s 2 = some code) :
    exec .halt s = .next (answered s (dapStatus code (dapTaken 2 s))) := by
  have hrefused : dapHalt (dapTaken 2 s) = dapStatus code (dapTaken 2 s) := by
    unfold dapHalt
    rw [show dapCheck (dapTaken 2 s) 2 = some code from hcheck]
  exact (dapCommand_taken hlive hsel 2 dapHalt).trans (by rw [hrefused])

variable (hcheck : dapCheck s 2 = none)
include hcheck

theorem halt_badArg (hsel' : haltTargets s.dap.haltSel = none) :
    exec .halt s = .next (answered s (dapStatus 5 (dapTaken 2 s))) := by
  have hbad : dapHalt (dapTaken 2 s) = dapStatus 5 (dapTaken 2 s) := by
    unfold dapHalt
    rw [show dapCheck (dapTaken 2 s) 2 = none from hcheck,
      show haltTargets (dapTaken 2 s).dap.haltSel = none from hsel']
    rfl
  exact (dapCommand_taken hlive hsel 2 dapHalt).trans (by rw [hbad])

theorem halt_freezes {ids : List Nat} (hids : haltTargets s.dap.haltSel = some ids) :
    ∃ t, exec .halt s = .next t ∧ (∀ i, i ∈ t.dap.halted ↔ i ∈ s.dap.halted ∨ i ∈ ids) ∧ t.dap.capStatus = 0 ∧
      t.nv = s.nv ∧ t.ledger = s.ledger ∧ t.dur = s.dur ∧ t.fabric = s.fabric := by
  refine ⟨_, dapCommand_taken hlive hsel 2 dapHalt, ?_⟩
  have hhalts : dapHalt (dapTaken 2 s) = dapStatus dapOk (haltIslands ids (dapTaken 2 s)) := by
    unfold dapHalt
    rw [show dapCheck (dapTaken 2 s) 2 = none from hcheck,
      show haltTargets (dapTaken 2 s).dap.haltSel = some ids from hids]
  have hframe := haltIslands_frame ids (dapTaken 2 s)
  have hhalted := haltIslands_halted ids (dapTaken 2 s)
  rw [hhalts]
  generalize haltIslands ids (dapTaken 2 s) = x at *
  exact ⟨hhalted, rfl, (congrArg State.nv hframe :), (congrArg State.ledger hframe :), (congrArg State.dur hframe :),
    (congrArg State.fabric hframe :)⟩

end

theorem dapRelease_spec {s : State} (hlive : tapLive s = true) (hsel : s.dap.tap = .hydap) :
    ∃ t, exec .dapRelease s = .next t ∧ t.dap.halted = [] ∧ t.dap.haltedAt = [] ∧ t.dap.capStatus = 0 ∧
      t.nv = s.nv ∧ t.dur.sources = s.dur.sources ∧
      (s.ledger.stream = [] → s.ledger.reads = [] → t.ledger = s.ledger) := by
  refine ⟨_, dapCommand_taken hlive hsel 3 dapRelease, ?_⟩
  obtain ⟨hdap, hnv, -, -, -, hsources⟩ := resumeHalts_spec (dapTaken 3 s)
  have hledger := resumeHalts_ledger (s := dapTaken 3 s)
  unfold dapRelease
  generalize resumeHalts (dapTaken 3 s) = x at *
  exact ⟨(congrArg Debug.halted hdap :), (congrArg Debug.haltedAt hdap :), rfl, hnv, hsources, hledger⟩

/-! ### The accesses of HYDAP (R736) -/

section
variable {s : State} (hlive : tapLive s = true) (hsel : s.dap.tap = .hydap)
include hlive hsel

/-- An access as the next capture shows it, before its effect. -/
def dapCaptured (dr : BitVec 40) (s : State) : State :=
  { cleared s with dap := { s.dap with
    capReg := BitVec.ofNat 4 (bits dr.toNat 35 32)
    capWrite := bit dr.toNat 36
    capData := BitVec.ofNat 32 (if bit dr.toNat 36 then dr.toNat % 2 ^ 32 else dapRead s (bits dr.toNat 35 32))
    capStatus := 0 } }

theorem exec_hydapAccess (dr : BitVec 40) : exec (.hydapAccess dr) s = .next (answered s
    (if !bit dr.toNat 36 || (dapRunning s && bits dr.toNat 35 32 == 6) then dapCaptured dr s
    else dapWrite (bits dr.toNat 35 32) (dr.toNat % 2 ^ 32) (dapCaptured dr s))) := by
  change execHydapAccess dr s = _
  refine answer_eq (if_neg ?_)
  rw [show tapLive (cleared s) = true from hlive, cleared_dap, hsel]
  decide

theorem hydapAccess_reads {dr : BitVec 40} (hread : bit dr.toNat 36 = false) :
    exec (.hydapAccess dr) s = .next (answered s { cleared s with dap := { s.dap with
      capReg := BitVec.ofNat 4 (bits dr.toNat 35 32)
      capWrite := false
      capData := BitVec.ofNat 32 (dapRead s (bits dr.toNat 35 32))
      capStatus := 0 } }) := by
  have hcaptured : dapCaptured dr s = { cleared s with dap := { s.dap with
      capReg := BitVec.ofNat 4 (bits dr.toNat 35 32)
      capWrite := false
      capData := BitVec.ofNat 32 (dapRead s (bits dr.toNat 35 32))
      capStatus := 0 } } := by
    unfold dapCaptured
    rw [hread]
    rfl
  rw [exec_hydapAccess hlive hsel, if_pos (by rw [hread]; rfl), hcaptured]

/-- A write of an address register changes it and no other. -/
theorem hydapAccess_writes {dr : BitVec 40} (hwrite : bit dr.toNat 36 = true) (hreg : bits dr.toNat 35 32 ≠ 6) :
    ∃ t, exec (.hydapAccess dr) s = .next t ∧
      t.dap.addr = (if bits dr.toNat 35 32 = 2 then BitVec.ofNat 32 (dr.toNat % 2 ^ 32) else s.dap.addr) ∧
      t.dap.element = (if bits dr.toNat 35 32 = 3 then BitVec.ofNat 24 (dr.toNat % 2 ^ 32) else s.dap.element) ∧
      t.dap.haltSel = (if bits dr.toNat 35 32 = 5 then BitVec.ofNat 16 (dr.toNat % 2 ^ 32) else s.dap.haltSel) ∧
      t.dap.capStatus = 0 ∧ t.dap.data = s.dap.data ∧
      t.dap.grant = s.dap.grant ∧ t.keeper = s.keeper ∧ t.dur = s.dur ∧ t.nv = s.nv ∧ t.ledger = s.ledger := by
  refine ⟨_, exec_hydapAccess hlive hsel dr, ?_⟩
  rw [if_neg (by simp [hwrite, hreg])]
  generalize bits dr.toNat 35 32 = reg at *
  generalize dr.toNat % 2 ^ 32 = v
  unfold dapWrite
  split
  · exact ⟨rfl, rfl, rfl, rfl, rfl, rfl, rfl, rfl, rfl, rfl⟩
  · exact ⟨rfl, rfl, rfl, rfl, rfl, rfl, rfl, rfl, rfl, rfl⟩
  · exact ⟨rfl, rfl, rfl, rfl, rfl, rfl, rfl, rfl, rfl, rfl⟩
  · exact absurd rfl hreg
  · next h2 h3 h5 h6 =>
    rw [if_neg h2, if_neg h3, if_neg h5]
    exact ⟨rfl, rfl, rfl, rfl, rfl, rfl, rfl, rfl, rfl, rfl⟩

/-- A command written while one runs does not begin; another runs. -/
theorem hydapAccess_commands {dr : BitVec 40} (hwrite : bit dr.toNat 36 = true) (hreg : bits dr.toNat 35 32 = 6) :
    exec (.hydapAccess dr) s = .next (answered s
      (if dapRunning s then dapTaken (dr.toNat % 2 ^ 32) s
      else dapRun (dr.toNat % 2 ^ 32 % 16) (dapTaken (dr.toNat % 2 ^ 32) s))) := by
  have hcaptured : dapCaptured dr s = dapTaken (dr.toNat % 2 ^ 32) s := by
    unfold dapCaptured
    rw [hwrite, hreg]
    rfl
  rw [exec_hydapAccess hlive hsel, hcaptured, hwrite, hreg]
  cases dapRunning s <;> rfl

end

/-! ### PEEK (R738, R741) -/

/-- A PEEK wakes the retained islands of the object that it reads, and changes nothing else. -/
theorem peekWakes_frame (s : State) : peekWakes s = { s with power := (peekWakes s).power } := by
  unfold peekWakes
  split
  · split
    · rfl
    · refine foldl_rel (R := fun s t => t = { s with power := t.power }) (fun _ => rfl) (fun h k => by rw [k, h])
        (fun s i => ?_) _ s
      split
      · exact wakeUp_frame ..
      · rfl
  · rfl

section
variable {s : State} (hlive : tapLive s = true) (hsel : s.dap.tap = .hydap)
include hlive hsel

theorem peek_reads (hcheck : dapCheck s 1 = none) : ∃ t, exec .peek s = .next t ∧
    t.dap.data = BitVec.ofNat 32 (peekWord (dapTaken 1 s)) ∧ t.dap.capStatus = 0 ∧ t.conduct = s.conduct ∧
    t.portA = s.portA ∧ t.portB = s.portB ∧ t.queues = s.queues ∧ t.fabric = s.fabric ∧ t.durab = s.durab ∧
    t.dur = s.dur ∧ t.nv = s.nv ∧ t.ledger = s.ledger := by
  refine ⟨_, dapCommand_taken hlive hsel 1 dapPeek, ?_⟩
  have hframe := peekWakes_frame (dapTaken 1 s).draw
  unfold dapPeek
  rw [show dapCheck (dapTaken 1 s) 1 = none from hcheck]
  dsimp only
  generalize peekWord (dapTaken 1 s) = v
  generalize peekWakes (dapTaken 1 s).draw = x at *
  exact ⟨rfl, rfl, (congrArg State.conduct hframe :), (congrArg State.portA hframe :),
    (congrArg State.portB hframe :), (congrArg State.queues hframe :), (congrArg State.fabric hframe :),
    (congrArg State.durab hframe :), (congrArg State.dur hframe :), (congrArg State.nv hframe :),
    (congrArg State.ledger hframe :)⟩

theorem peek_refused {code : Nat} (hcheck : dapCheck s 1 = some code) : ∃ t, exec .peek s = .next t ∧
    t.dap.capStatus = code ∧ t.dap.data = s.dap.data ∧ t.dur = s.dur ∧ t.nv = s.nv ∧ t.ledger = s.ledger := by
  refine ⟨_, dapCommand_taken hlive hsel 1 dapPeek, ?_⟩
  unfold dapPeek
  rw [show dapCheck (dapTaken 1 s) 1 = some code from hcheck]
  exact ⟨rfl, rfl, rfl, rfl, rfl⟩

end

section
variable {r : Req} {arg : Byte} {s : State} (hopen : dictOpen s r [] = true)
  (hjudge : judgeWrite s r false .authRequest 0 [3, arg, 0, 0] = none)
include hopen hjudge

/-- A level that is set without a signature. -/
theorem debug_sets (hmay : arg.toNat < s.dap.grant ∨ levelUse s.nv.sec arg.toNat = .free) :
    ∃ t, exec (.debug r arg) s = .next t ∧
      t.dap.grant = (if s.nv.sec = .provisioning then 3 else arg.toNat) ∧ (t.auth.get r).result = 1 ∧
      (arg.toNat < 2 → s.nv.sec ≠ .provisioning → t.dap.halted = []) ∧ t.nv = s.nv ∧ t.mram = s.mram ∧
      (2 ≤ arg.toNat → t.ledger = s.ledger) := by
  have hset : debugGrant r arg.toNat (cleared s) = setGrant r arg.toNat (cleared s) :=
    hmay.elim (fun h => debugGrant_below (s := cleared s) h) (fun h => debugGrant_free (s := cleared s) h)
  obtain ⟨hgrant, hresult, hhalted, hnv, hmram, hledger, hdirty⟩ := setGrant_spec r arg.toNat (cleared s)
  exact ⟨_, exec_debug hopen hjudge hset hdirty, hgrant, hresult, hhalted, hnv, hmram, hledger⟩

/-- A level that is set by a signature. -/
theorem debug_signed (hgrant : s.dap.grant ≤ arg.toNat) (huse : levelUse s.nv.sec arg.toNat = .granted) :
    exec (.debug r arg) s =
      .next (answered s (withSignature r 3 arg.toNat (setGrant r arg.toNat) (cleared s))) := by
  refine exec_debug hopen hjudge (debugGrant_granted (s := cleared s) hgrant huse)
    (withSignature_dirty fun x hx => ?_)
  obtain ⟨-, -, -, -, -, -, hdirty⟩ := setGrant_spec r arg.toNat x
  exact hdirty.trans hx

end

/-- Settles O54: it holds. -/
theorem debugActsAsGranted : Obligations.DebugActsAsGranted := by
  unfold Obligations.DebugActsAsGranted
  refine ⟨fun r arg s hopen hjudge => ⟨fun hgrant huse => ?_, debug_sets hopen hjudge, fun hgrant huse => ?_⟩,
    fun s hlive hsel => ?_, fun s hlive hsel => ⟨fun dr => hydapAccess_reads hlive hsel,
      fun dr => hydapAccess_writes hlive hsel, fun dr => hydapAccess_commands hlive hsel, peek_reads hlive hsel,
      fun code => peek_refused hlive hsel⟩⟩
  · exact exec_debug hopen hjudge (debugGrant_refused (s := cleared s) hgrant huse) rfl
  · intro a used
    exact (debug_signed hopen hjudge hgrant huse).trans
      (congrArg (fun t => Host.Outcome.next (answered s t)) (withSignature_eq ..))
  · intro w
    exact ⟨fun code => halt_refused hlive hsel, halt_badArg hlive hsel, fun ids h => halt_freezes hlive hsel h,
      dapRelease_spec hlive hsel⟩

end Sys2Proof.Machine
end

section
/-!
MCTP messages and control requests.
-/

namespace Sys2Proof.Machine

open Sys2Proof

/-! ### What the sideband brings -/

/-- What arrives over the sideband finds the Management island awake and busy, and everything else as it was. -/
theorem sbBegun_frame (s : State) : sbBegun s = { cleared s with power := (sbBegun s).power } := by
  unfold sbBegun
  rw [wakeUp_frame]
  rfl

section
variable (s : State)

@[simp] theorem sbBegun_out : (sbBegun s).out = [] := by rw [sbBegun_frame]; rfl
@[simp] theorem sbBegun_now : (sbBegun s).now = s.now := by rw [sbBegun_frame]; rfl
@[simp] theorem sbBegun_free : (sbBegun s).free = s.free := by rw [sbBegun_frame]; rfl
@[simp] theorem sbBegun_dur : (sbBegun s).dur = s.dur := by rw [sbBegun_frame]; rfl
@[simp] theorem sbBegun_nv : (sbBegun s).nv = s.nv := by rw [sbBegun_frame]; rfl
@[simp] theorem sbBegun_dap : (sbBegun s).dap = s.dap := by rw [sbBegun_frame]; rfl
@[simp] theorem sbBegun_keeper : (sbBegun s).keeper = s.keeper := by rw [sbBegun_frame]; rfl
@[simp] theorem sbBegun_hatch : (sbBegun s).hatch = s.hatch := by rw [sbBegun_frame]; rfl
@[simp] theorem sbBegun_sideband : (sbBegun s).sideband = s.sideband := by rw [sbBegun_frame]; rfl

@[simp] theorem accepts_sbBegun (m : MctpFrom) (control : Bool) :
    accepts m control (sbBegun s) = accepts m control s := by
  rw [sbBegun_frame]
  rfl

end

/-- What arrives over the sideband acts on the state that `sbBegun` gives. -/
theorem exec_onSideband {s t : State} {f : State → State} (hserves : sbServes s = true) (heffect : f (sbBegun s) = t) :
    answer s (onSideband f) = .next (answered s t) :=
  answer_eq ((onSideband_ready f hserves).trans heffect)

/-! ### MCTP control messages (R179 to R183) -/

/-- A control response. -/
def controlResponse (m : MctpFrom) (inst : BitVec 5) (command code : Nat) (data : List Byte) : Response :=
  replyTo m ([0, inst.zeroExtend 8, BitVec.ofNat 8 command, BitVec.ofNat 8 code] ++ data)

section
variable {via : MctpFrom} {inst : BitVec 5} {s : State} (hserves : sbServes s = true)
  (haccepts : accepts via true s = true)
include hserves haccepts

theorem exec_onControl {f : State → State} {t : State} (heffect : f (sbBegun s) = t) :
    answer s (onControl via f) = .next (answered s t) :=
  exec_onSideband hserves ((if_pos ((accepts_sbBegun ..).trans haccepts)).trans heffect)

theorem exec_setEndpointId {eid : Byte} (hzero : eid ≠ 0) (hall : eid ≠ 0xFF) :
    exec (.setEndpointId via inst eid) s = .next (answered s (respond (controlResponse via inst 1 0 [0, eid, 0])
      ((if s.sideband.eid ≠ 0 ∧ s.sideband.eid ≠ eid.toNat then carrierLoss (sbBegun s) else sbBegun s).modSb fun b =>
        { b with eid := eid.toNat }))) := by
  refine exec_onControl hserves haccepts ((if_neg (by simpa using ⟨hzero, hall⟩)).trans ?_)
  simp only [sbBegun_sideband, Bool.and_eq_true, ne_eq, decide_not, Bool.not_eq_true',
    decide_eq_false_iff_not]
  rfl

theorem exec_setEndpointId_reserved {eid : Byte} (hreserved : eid = 0 ∨ eid = 0xFF) :
    exec (.setEndpointId via inst eid) s =
      .next (answered s (respond (controlResponse via inst 1 2 []) (sbBegun s))) :=
  exec_onControl hserves haccepts (if_pos (by rcases hreserved with rfl | rfl <;> rfl))

theorem exec_getMctpVersionSupport (type : Byte) :
    exec (.getMctpVersionSupport via inst type) s = .next
      (if type = 0 ∨ type = 0xFF then
        answered s (respond (controlResponse via inst 4 0 [1, 0xF1, 0xF3, 0xFF, 0x00]) (sbBegun s))
      else answered s (respond (controlResponse via inst 4 0x80 []) (sbBegun s))) := by
  by_cases htype : type = 0 ∨ type = 0xFF
  · rw [if_pos htype]
    exact exec_onControl hserves haccepts (if_pos (by rcases htype with rfl | rfl <;> rfl))
  · rw [if_neg htype]
    exact exec_onControl hserves haccepts (if_neg (by simpa [or_comm] using htype))

theorem exec_getVendorDefinedMessageSupport (sel : Byte) :
    exec (.getVendorDefinedMessageSupport via inst sel) s = .next
      (if sel = 0 then answered s (respond (controlResponse via inst 6 0
        ([0xFF, 1] ++ beBytes 4 Config.ianaNumber.toNat ++ [0, 0x10])) (sbBegun s))
      else answered s (respond (controlResponse via inst 6 2 []) (sbBegun s))) := by
  by_cases hsel : sel = 0
  · rw [if_pos hsel]
    exact exec_onControl hserves haccepts (if_pos hsel)
  · rw [if_neg hsel]
    exact exec_onControl hserves haccepts (if_neg hsel)

end

/-! ### Messages of any kind (R180 to R182, R189) -/

/-- The sender of a message. -/
def senderOf (m : MctpMsg) : MctpFrom := { dest := m.dest, src := m.src, tag := m.tag, slave := m.slave }

/-- The Mirpiral request in a message. -/
def requestOf (m : MctpMsg) (now : Nat) : MirReq :=
  { dest := m.dest, src := m.src, tag := m.tag, slave := m.slave, keep := bit (fieldAt m.bytes 6 1) 6,
    inst := BitVec.ofNat 8 (fieldAt m.bytes 7 1), version := fieldAt m.bytes 5 1, command := fieldAt m.bytes 8 1,
    bodyLen := fieldAt m.bytes 10 2, body := m.bytes.drop 12, arrived := now }

/-- A message that its packets do not make up whole, one that is too long, one to another endpoint and one of an unknown
type are dropped. -/
theorem receive_drops {m : MctpMsg} {s : State} (h : MctpMsg.whole m = false ∨ 1024 < m.bytes.length ∨
    accepts (senderOf m) (fieldAt m.bytes 0 1 == 0) s = false ∨ fieldAt m.bytes 0 1 ∉ [0x00, 0x05, 0x7F]) :
    receive m s = s := by
  unfold receive
  by_cases hdropped : (!MctpMsg.whole m || 1024 < m.bytes.length ||
      !accepts (senderOf m) (fieldAt m.bytes 0 1 == 0) s) = true
  · exact if_pos hdropped
  · have hkind : fieldAt m.bytes 0 1 ∉ [0x00, 0x05, 0x7F] := by
      rcases h with h | h | h | h
      · exact absurd (by simp [h]) hdropped
      · exact absurd (by simp [h]) hdropped
      · exact absurd (by simp [h]) hdropped
      · exact h
    simp only [List.mem_cons, List.not_mem_nil, or_false, not_or] at hkind
    obtain ⟨hcontrol, hspdm, hmirpiral⟩ := hkind
    exact (if_neg hdropped).trans ((if_neg hcontrol).trans ((if_neg hspdm).trans (if_neg hmirpiral)))

/-- A Mirpiral message that its packets make up and that is addressed here arrives. -/
theorem receive_mirpiral {m : MctpMsg} {s : State} (hwhole : MctpMsg.whole m = true) (hlen : m.bytes.length ≤ 1024)
    (haccepts : accepts (senderOf m) false s = true) (htype : fieldAt m.bytes 0 1 = 0x7F) :
    receive m s = mirArrive m s := by
  unfold receive
  dsimp only
  rw [htype, hwhole, decide_eq_false (Nat.not_lt.mpr hlen),
    show accepts { dest := m.dest, src := m.src, tag := m.tag, slave := m.slave } (0x7F == 0) s = true from haccepts]
  rfl

section
variable {m : MctpMsg} {s : State} (hiana : beNat (bytesAt m.bytes 1 4) = Config.ianaNumber.toNat)
  (hrequest : bit (fieldAt m.bytes 6 1) 7 = true)
include hiana hrequest

theorem mirArrive_full (hfull : 4 ≤ s.sideband.waiting.length) :
    mirArrive m s = respond (mirResponse (requestOf m s.now) false 0x15 []) s :=
  (if_neg (by simp [hiana, hrequest])).trans (if_pos hfull)

theorem mirArrive_joins (hroom : s.sideband.waiting.length < 4) :
    mirArrive m s = mirNext (s.modSb fun b => { b with waiting := b.waiting ++ [requestOf m s.now] }) :=
  (if_neg (by simp [hiana, hrequest])).trans (if_neg (Nat.not_le.mpr hroom))

end

/-- Settles O56: it holds. -/
theorem controlMessagesAreAnswered : Obligations.ControlMessagesAreAnswered := by
  unfold Obligations.ControlMessagesAreAnswered
  refine ⟨fun via inst s hserves haccepts => ?_, fun m s hserves => ?_⟩
  · intro w reply
    refine ⟨fun eid => exec_setEndpointId hserves haccepts, fun eid => exec_setEndpointId_reserved hserves haccepts,
      ?_, exec_onControl hserves haccepts rfl, exec_getMctpVersionSupport hserves haccepts,
      exec_onControl hserves haccepts rfl, exec_getVendorDefinedMessageSupport hserves haccepts⟩
    refine exec_onControl hserves haccepts ?_
    unfold controlGetEid
    rw [sbBegun_sideband]
    rfl
  · intro w field q via
    refine ⟨fun hdrops => exec_onSideband hserves (receive_drops ?_),
      fun hwhole hlen haccepts htype hiana hrequest => ?_⟩
    · rw [accepts_sbBegun]
      exact hdrops
    · have hrun := receive_mirpiral (s := sbBegun s) hwhole hlen ((accepts_sbBegun ..).trans haccepts) htype
      refine ⟨fun hroom => ?_, fun hfull => ?_⟩
      · rw [← sbBegun_sideband] at hroom
        have hjoins := mirArrive_joins hiana hrequest hroom
        rw [sbBegun_now] at hjoins
        exact exec_onSideband hserves (hrun.trans hjoins)
      · rw [← sbBegun_sideband] at hfull
        have hjoins := mirArrive_full hiana hrequest hfull
        rw [sbBegun_now] at hjoins
        exact exec_onSideband hserves (hrun.trans hjoins)

end Sys2Proof.Machine
end

section
/-!
The I3C commands, SMBus retries and a loss of the carrier.
-/

namespace Sys2Proof.Machine

open Sys2Proof

/-! ### A loss of the carrier (R176, R177) -/

/-- The abort of the sideband's use of the Hatch and the end of its staging. -/
def carrierAborted (s : State) : State := endStagingOf .sideband (abortOwned .sideband 4 s)

/-- What the abort of a use of the Hatch leaves. -/
theorem abortHatch_kept {s : State} {r : Req} (howner : s.hatch.owner = some r) (cause : Nat) :
    let t := abortHatch cause s
    t.sideband = s.sideband ∧ t.image = s.image ∧ t.keeper = s.keeper := by
  have hraised := FabricStep.raise (releaseHatch ((s.modConducts fun c => { c with
    abortLog := abortEntry r cause s.hatch, status := c.status ||| 4 }).mgmt 1)) 0x101053
  rw [← abortHatch_eq howner cause] at hraised
  unfold FabricStep at hraised
  dsimp only
  rw [hraised]
  exact ⟨rfl, rfl, rfl⟩

/-- The sideband's use of the Hatch, if it has one, is aborted with cause 4. -/
theorem abortOwned_sideband (s : State) :
    let t := abortOwned .sideband 4 s
    t.hatch.owner = (if s.hatch.owner = some .sideband then none else s.hatch.owner) ∧
    (s.hatch.owner = some .sideband → t.conduct.a.abortLog.cause = 4 ∧ t.conduct.b.abortLog.cause = 4 ∧
      t.conduct.sb.abortLog.cause = 4) ∧
    t.sideband = s.sideband ∧ t.image = s.image ∧ t.keeper = s.keeper ∧ t.dur = s.dur ∧ t.nv = s.nv ∧
    t.ledger = s.ledger := by
  by_cases howner : s.hatch.owner = some .sideband
  · obtain ⟨hhatch, -, hlog, -, -, hdur, hnv, hledger⟩ := abortHatch_spec howner 4
    obtain ⟨hsideband, himage, hkeeper⟩ := abortHatch_kept howner 4
    have haborts : abortOwned .sideband 4 s = abortHatch 4 s := if_pos howner
    rw [haborts, if_pos howner]
    refine ⟨by rw [hhatch]; rfl, fun _ => ⟨?_, ?_, ?_⟩, hsideband, himage, hkeeper, hdur, hnv, hledger⟩
    · exact congrArg AbortLog.cause (hlog .linkA)
    · exact congrArg AbortLog.cause (hlog .linkB)
    · exact congrArg AbortLog.cause (hlog .sideband)
  · have hkept : abortOwned .sideband 4 s = s := if_neg howner
    rw [hkept, if_neg howner]
    exact ⟨rfl, fun h => absurd h howner, rfl, rfl, rfl, rfl, rfl, rfl⟩

/-- The end of a requester's staging changes the image alone. -/
theorem endStagingOf_spec (r : Req) (s : State) :
    let t := endStagingOf r s
    t = { s with image := t.image } ∧
    (s.image.owner = some r → s.image.state ≠ .applying → t.image.owner = none) ∧
    (s.image.owner ≠ some r → t.image = s.image) := by
  unfold endStagingOf
  split
  · next hends =>
    have howner := (Bool.and_eq_true _ _ ▸ hends).1
    exact ⟨rfl, fun _ _ => rfl, fun hother => absurd (of_decide_eq_true howner) hother⟩
  · next hstays => exact ⟨rfl, fun howner hidle => absurd (by simp [howner, hidle]) hstays, fun _ => rfl⟩

theorem carrierAborted_spec (s : State) :
    let t := carrierAborted s
    t.hatch.owner = (if s.hatch.owner = some .sideband then none else s.hatch.owner) ∧
    (s.hatch.owner = some .sideband → t.conduct.a.abortLog.cause = 4 ∧ t.conduct.b.abortLog.cause = 4 ∧
      t.conduct.sb.abortLog.cause = 4) ∧
    (s.image.owner = some .sideband → s.image.state ≠ .applying → t.image.owner = none) ∧
    (s.image.owner ≠ some .sideband → t.image = s.image) ∧
    t.sideband = s.sideband ∧ t.keeper = s.keeper ∧ t.dur = s.dur ∧ t.nv = s.nv ∧ t.ledger = s.ledger := by
  obtain ⟨howner, hlog, hsideband, himage, hkeeper, hdur, hnv, hledger⟩ := abortOwned_sideband s
  obtain ⟨hframe, hends, hkeeps⟩ := endStagingOf_spec .sideband (abortOwned .sideband 4 s)
  unfold carrierAborted
  generalize abortOwned .sideband 4 s = x at *
  rw [himage] at hends hkeeps
  generalize endStagingOf .sideband x = t at *
  rw [hframe]
  exact ⟨howner, hlog, hends, hkeeps, hsideband, hkeeper, hdur, hnv, hledger⟩

/-- A loss of the carrier. -/
theorem carrierLoss_spec (s : State) :
    let t := carrierLoss s
    t.sideband = { s.sideband with
      current := none, waiting := [], responses := [], sent := 0, retries := 0,
      carrierLoss := satAdd 32 s.sideband.carrierLoss 1 } ∧
    t.hatch.owner = (if s.hatch.owner = some .sideband then none else s.hatch.owner) ∧
    (s.hatch.owner = some .sideband → t.conduct.a.abortLog.cause = 4 ∧ t.conduct.b.abortLog.cause = 4 ∧
      t.conduct.sb.abortLog.cause = 4) ∧
    (s.image.owner = some .sideband → s.image.state ≠ .applying → t.image.owner = none) ∧
    (s.image.owner ≠ some .sideband → t.image = s.image) ∧
    t.keeper = s.keeper ∧ t.dur = s.dur ∧ t.nv = s.nv ∧ t.ledger = s.ledger := by
  obtain ⟨howner, hlog, hends, hkeeps, hsideband, hkeeper, hdur, hnv, hledger⟩ := carrierAborted_spec s
  have hloses : carrierLoss s = { carrierAborted s with sideband := { (carrierAborted s).sideband with
      current := none, waiting := [], responses := [], sent := 0, retries := 0,
      carrierLoss := satAdd 32 (carrierAborted s).sideband.carrierLoss 1 } } := rfl
  rw [hloses]
  generalize carrierAborted s = x at *
  rw [hsideband]
  exact ⟨rfl, howner, hlog, hends, hkeeps, hkeeper, hdur, hnv, hledger⟩

/-- VDDIO goes out of range: the addresses are lost, and with them the carrier where the core is powered. -/
theorem vddioLoss_spec {s : State} (hvddio : s.keeper.vddio = true) : ∃ t, exec .vddioLoss s = .next t ∧
    t.keeper.vddio = false ∧ t.sideband.eid = 0 ∧ t.sideband.dynAddr = 0 ∧ t.sideband.hotJoined = false ∧
    t.dur = s.dur ∧ t.nv = s.nv ∧ t.ledger = s.ledger ∧ (s.powered = true → t.sideband.current = none ∧
      t.sideband.waiting = [] ∧ t.sideband.responses = [] ∧
      t.sideband.carrierLoss = satAdd 32 s.sideband.carrierLoss 1) := by
  generalize hout : { cleared s with keeper := { s.keeper with vddio := false } } = x
  have hrun : exec .vddioLoss s = .next (answered s (
      let y := if x.powered then carrierLoss x else x
      { y with sideband := { y.sideband with eid := 0, dynAddr := 0, hotJoined := false } })) := by
    subst hout
    change execVddioLoss s = _
    refine answer_eq (if_neg ?_)
    rw [show (cleared s).keeper.vddio = true from hvddio]
    decide
  refine ⟨_, hrun, ?_⟩
  obtain ⟨hsideband, -, -, -, -, hkeeper, hdur, hnv, hledger⟩ := carrierLoss_spec x
  have hpowered : x.powered = s.powered := by rw [← hout]; rfl
  have hoff : x.keeper.vddio = false := by rw [← hout]
  have hcount : x.sideband = s.sideband := by rw [← hout]; rfl
  have hdur' : x.dur = s.dur := by rw [← hout]; rfl
  have hnv' : x.nv = s.nv := by rw [← hout]; rfl
  have hledger' : x.ledger = s.ledger := by rw [← hout]; rfl
  rw [hpowered]
  by_cases hup : s.powered = true
  · rw [if_pos hup]
    generalize carrierLoss x = y at *
    refine ⟨(congrArg Keeper.vddio hkeeper).trans hoff, rfl, rfl, rfl, hdur.trans hdur', hnv.trans hnv',
      hledger.trans hledger', fun _ => ⟨?_, ?_, ?_, ?_⟩⟩
    · exact (congrArg Sideband.current hsideband :)
    · exact (congrArg Sideband.waiting hsideband :)
    · exact (congrArg Sideband.responses hsideband :)
    · rw [← hcount]
      exact (congrArg Sideband.carrierLoss hsideband :)
  · rw [if_neg hup]
    exact ⟨hoff, rfl, rfl, rfl, hdur', hnv', hledger', fun h => absurd h hup⟩

/-! ### The I3C common command codes (DS.6.2) -/

theorem i3cMode_sbBegun {s : State} (hi3c : s.keeper.straps.sbMode = false) :
    i3cMode (sbBegun s) = true := by
  unfold i3cMode
  rw [sbBegun_keeper, hi3c]
  rfl

theorem loseAddress_of_none {s : State} (haddr : s.sideband.dynAddr = 0) :
    loseAddress (sbBegun s) = (sbBegun s).modSb fun b => { b with dynAddr := 0, eid := 0 } := by
  unfold loseAddress
  rw [if_pos (by rw [sbBegun_sideband]; exact haddr)]

theorem loseAddress_of_some {s : State} (haddr : s.sideband.dynAddr ≠ 0) :
    loseAddress (sbBegun s) = (carrierLoss (sbBegun s)).modSb fun b => { b with dynAddr := 0, eid := 0 } := by
  unfold loseAddress
  rw [if_neg (by rw [sbBegun_sideband]; exact haddr)]

section
variable {s : State} (hserves : sbServes s = true) (hi3c : s.keeper.straps.sbMode = false)
include hserves hi3c

theorem exec_onI3c {f : State → State} {t : State} (heffect : f (sbBegun s) = t) :
    answer s (onI3c f) = .next (answered s t) :=
  exec_onSideband hserves ((if_pos (i3cMode_sbBegun hi3c)).trans heffect)

theorem exec_directed {f : State → State} {t : State} (haddr : s.sideband.dynAddr ≠ 0)
    (heffect : f (sbBegun s) = t) : answer s (directed f) = .next (answered s t) :=
  exec_onI3c hserves hi3c ((if_neg (by rw [sbBegun_sideband]; exact haddr)).trans heffect)

theorem exec_directed_nack (f : State → State) (haddr : s.sideband.dynAddr = 0) :
    answer s (directed f) = .next (answered s ((sbBegun s).emit .nack)) :=
  exec_onI3c hserves hi3c (if_pos (by rw [sbBegun_sideband]; exact haddr))

theorem exec_entdaa (a : BitVec 7) (haddr : s.sideband.dynAddr = 0) :
    exec (.entdaa a) s = .next (answered s (announce (((sbBegun s).emit
      (.ccc (beBytes 6 (provisionalId s.keeper) ++ [0x06, 0x00]))).modSb fun b => { b with dynAddr := a.toNat }))) := by
  refine exec_onI3c hserves hi3c ((if_neg ?_).trans ?_)
  · rw [sbBegun_sideband]
    exact not_not_intro haddr
  · unfold pidBytes
    rw [sbBegun_keeper]

theorem exec_setdasa {st : BitVec 7} (a : BitVec 7) (haddr : s.sideband.dynAddr = 0)
    (hstatic : st.toNat = 0x48 + s.keeper.straps.sbAddr % 4) : exec (.setdasa st a) s =
      .next (answered s (announce ((sbBegun s).modSb fun b => { b with dynAddr := a.toNat }))) := by
  refine exec_onI3c hserves hi3c (if_neg ?_)
  rw [sbBegun_keeper, sbBegun_sideband, ← hstatic, haddr]
  simp

theorem exec_enec_ready (ev : Byte) (hevents : s.sideband.events.getLsbD 0 = true) : exec (.enec ev) s =
    .next (answered s ((sbBegun s).modSb fun b => { b with events := b.events ||| (ev &&& 9) })) :=
  exec_onI3c hserves hi3c (if_pos (by rw [sbBegun_sideband]; exact hevents))

theorem exec_enec_first (ev : Byte) (hevents : s.sideband.events.getLsbD 0 = false) : exec (.enec ev) s =
    .next (answered s (announce ((sbBegun s).modSb fun b => { b with events := b.events ||| (ev &&& 9) }))) :=
  exec_onI3c hserves hi3c (if_neg (by rw [sbBegun_sideband, hevents]; exact Bool.false_ne_true))

theorem hotJoin_spec (haux : s.keeper.vddAux = true) (haddr : s.sideband.dynAddr = 0)
    (hfirst : s.sideband.hotJoined = false) (hevents : s.sideband.events.getLsbD 3 = true) :
    ∃ t, exec .hotJoin s = .next t ∧ t.out = [.hotJoin] ∧ t.sideband.hotJoined = true ∧ t.keeper = s.keeper ∧
      t.nv = s.nv ∧ t.dur = s.dur ∧ t.hatch = s.hatch := by
  have hserves' := hserves
  unfold sbServes mgmtServes reqReaches at hserves'
  simp only [Bool.and_eq_true] at hserves'
  obtain ⟨⟨⟨⟨hpowered, -⟩, -⟩, -⟩, hvddio, -⟩ := hserves'
  have hup : { cleared s with keeper := { s.keeper with vddio := true } } = cleared s := by
    rw [← hvddio]
    rfl
  have hrun : exec .hotJoin s = .next (answered s
      (((sbBegun s).emit .hotJoin).modSb fun b => { b with hotJoined := true })) := by
    change execHotJoin s = _
    refine answer_eq ?_
    dsimp only
    have hmode : ((cleared s).powered && (cleared s).keeper.vddAux && i3cMode (cleared s)) = true := by
      rw [Bool.and_eq_true, Bool.and_eq_true]
      exact ⟨⟨hpowered, haux⟩, by unfold i3cMode; rw [show (cleared s).keeper = s.keeper from rfl, hi3c]; rfl⟩
    rw [if_pos hmode, show { cleared s with keeper := { (cleared s).keeper with vddio := true } } = cleared s from hup]
    refine (onSideband_ready _ hserves).trans ((if_pos (i3cMode_sbBegun hi3c)).trans (if_pos ?_))
    rw [sbBegun_sideband, haddr, hfirst, hevents]
    decide
  refine ⟨_, hrun, ?_, rfl, sbBegun_keeper s, sbBegun_nv s, sbBegun_dur s, sbBegun_hatch s⟩
  change ((sbBegun s).out ++ [Output.hotJoin]).filter (Output.reaches s) = _
  rw [sbBegun_out]
  rfl

section
variable (haddr : s.sideband.dynAddr ≠ 0)
include haddr

theorem exec_setmwl_most {n : BitVec 16} (hlong : 69 ≤ n.toNat) :
    exec (.setmwl n) s = .next (answered s ((sbBegun s).modSb fun b => { b with mwl := 69 })) := by
  refine exec_directed hserves hi3c haddr ((if_neg (Nat.not_lt.mpr hlong)).trans ?_)
  rw [Nat.min_eq_left hlong]

theorem exec_setmrl_most {n : BitVec 16} (hlong : 69 ≤ n.toNat) :
    exec (.setmrl n) s = .next (answered s ((sbBegun s).modSb fun b => { b with mrl := 69 })) := by
  refine exec_directed hserves hi3c haddr ((if_neg (Nat.not_lt.mpr hlong)).trans ?_)
  rw [Nat.min_eq_left hlong]

end

end

/-! ### Retries on SMBus (R175, R176) -/

/-- A packet of a response sent again, 1 ms after its failure. -/
def sentAgain (p : Response) (n : Nat) (x : State) : State :=
  (((packetsOf p.bytes).drop n).take 1).foldl (sendPacket p)
    ((x.elapse 1000000).modSb fun b => { b with retries := b.retries + 1 })

theorem i3cMode_sbBegun_smbus {s : State} (hsmbus : s.keeper.straps.sbMode = true) :
    i3cMode (sbBegun s) = false := by
  unfold i3cMode
  rw [sbBegun_keeper, hsmbus]
  rfl

section
variable {s : State} (hserves : sbServes s = true) (hsmbus : s.keeper.straps.sbMode = true)
include hserves hsmbus

theorem exec_smbclkTimeout : exec .smbclkTimeout s = .next (answered s (carrierLoss (sbBegun s))) :=
  exec_onSideband hserves (if_neg (by rw [i3cMode_sbBegun_smbus hsmbus]; exact Bool.false_ne_true))

section
variable {p : Response} {rest : List Response} {n : Nat} (hresponses : s.sideband.responses = p :: rest)
  (hpacket : n < (packetsOf p.bytes).length) (hsent : s.sideband.sent ≤ n + 1)
include hresponses hpacket hsent

theorem exec_smbusRetry {x : State} (hx : (if s.sideband.sent ≤ n then
      (sendUpTo (n + 1) p (sbBegun s)).modSb fun b => { b with retries := 0 } else sbBegun s) = x) :
    exec (.smbusRetry n) s =
      .next (answered s (if 3 ≤ x.sideband.retries then carrierLoss x else sentAgain p n x)) := by
  change execSmbusRetry s n = _
  refine exec_onSideband hserves ?_
  dsimp only
  have hbegun : (sbBegun s).sideband.responses = p :: rest :=
    (congrArg Sideband.responses (sbBegun_sideband s)).trans hresponses
  rw [hbegun]
  refine (if_neg ?_).trans ?_
  · rw [i3cMode_sbBegun_smbus hsmbus, sbBegun_sideband, decide_eq_false (Nat.not_le.mpr hpacket),
      decide_eq_false (Nat.not_lt.mpr hsent)]
    decide
  · rw [sbBegun_sideband]
    subst hx
    rfl

end

end

/-- Settles O57: it holds. -/
theorem i3cActsAndCarrierIsLost : Obligations.I3cActsAndCarrierIsLost := by
  unfold Obligations.I3cActsAndCarrierIsLost
  refine ⟨fun s hserves hi3c => ?_, fun s => ?_, fun s hserves hsmbus => ?_, fun s => vddioLoss_spec⟩
  · intro w put say
    refine ⟨fun haddr => ⟨fun a => exec_entdaa hserves hi3c a haddr,
        fun st a hstatic => exec_setdasa hserves hi3c a haddr hstatic,
        exec_onI3c hserves hi3c (loseAddress_of_none haddr),
        exec_onI3c hserves hi3c (loseAddress_of_none haddr),
        fun a => exec_directed_nack hserves hi3c _ haddr⟩,
      exec_enec_ready hserves hi3c, exec_enec_first hserves hi3c, fun ev => exec_onI3c hserves hi3c rfl,
      hotJoin_spec hserves hi3c, fun haddr => ⟨fun a => exec_directed hserves hi3c haddr rfl,
        exec_onI3c hserves hi3c (loseAddress_of_some haddr),
        exec_onI3c hserves hi3c (loseAddress_of_some haddr),
        fun n hlong => ⟨exec_setmwl_most hserves hi3c haddr hlong, exec_setmrl_most hserves hi3c haddr hlong⟩,
        fun n hshort => ⟨exec_directed hserves hi3c haddr (if_pos hshort),
          exec_directed hserves hi3c haddr (if_pos hshort)⟩, ?_, ?_, ?_, exec_directed hserves hi3c haddr rfl,
        exec_directed hserves hi3c haddr rfl, ?_, exec_directed hserves hi3c haddr rfl⟩⟩
    · exact exec_directed hserves hi3c haddr (by rw [sbBegun_sideband])
    · exact exec_directed hserves hi3c haddr (by rw [sbBegun_sideband])
    · exact exec_directed hserves hi3c haddr (by rw [pidBytes, sbBegun_keeper])
    · exact exec_directed hserves hi3c haddr (by rw [sbBegun_free])
  · obtain ⟨hsideband, howner, hlog, hends, hkeeps, -, hdur, hnv, hledger⟩ := carrierLoss_spec s
    intro t
    change t.sideband = _ at hsideband
    rw [hsideband]
    exact ⟨rfl, rfl, rfl, rfl, rfl, rfl, howner, hlog, hends, hkeeps, hdur, hnv, hledger⟩
  · refine ⟨exec_smbclkTimeout hserves hsmbus, fun p rest n hresponses hpacket hsent => ?_⟩
    intro again
    refine ⟨fun heq hlast => ?_, fun heq hmore => ?_, fun hanew => ?_⟩
    · rw [exec_smbusRetry hserves hsmbus hresponses hpacket hsent (if_neg (by omega)), sbBegun_sideband, if_pos hlast]
    · rw [exec_smbusRetry hserves hsmbus hresponses hpacket hsent (if_neg (by omega)), sbBegun_sideband,
        if_neg (Nat.not_le.mpr hmore)]
      rfl
    · exact (exec_smbusRetry hserves hsmbus hresponses hpacket hsent (if_pos hanew)).trans rfl

end Sys2Proof.Machine
end

section
/-!
The Mirpiral requests and the delivery of responses.
-/

namespace Sys2Proof.Machine

open Sys2Proof

/-! ### The Mirpiral requests (DS.7.2 to DS.7.4) -/

section
variable (s : State)

@[simp] theorem sbOwns_sbBegun : sbOwns (sbBegun s) = sbOwns s := by simp only [sbOwns, sbBegun_hatch]
@[simp] theorem linkOwns_sbBegun : linkOwns (sbBegun s) = linkOwns s := by simp only [linkOwns, sbBegun_hatch]
@[simp] theorem mirUnderway_sbBegun : mirUnderway (sbBegun s) = mirUnderway s := by
  simp only [mirUnderway, sbOwns_sbBegun, sbBegun_hatch]

end

theorem linkOwns_of_free {s : State} (h : s.hatch.owner = none ∨ s.hatch.owner = some .sideband) :
    linkOwns s = false := by
  unfold linkOwns
  rcases h with h | h <;> rw [h] <;> decide

theorem linkOwns_of_link {s : State} (h : s.hatch.owner = some .linkA ∨ s.hatch.owner = some .linkB) :
    linkOwns s = true := by
  unfold linkOwns
  rcases h with h | h <;> rw [h] <;> decide

/-- A Hatch command of the sideband, given where none is under way, once what can be published is. -/
def commandRun (q : MirReq) (op : Nat) (s : State) : State :=
  hatchComplete (if mirUnderway s then sbBegun s else mirHatch q op (sbBegun s))

theorem mirRead_free {q : MirReq} {op : Nat} {s : State} (hfree : linkOwns s = false) :
    mirRead op q (sbBegun s) = (let x := commandRun q op s
      if x.hatch.valid then mirAnswer q x.hatch.code (mirValue q x) x else x) := by
  unfold mirRead
  rw [linkOwns_sbBegun, hfree, mirUnderway_sbBegun]
  rfl

theorem mirSet_free {q : MirReq} {s : State} (hfree : linkOwns s = false) :
    mirSet q (sbBegun s) = (let x := commandRun q 2 s
      if x.hatch.valid then
        (let y := showReadBack (x.hatch.readBack.getD (0, [])) x
        mirAnswer q x.hatch.code (mirValue q y) y)
      else x) := by
  have hrun : mirSet q (sbBegun s) = (let x := commandRun q 2 s
      if !x.hatch.valid then x
      else
        (let y := showReadBack (x.hatch.readBack.getD (0, [])) x
        mirAnswer q x.hatch.code (mirValue q y) y)) := by
    unfold mirSet
    rw [linkOwns_sbBegun, hfree, mirUnderway_sbBegun]
    rfl
  rw [hrun]
  dsimp only
  cases (commandRun q 2 s).hatch.valid <;> rfl

theorem mirRead_waits {q : MirReq} {op : Nat} {s : State} (howned : linkOwns s = true) :
    mirRead op q (sbBegun s) = sbBegun s := if_pos ((linkOwns_sbBegun s).trans howned)

theorem mirSet_waits {q : MirReq} {s : State} (howned : linkOwns s = true) :
    mirSet q (sbBegun s) = sbBegun s := if_pos ((linkOwns_sbBegun s).trans howned)

theorem current_sbBegun {q : MirReq} {s : State} (hcurrent : s.sideband.current = some q) :
    (sbBegun s).sideband.current = some q :=
  (congrArg Sideband.current (sbBegun_sideband s)).trans hcurrent

section
variable {q : MirReq} {s : State} (hserves : sbServes s = true) (hcurrent : s.sideband.current = some q)
include hserves hcurrent

/-- A request's command acts on the request being executed. -/
theorem exec_mirRun {c : Nat} {f : MirReq → State → State} {t : State} (hcommand : q.command = c)
    (heffect : f q (sbBegun s) = t) : answer s (onSideband (mirRun c f)) = .next (answered s t) := by
  refine exec_onSideband hserves ?_
  unfold mirRun
  rw [current_sbBegun hcurrent]
  exact (if_pos hcommand).trans heffect

/-- A command that leaves what waits as it is, whether it names the request or not. -/
theorem exec_mirRun_waits {c : Nat} {f : MirReq → State → State} (hwaits : f q (sbBegun s) = sbBegun s) :
    answer s (onSideband (mirRun c f)) = .next (answered s (sbBegun s)) := by
  refine exec_onSideband hserves ?_
  unfold mirRun
  rw [current_sbBegun hcurrent]
  exact (ite_congr rfl (fun _ => hwaits) fun _ => rfl).trans (ite_self _)

theorem exec_describe_absent (hcommand : q.command = 4) (hobj : objAt (mirIndex q) (mirSub q) = none) :
    exec .describe s = .next (answered s (mirAnswer q 2 (mirAddress q) (sbBegun s))) := by
  refine exec_mirRun hserves hcurrent hcommand ?_
  unfold mirDescribe
  rw [hobj]

theorem exec_describe_object {o : Obj} (hcommand : q.command = 4) (hobj : objAt (mirIndex q) (mirSub q) = some o) :
    exec .describe s = .next (answered s
      (mirAnswer q 0 (mirAddress q ++ [BitVec.ofNat 8 o.desc.type, BitVec.ofNat 8 o.desc.len,
        BitVec.ofNat 8 (rightOf s.nv.sec .linkA o o.index + 4 * rightOf s.nv.sec .linkB o o.index +
          16 * rightOf s.nv.sec .sideband o o.index), BitVec.ofNat 8 o.desc.pers.num,
        BitVec.ofNat 8 (o.bolt.getD 0xFF), 0, 0, 0] ++ leBytes 8 o.desc.lo ++ leBytes 8 o.desc.hi)
        (sbBegun s))) := by
  refine exec_mirRun hserves hcurrent hcommand ?_
  unfold mirDescribe describeRights
  rw [hobj, sbBegun_nv]

theorem exec_release_held (hcommand : q.command = 5) (howner : s.hatch.owner = some .sideband) :
    exec .release s = .next (answered s (mirAnswer q 0 [] (releaseHatch (sbBegun s)))) := by
  refine exec_mirRun hserves hcurrent hcommand (if_pos ?_)
  rw [sbOwns_sbBegun, sbOwns, howner]
  rfl

theorem exec_release_notHeld (hcommand : q.command = 5) (howner : s.hatch.owner ≠ some .sideband) :
    exec .release s = .next (answered s (mirAnswer q 0x14 [] (sbBegun s))) := by
  refine exec_mirRun hserves hcurrent hcommand (if_neg ?_)
  rw [sbOwns_sbBegun, sbOwns, beq_iff_eq]
  exact howner

theorem exec_sidebandHatchWaitExpiry (howned : linkOwns s = true) (hlow : 1 ≤ q.command) (hhigh : q.command ≤ 3) :
    exec .sidebandHatchWaitExpiry s = .next (answered s (mirAnswer q 0x12 []
      ((sbBegun s).elapseTo (q.arrived + 100000 * s.dur.g.sbHatchWait)))) := by
  change execSidebandHatchWaitExpiry s = _
  refine exec_onSideband hserves ?_
  rw [current_sbBegun hcurrent]
  refine (if_pos ?_).trans ?_
  · rw [linkOwns_sbBegun, howned, decide_eq_true ⟨hlow, hhigh⟩]
    rfl
  · rw [sbBegun_dur]
    rfl

end

/-! ### The delivery of a response (R194, R195) -/

theorem sendUpTo_hatch (n : Nat) (p : Response) (s : State) : (sendUpTo n p s).hatch = s.hatch := by
  unfold sendUpTo
  extract_lets more t
  change t.hatch = s.hatch
  simp only [t]
  split
  · refine foldl_rel (R := fun s t => t.hatch = s.hatch) (fun _ => rfl) (fun h k => k.trans h)
      (f := fun s (k : MctpPacket) => sendPacket p (if k.som then s else interrupt s) k) (fun s k => ?_) more s
    change (if k.som then s else interrupt s).hatch = s.hatch
    split
    · rfl
    · unfold interrupt
      split <;> rfl
  · exact foldl_rel (R := fun s t => t.hatch = s.hatch) (fun _ => rfl) (fun h k => k.trans h)
      (f := sendPacket p) (fun _ _ => rfl) more s

theorem exec_responseDelivered {p : Response} {rest : List Response} {s : State} (hserves : sbServes s = true)
    (hresponses : s.sideband.responses = p :: rest) :
    exec .responseDelivered s = .next (answered s
      (let y := (sendUpTo (packetsOf p.bytes).length p (sbBegun s)).modSb fun b =>
        { b with responses := rest, sent := 0, retries := 0 }
      mirNext (announce (if p.mirpiral = true ∧ s.hatch.owner = some .sideband then
        (if p.keep then hatchTouch (y.modHatch fun h => { h with valid := false }) else releaseHatch y) else y)))) := by
  refine exec_onSideband hserves ?_
  unfold deliverResponse
  rw [show (sbBegun s).sideband.responses = p :: rest from
    (congrArg Sideband.responses (sbBegun_sideband s)).trans hresponses]
  dsimp only
  have hhatch : ((sendUpTo (packetsOf p.bytes).length p (sbBegun s)).modSb fun b =>
      { b with responses := rest, sent := 0, retries := 0 }).hatch = s.hatch :=
    (sendUpTo_hatch ..).trans (sbBegun_hatch s)
  generalize (sendUpTo (packetsOf p.bytes).length p (sbBegun s)).modSb (fun b =>
    { b with responses := rest, sent := 0, retries := 0 }) = y at *
  unfold afterDelivery sbOwns
  simp only [hhatch, Bool.and_eq_true, beq_iff_eq]

/-- Settles O58: it holds. -/
theorem mirpiralRequestsAreAnswered : Obligations.MirpiralRequestsAreAnswered := by
  unfold Obligations.MirpiralRequestsAreAnswered
  refine ⟨fun q s hserves hcurrent => ?_, fun p rest s hserves hresponses => ?_⟩
  · intro w
    refine ⟨exec_describe_absent hserves hcurrent, fun o => exec_describe_object hserves hcurrent,
      exec_release_held hserves hcurrent, exec_release_notHeld hserves hcurrent, fun hfree op => ?_,
      fun howned hlow hhigh => ?_⟩
    · have hlink := linkOwns_of_free hfree
      intro x
      refine ⟨?_, ?_, ?_⟩
      · rintro hcommand rfl
        exact exec_mirRun hserves hcurrent hcommand (mirRead_free hlink)
      · rintro hcommand rfl
        exact exec_mirRun hserves hcurrent hcommand (mirRead_free hlink)
      · rintro hcommand rfl
        exact exec_mirRun hserves hcurrent hcommand (mirSet_free hlink)
    · have hlink := linkOwns_of_link howned
      exact ⟨exec_mirRun_waits hserves hcurrent (mirRead_waits hlink),
        exec_mirRun_waits hserves hcurrent (mirSet_waits hlink),
        exec_mirRun_waits hserves hcurrent (mirRead_waits hlink),
        exec_sidebandHatchWaitExpiry hserves hcurrent hlink hlow hhigh⟩
  · exact exec_responseDelivered hserves hresponses

end Sys2Proof.Machine
end

section
/-!
The SPDM requests in their order.
-/

namespace Sys2Proof.Machine

open Sys2Proof

/-! ### The SPDM responder (SD.3.3) -/

/-- An SPDM response to a request. -/
def spdmResponse (m : SpdmReq) (bytes : List Byte) : Response := replyTo m.via ([0x05] ++ bytes)

theorem spdmReply_eq (m : SpdmReq) (bytes : List Byte) (s : State) :
    spdmReply m bytes s = respond (spdmResponse m bytes) s := rfl

/-- An SPDM error: the responses are all that it changes. -/
def spdmFailed (m : SpdmReq) (code : Nat) (s : State) : State :=
  respond (spdmResponse m [0x12, 0x7F, BitVec.ofNat 8 code, 0]) s

theorem spdmError_eq (m : SpdmReq) (code : Nat) (s : State) : spdmError m code 0 s = spdmFailed m code s := rfl

/-- The negotiation as a request leaves it. -/
def spdmKept (n : Spdm) (s : State) : State := s.modSb fun b => { b with spdm := some n }

theorem modSpdm_eq {n : Spdm} {s : State} (h : s.sideband.spdm = some n) (f : Spdm → Spdm) :
    s.modSpdm f = spdmKept (f n) s := by
  have hmap : s.sideband.spdm.map f = some (f n) := by rw [h, Option.map_some]
  exact congrArg (fun x => s.modSb fun b => { b with spdm := x }) hmap

/-- The answer to a request that changes the negotiation. -/
theorem spdmReply_kept {n : Spdm} {s : State} (h : s.sideband.spdm = some n) (m : SpdmReq) (out : List Byte)
    (f : Spdm → Spdm) : spdmReply m out (s.modSpdm f) = respond (spdmResponse m out) (spdmKept (f n) s) := by
  rw [spdmReply_eq, modSpdm_eq h]

/-- A measurement is of the security state, the image applied, the debug port and the Keeper. -/
theorem measurement_sbBegun (s : State) (i : Nat) : measurement (sbBegun s) i = measurement s i := by
  rw [sbBegun_frame]
  rfl

theorem measurementBlocks_sbBegun (s : State) (ids : List Nat) :
    measurementBlocks (sbBegun s) ids = measurementBlocks s ids := by
  unfold measurementBlocks measurementBlock
  simp only [measurement_sbBegun]

theorem drawNonce_sbBegun (s : State) : drawNonce (sbBegun s) = drawNonce s := by
  rw [drawNonce, sbBegun_free, drawNonce]

theorem signature_sbBegun (s : State) (bytes : List Byte) : signature (sbBegun s) bytes = signature s bytes := by
  rw [signature, sbBegun_free, signature]

section
variable {m : SpdmReq} {s : State}

theorem spdmAfter_mismatch {ready : Spdm → Bool} {f : Spdm → State → State} (h : m.version ≠ 0x12) :
    spdmAfter ready m f s = spdmFailed m 0x41 s := if_pos h

/-- A request out of order, or of another requester. -/
theorem spdmAfter_unexpected {ready : Spdm → Bool} {f : Spdm → State → State} (hversion : m.version = 0x12)
    (h : ∀ n, s.sideband.spdm = some n → n.owner ≠ m.via.src ∨ ready n = false) :
    spdmAfter ready m f s = spdmFailed m 4 s := by
  unfold spdmAfter
  rw [if_neg (not_not_intro hversion)]
  cases hspdm : s.sideband.spdm with
  | none => rfl
  | some n =>
    refine if_neg ?_
    rw [Bool.and_eq_true, decide_eq_true_eq, not_and, Bool.not_eq_true]
    exact fun howner => (h n hspdm).resolve_left (not_not_intro howner)

theorem spdmAfter_ready {ready : Spdm → Bool} {f : Spdm → State → State} {n : Spdm} (hversion : m.version = 0x12)
    (hspdm : s.sideband.spdm = some n) (howner : n.owner = m.via.src) (hready : ready n = true) :
    spdmAfter ready m f s = f n s := by
  unfold spdmAfter
  rw [if_neg (not_not_intro hversion), hspdm]
  refine if_pos ?_
  rw [Bool.and_eq_true, decide_eq_true_eq]
  exact ⟨howner, hready⟩

end

section
variable {m : SpdmReq} {s : State} (hserves : sbServes s = true) (haccepts : accepts m.via false s = true)
include hserves haccepts

theorem exec_onSpdm {f : State → State} {t : State} (heffect : f (sbBegun s) = t) :
    answer s (onSpdm m f) = .next (answered s t) :=
  exec_onSideband hserves ((if_pos ((accepts_sbBegun ..).trans haccepts)).trans heffect)

theorem exec_getVersion (hversion : m.version = 0x10) :
    exec (.getVersion m) s = .next (answered s (respond
      (spdmResponse m [0x10, 0x04, 0, 0, 0, 1, 0x00, 0x12]) (spdmKept
        { owner := m.via.src, caps := false, algs := false,
          negotiation := [0x10, 0x84, m.param1, m.param2] ++ m.body ++ [0x10, 0x04, 0, 0, 0, 1, 0x00, 0x12],
          identity := [], measured := [] } (sbBegun s)))) := by
  refine exec_onSpdm hserves haccepts ((if_neg (not_not_intro hversion)).trans ?_)
  unfold spdmBytes
  rw [hversion]
  rfl

/-- A request of another version is answered with VersionMismatch. -/
theorem exec_spdmMismatch (hversion : m.version ≠ 0x12) : ∀ c ∈ [Instr.getCapabilities m, .negotiateAlgorithms m,
    .getDigests m, .getCertificate m, .challenge m, .getMeasurements m],
    exec c s = .next (answered s (spdmFailed m 0x41 (sbBegun s))) := by
  have hmismatch (ready : Spdm → Bool) (f : Spdm → State → State) :
      answer s (onSpdm m (spdmAfter ready m f)) = .next (answered s (spdmFailed m 0x41 (sbBegun s))) :=
    exec_onSpdm hserves haccepts (spdmAfter_mismatch hversion)
  intro c hc
  simp only [List.mem_cons, List.not_mem_nil, or_false] at hc
  rcases hc with rfl | rfl | rfl | rfl | rfl | rfl
  all_goals exact hmismatch _ _

variable (hversion : m.version = 0x12)
include hversion

theorem exec_unexpected {ready : Spdm → Bool} {f : Spdm → State → State}
    (h : ∀ n, s.sideband.spdm = some n → n.owner ≠ m.via.src ∨ ready n = false) :
    answer s (onSpdm m (spdmAfter ready m f)) = .next (answered s (spdmFailed m 4 (sbBegun s))) :=
  exec_onSpdm hserves haccepts (spdmAfter_unexpected hversion fun n hn => h n ((sbBegun_sideband s) ▸ hn))

/-- A request that comes with no algorithms negotiated. -/
theorem exec_unnegotiated (h : ∀ n, s.sideband.spdm = some n → n.owner ≠ m.via.src ∨ n.algs = false) :
    exec (.getDigests m) s = .next (answered s (spdmFailed m 4 (sbBegun s))) ∧
    exec (.getCertificate m) s = .next (answered s (spdmFailed m 4 (sbBegun s))) ∧
    exec (.challenge m) s = .next (answered s (spdmFailed m 4 (sbBegun s))) ∧
    exec (.getMeasurements m) s = .next (answered s (spdmFailed m 4 (sbBegun s))) := by
  have hunexpected (f : Spdm → State → State) :
      answer s (onSpdm m (spdmAfter Spdm.algs m f)) = .next (answered s (spdmFailed m 4 (sbBegun s))) :=
    exec_unexpected hserves haccepts hversion h
  exact ⟨hunexpected _, hunexpected _, hunexpected _, hunexpected _⟩

variable {n : Spdm} (hspdm : s.sideband.spdm = some n) (howner : n.owner = m.via.src)
include hspdm howner

theorem exec_expected {ready : Spdm → Bool} {f : Spdm → State → State} {t : State} (hready : ready n = true)
    (heffect : f n (sbBegun s) = t) : answer s (onSpdm m (spdmAfter ready m f)) = .next (answered s t) :=
  exec_onSpdm hserves haccepts ((spdmAfter_ready hversion
    ((congrArg Sideband.spdm (sbBegun_sideband s)).trans hspdm) howner hready).trans heffect)

/-- A request in its order that is answered with `out` and changes the negotiation. -/
theorem exec_answered {ready : Spdm → Bool} {f : Spdm → State → State} {out : List Byte} {g : Spdm → Spdm}
    (hready : ready n = true) (heffect : f n (sbBegun s) = spdmReply m out ((sbBegun s).modSpdm g)) :
    answer s (onSpdm m (spdmAfter ready m f)) =
      .next (answered s (respond (spdmResponse m out) (spdmKept (g n) (sbBegun s)))) :=
  exec_expected hserves haccepts hversion hspdm howner hready (heffect.trans
    (spdmReply_kept ((congrArg Sideband.spdm (sbBegun_sideband s)).trans hspdm) m out g))

/-- GET_CAPABILITIES in its order. -/
theorem exec_getCapabilities (hcaps : n.caps = false) :
    exec (.getCapabilities m) s = .next (answered s
      (let out : List Byte := [0x12, 0x61, 0, 0, 0, 16, 0, 0] ++ leBytes 4 0x16 ++ leBytes 4 1024 ++ leBytes 4 1024
      respond (spdmResponse m out) (spdmKept { n with
        caps := true
        negotiation := n.negotiation ++ ([0x12, 0xE1, m.param1, m.param2] ++ m.body) ++ out } (sbBegun s)))) := by
  refine (exec_answered hserves haccepts hversion hspdm howner (by rw [hcaps]; rfl) rfl).trans ?_
  unfold spdmBytes
  rw [hversion]
  rfl

/-- NEGOTIATE_ALGORITHMS in its order, with the algorithms that are offered. -/
theorem exec_negotiateAlgorithms (hcaps : n.caps = true) (halgs : n.algs = false)
    (hcurve : bit (fieldAt m.body 4 4) 7 = true) (hhash : bit (fieldAt m.body 8 4) 1 = true) :
    exec (.negotiateAlgorithms m) s = .next (answered s
      (let out : List Byte := [0x12, 0x63, 0, 0] ++ leBytes 2 36 ++ [1, 0] ++ leBytes 4 4 ++ leBytes 4 0x80 ++
        leBytes 4 2 ++ List.replicate 16 0
      respond (spdmResponse m out) (spdmKept { n with
        algs := true
        negotiation := n.negotiation ++ ([0x12, 0xE3, m.param1, m.param2] ++ m.body) ++ out } (sbBegun s)))) := by
  refine (exec_answered hserves haccepts hversion hspdm howner (by rw [hcaps, halgs]; rfl) (if_neg ?_)).trans ?_
  · rw [hcurve, hhash]
    decide
  · unfold spdmBytes
    rw [hversion]
    rfl

variable (halgs : n.algs = true)
include halgs

theorem exec_getDigests : exec (.getDigests m) s = .next (answered s
    (let out : List Byte := [0x12, 0x01, 0, 0x01] ++ sha384 certificates
    respond (spdmResponse m out) (spdmKept { n with
      identity := n.identity ++ ([0x12, 0x81, m.param1, m.param2] ++ m.body) ++ out } (sbBegun s)))) := by
  refine (exec_answered hserves haccepts hversion hspdm howner halgs rfl).trans ?_
  unfold spdmBytes
  rw [hversion]
  rfl

/-- GET_CERTIFICATE of a part of the chain. -/
theorem exec_getCertificate : exec (.getCertificate m) s = .next
    (let part := (certificates.drop (fieldAt m.body 0 2)).take (fieldAt m.body 2 2)
    let out : List Byte := [0x12, 0x02, 0, 0] ++ leBytes 2 part.length ++
      leBytes 2 (certificates.length - fieldAt m.body 0 2 - part.length) ++ part
    if m.param1.toNat % 16 ≠ 0 ∨ certificates.length ≤ fieldAt m.body 0 2 ∨ 1016 < part.length then
      answered s (spdmFailed m 1 (sbBegun s))
    else answered s (respond (spdmResponse m out) (spdmKept { n with
      identity := n.identity ++ ([0x12, 0x82, m.param1, m.param2] ++ m.body) ++ out } (sbBegun s)))) := by
  extract_lets part out
  by_cases hbad : m.param1.toNat % 16 ≠ 0 ∨ certificates.length ≤ fieldAt m.body 0 2 ∨ 1016 < part.length
  · rw [if_pos hbad]
    exact exec_expected hserves haccepts hversion hspdm howner halgs
      (if_pos (by simp only [Bool.or_eq_true, decide_eq_true_eq, or_assoc]; exact hbad))
  · rw [if_neg hbad]
    refine (exec_answered hserves haccepts hversion hspdm howner halgs
      (if_neg (by simp only [Bool.or_eq_true, decide_eq_true_eq, or_assoc]; exact hbad))).trans ?_
    unfold spdmBytes
    rw [hversion]
    rfl

end

end Sys2Proof.Machine
end

section
/-!
Signed challenges and measurements.
-/

namespace Sys2Proof.Machine

open Sys2Proof

/-! ### Signed challenges and measurements (R713, Tables SD-8, SD-9) -/

/-- A CHALLENGE of a summary, answered. -/
def challengeAnswer (m : SpdmReq) (n : Spdm) (sum : List Byte) (s : State) : State :=
  if m.param1 ≠ 0 || m.body.length ≠ 32 then spdmError m spdmInvalid 0 s
  else
    let out : List Byte := [0x12, 0x03, 0, 0x01] ++ sha384 certificates ++ drawNonce s ++ sum ++ [0, 0]
    let sig := signature s (n.negotiation ++ n.identity ++ spdmBytes m 0x83 ++ out)
    spdmReply m (out ++ sig) ((s.draw.draw).modSpdm fun n => { n with identity := [] })

section
variable {m : SpdmReq} {s : State} {n : Spdm}

/-- A CHALLENGE of no block, of blocks 1 and 2, or of all. -/
theorem spdmChallenge_eq {sum : List Byte} (hversion : m.version = 0x12) (hspdm : s.sideband.spdm = some n)
    (howner : n.owner = m.via.src) (halgs : n.algs = true) (hsum : (m.param2 = 0 ∧ sum = []) ∨
      (m.param2 = 1 ∧ sum = sha384 (measurementBlocks s [1, 2])) ∨
      (m.param2 = 0xFF ∧ sum = sha384 (measurementBlocks s [1, 2, 3, 4, 5, 6]))) :
    spdmChallenge m s = challengeAnswer m n sum s := by
  refine (spdmAfter_ready hversion hspdm howner halgs).trans ?_
  unfold challengeAnswer spdmBytes
  rcases hsum with ⟨h, rfl⟩ | ⟨h, rfl⟩ | ⟨h, rfl⟩
  · rw [h]
    rfl
  · rw [h]
    rfl
  · rw [h]
    rfl

/-- The bytes of a MEASUREMENTS response before its signature. -/
def measurementsOut (m : SpdmReq) (ids : List Nat) (s : State) : List Byte :=
  let record := measurementBlocks s ids
  [0x12, 0x60, if m.param2 = 0 then 6 else 0, 0, BitVec.ofNat 8 ids.length] ++
    leBytes 3 record.length ++ record ++ drawNonce s ++ [0, 0]

/-- What is signed of a GET_MEASUREMENTS and of those before it. -/
def measurementsSaid (m : SpdmReq) (n : Spdm) (ids : List Nat) (s : State) : List Byte :=
  n.measured ++ ([0x12, 0xE0, m.param1, m.param2] ++ m.body) ++ measurementsOut m ids s

theorem measurementsOut_sbBegun (m : SpdmReq) (ids : List Nat) (s : State) :
    measurementsOut m ids (sbBegun s) = measurementsOut m ids s := by
  unfold measurementsOut
  rw [measurementBlocks_sbBegun, drawNonce_sbBegun]

/-- A request for the count, for one block or for all of them. -/
theorem measurementIds {ids : List Nat} (hids : (m.param2 = 0 ∧ ids = []) ∨
      (m.param2 = 0xFF ∧ ids = [1, 2, 3, 4, 5, 6]) ∨
      (1 ≤ m.param2.toNat ∧ m.param2.toNat ≤ 6 ∧ ids = [m.param2.toNat])) :
    (if m.param2.toNat = 0 then [] else if m.param2.toNat = 0xFF then [1, 2, 3, 4, 5, 6] else [m.param2.toNat]) = ids ∧
    ¬ (6 < m.param2.toNat ∧ m.param2.toNat ≠ 0xFF) := by
  rcases hids with ⟨h, rfl⟩ | ⟨h, rfl⟩ | ⟨hlow, hhigh, rfl⟩
  · rw [h]
    decide
  · rw [h]
    decide
  · rw [if_neg (by omega), if_neg (by omega)]
    exact ⟨rfl, by omega⟩

/-- GET_MEASUREMENTS of blocks that there are, with what a signature needs. -/
theorem spdmMeasurements_eq {ids : List Nat} (hversion : m.version = 0x12) (hspdm : s.sideband.spdm = some n)
    (howner : n.owner = m.via.src) (halgs : n.algs = true) (hids : (m.param2 = 0 ∧ ids = []) ∨
      (m.param2 = 0xFF ∧ ids = [1, 2, 3, 4, 5, 6]) ∨
      (1 ≤ m.param2.toNat ∧ m.param2.toNat ≤ 6 ∧ ids = [m.param2.toNat]))
    (hsigned : bit m.param1.toNat 0 = true → m.body.length = 33 ∧ fieldAt m.body 32 1 % 16 = 0) :
    spdmMeasurements m s =
      (let said := n.measured ++ spdmBytes m 0xE0 ++ measurementsOut m ids s
      if bit m.param1.toNat 0 then
        spdmReply m (measurementsOut m ids s ++ signature s (n.negotiation ++ said))
          ((s.draw.draw).modSpdm fun n => { n with measured := [] })
      else spdmReply m (measurementsOut m ids s) (s.draw.modSpdm fun n => { n with measured := said })) := by
  obtain ⟨hlist, hindex⟩ := measurementIds hids
  have hzero : (m.param2 = 0) = (m.param2.toNat = 0) := by
    rw [← BitVec.toNat_inj]
    rfl
  refine (spdmAfter_ready hversion hspdm howner halgs).trans ((if_neg ?_).trans ?_)
  · simp only [Bool.or_eq_true, Bool.and_eq_true, decide_eq_true_eq, not_or, not_and]
    refine ⟨fun hlarge => not_not_intro ?_, fun hsign => ?_⟩
    · exact Decidable.not_not.mp fun hne => hindex ⟨hlarge, hne⟩
    · obtain ⟨hlen, hslot⟩ := hsigned hsign
      exact ⟨not_not_intro hlen, not_not_intro hslot⟩
  · unfold measurementsOut
    simp only [hlist, hzero]

end

section
variable {m : SpdmReq} {s : State} (hserves : sbServes s = true) (haccepts : accepts m.via false s = true)
  (hversion : m.version = 0x12) {n : Spdm} (hspdm : s.sideband.spdm = some n) (howner : n.owner = m.via.src)
  (halgs : n.algs = true)
include hserves haccepts hversion hspdm howner halgs

theorem exec_challenge {sum : List Byte} (hsum : (m.param2 = 0 ∧ sum = []) ∨
      (m.param2 = 1 ∧ sum = sha384 (measurementBlocks s [1, 2])) ∨
      (m.param2 = 0xFF ∧ sum = sha384 (measurementBlocks s [1, 2, 3, 4, 5, 6])))
    (hslot : m.param1 = 0) (hlen : m.body.length = 32) :
    exec (.challenge m) s = .next (answered s
      (let out : List Byte := [0x12, 0x03, 0, 0x01] ++ sha384 certificates ++ drawNonce s ++ sum ++ [0, 0]
      respond (spdmResponse m (out ++ signature s (n.negotiation ++ n.identity ++
        ([0x12, 0x83, m.param1, m.param2] ++ m.body) ++ out)))
        (spdmKept { n with identity := [] } (sbBegun s).draw.draw))) := by
  rw [← measurementBlocks_sbBegun, ← measurementBlocks_sbBegun s [1, 2, 3, 4, 5, 6]] at hsum
  have hbegun : (sbBegun s).sideband.spdm = some n := (congrArg Sideband.spdm (sbBegun_sideband s)).trans hspdm
  refine exec_onSpdm hserves haccepts ((spdmChallenge_eq hversion hbegun howner halgs hsum).trans ?_)
  refine (if_neg (by rw [hslot, hlen]; decide)).trans ?_
  dsimp only
  rw [drawNonce_sbBegun, signature_sbBegun, spdmReply_kept (s := (sbBegun s).draw.draw) hbegun, spdmBytes, hversion]
  rfl

section
variable {ids : List Nat} (hids : (m.param2 = 0 ∧ ids = []) ∨ (m.param2 = 0xFF ∧ ids = [1, 2, 3, 4, 5, 6]) ∨
    (1 ≤ m.param2.toNat ∧ m.param2.toNat ≤ 6 ∧ ids = [m.param2.toNat]))
include hids

theorem exec_getMeasurements_plain (hplain : bit m.param1.toNat 0 = false) :
    exec (.getMeasurements m) s = .next (answered s (respond (spdmResponse m (measurementsOut m ids s))
      (spdmKept { n with measured := measurementsSaid m n ids s } (sbBegun s).draw))) := by
  have hbegun : (sbBegun s).sideband.spdm = some n := (congrArg Sideband.spdm (sbBegun_sideband s)).trans hspdm
  refine exec_onSpdm hserves haccepts ((spdmMeasurements_eq hversion hbegun howner halgs hids
    fun hsign => absurd (hsign.symm.trans hplain) (by decide)).trans ?_)
  rw [measurementsOut_sbBegun]
  refine (if_neg (by rw [hplain]; exact Bool.false_ne_true)).trans ?_
  rw [spdmReply_kept (s := (sbBegun s).draw) hbegun, spdmBytes, hversion]
  rfl

theorem exec_getMeasurements_signed (hsign : bit m.param1.toNat 0 = true) (hlen : m.body.length = 33)
    (hslot : fieldAt m.body 32 1 % 16 = 0) :
    exec (.getMeasurements m) s = .next (answered s (respond (spdmResponse m (measurementsOut m ids s ++
      signature s (n.negotiation ++ measurementsSaid m n ids s)))
        (spdmKept { n with measured := [] } (sbBegun s).draw.draw))) := by
  have hbegun : (sbBegun s).sideband.spdm = some n := (congrArg Sideband.spdm (sbBegun_sideband s)).trans hspdm
  refine exec_onSpdm hserves haccepts ((spdmMeasurements_eq hversion hbegun howner halgs hids
    fun _ => ⟨hlen, hslot⟩).trans ?_)
  rw [measurementsOut_sbBegun]
  refine (if_pos hsign).trans ?_
  rw [signature_sbBegun, spdmReply_kept (s := (sbBegun s).draw.draw) hbegun, spdmBytes, hversion]
  rfl

end

end

/-- Settles O59: it holds. -/
theorem spdmRequestsAreAnswered : Obligations.SpdmRequestsAreAnswered := by
  unfold Obligations.SpdmRequestsAreAnswered
  intro m s hserves haccepts w say keep error v12 caps algs digests
  refine ⟨exec_getVersion hserves haccepts, fun h => ?_, exec_spdmMismatch hserves haccepts, fun hversion h => ?_,
    fun hversion h => ?_, exec_unnegotiated hserves haccepts,
    fun n hversion hspdm howner => ⟨?_, ?_, fun halgs => ⟨?_, ?_, ?_, ?_⟩⟩⟩
  · exact exec_onSpdm hserves haccepts (if_pos h)
  · exact exec_unexpected hserves haccepts hversion fun n hn => (h n hn).imp_right (by rintro h; rw [h]; rfl)
  · refine exec_unexpected hserves haccepts hversion fun n hn => (h n hn).imp_right ?_
    rintro (h | h)
    · rw [h]
      rfl
    · rw [h]
      exact Bool.and_false _
  · exact exec_getCapabilities hserves haccepts hversion hspdm howner
  · exact exec_negotiateAlgorithms hserves haccepts hversion hspdm howner
  · exact exec_getDigests hserves haccepts hversion hspdm howner halgs
  · exact exec_getCertificate hserves haccepts hversion hspdm howner halgs
  · intro sum hsum hslot hlen
    exact exec_challenge hserves haccepts hversion hspdm howner halgs hsum hslot hlen
  · intro ids hids
    exact ⟨exec_getMeasurements_plain hserves haccepts hversion hspdm howner halgs hids,
      exec_getMeasurements_signed hserves haccepts hversion hspdm howner halgs hids⟩

end Sys2Proof.Machine
end

section
/-!
Configuration images staged, verified, applied and discarded.
-/

namespace Sys2Proof.Machine

open Sys2Proof

/-! ### A configuration image staged, verified and discarded (DS.8, SD.4) -/

theorem stageData_idle {bs : List Byte} {s : State} (r : Req) (hidle : s.image.state ≠ .applying) :
    stageData r bs s = { s with image := { s.image with
      owner := some (s.image.owner.getD r)
      state := .staging
      error := 0
      buffer := Memory.writeN s.image.buffer s.image.offset (bytesAt bs 0 64)
      staged := max s.image.staged (s.image.offset + 64)
      offset := min 262080 (s.image.offset + 64)
      lastWrite := s.now } } := by
  unfold stageData
  dsimp only
  rw [if_neg hidle, if_neg hidle]

theorem exec_imageStageData {r : Req} {data : List Byte} {s : State} (hopen : dictOpen s r [] = true)
    (hidle : s.image.state ≠ .applying)
    (hjudge : judgeWrite s r false .stageData 0 (bytesAt data 0 64) = none) :
    exec (.imageStageData r data) s = .next (answered s { cleared s with
      image := { s.image with
        owner := some (s.image.owner.getD r)
        state := .staging
        error := 0
        buffer := Memory.writeN s.image.buffer s.image.offset (bytesAt data 0 64)
        staged := max s.image.staged (s.image.offset + 64)
        offset := min 262080 (s.image.offset + 64)
        lastWrite := s.now } }) := by
  refine answer_eq (dictCommand_of_held (o := .stageData) rfl hopen hjudge ?_ (heldBanks_same rfl))
  have hclamps : Obj.stageData.clamps (bytesAt data 0 64) = false := bne_self_eq_false _
  change (stageData r (bytesAt data 0 64) (cleared s)).clampedBy r (Obj.stageData.clamps (bytesAt data 0 64)) = _
  rw [hclamps, clampedBy_false, stageData_idle (s := cleared s) r hidle, bytesAt_idem]
  rfl

/-- A write of ImageControl, before what it asks for. -/
def controlled (c : Nat) (s : State) : State := { cleared s with image := { s.image with control := c } }

theorem imageControl_taken {r : Req} {s : State} {c : Byte} {t : State} (hopen : dictOpen s r [] = true)
    (hidle : s.image.state ≠ .applying) (hjudge : judgeWrite s r false .imageControl 0 [c] = none)
    (hclamps : Obj.imageControl.clamps [c] = false)
    (heffect : (if c.toNat = 1 then imageVerify (controlled c.toNat s)
      else if c.toNat = 2 then imageApply r (controlled c.toNat s)
      else if c.toNat = 3 then endStaging (controlled c.toNat s) else controlled c.toNat s) = t)
    (hdirty : t.durab.dirty = s.durab.dirty) :
    dictCommand r .imageControl 0 [c] (cleared s) = t := by
  refine dictCommand_of_held (o := .imageControl) rfl hopen hjudge ?_ (heldBanks_same hdirty)
  change (imageControlWrite r (leNat [c]) (cleared s)).clampedBy r (Obj.imageControl.clamps [c]) = t
  have hbyte : leNat [c] = c.toNat := by simp [leNat]
  rw [hclamps, clampedBy_false, hbyte]
  exact (if_neg hidle).trans heffect

/-- The checks of an image look at its bytes and at how much of it is staged. -/
theorem imageCheck_controlled (c : Nat) (s : State) :
    imageCheck (controlled c s) (controlled c s).image = imageCheck s s.image := rfl

theorem signatureCheck_controlled (c : Nat) (s : State) :
    signatureCheck (controlled c s) (controlled c s).image = signatureCheck s s.image := rfl

/-- An image verified by a write of ImageControl. -/
def verifiedBy (c : Nat) (s : State) : State :=
  { cleared s with image := { s.image with
    control := c
    state := if imageCheck s s.image = 0 then .verified else .failed
    error := imageCheck s s.image
    rejectDetail := if imageCheck s s.image = 5 then signatureCheck s s.image else 0 } }

theorem imageVerify_controlled (c : Nat) (s : State) : imageVerify (controlled c s) = verifiedBy c s := by
  unfold imageVerify verifiedBy
  rw [imageCheck_controlled, signatureCheck_controlled]
  rfl

/-- An image that passed its checks, taken to be applied. -/
def applying (r : Req) (s : State) : State :=
  { verifiedBy 2 s with image := { (verifiedBy 2 s).image with
    state := .applying, owner := some (s.image.owner.getD r), ignored := 0, clamped := 0,
    firstIgnored := 0xFFFFFFFF, todo := ((imgRecords s.image).getD []).zipIdx.map fun p => (p.2, p.1),
    element := 0, sequence := imgSequence s.image,
    digest := bytesAt (sha384 (imgBody s.image)) 0 64 } }

theorem imageApply_controlled (r : Req) (s : State) : imageApply r (controlled 2 s) =
    if imageCheck s s.image ≠ 0 then endStaging (verifiedBy 2 s) else applying r s := by
  unfold imageApply
  rw [imageVerify_controlled]
  by_cases hcheck : imageCheck s s.image = 0
  · have hstate : (verifiedBy 2 s).image.state = .verified := if_pos hcheck
    rw [if_neg (not_not_intro hcheck), if_neg (not_not_intro hstate)]
    rfl
  · have hstate : (verifiedBy 2 s).image.state ≠ .verified := by
      rw [show (verifiedBy 2 s).image.state = .failed from if_neg hcheck]
      decide
    rw [if_pos hcheck, if_pos hstate]

section
variable {r : Req} {s : State} (hopen : dictOpen s r [] = true) (hidle : s.image.state ≠ .applying)
include hopen hidle

theorem exec_imageVerify (hjudge : judgeWrite s r false .imageControl 0 [1] = none) :
    exec (.imageVerify r) s = .next (answered s (verifiedBy 1 s)) :=
  answer_eq (imageControl_taken hopen hidle hjudge rfl (imageVerify_controlled 1 s) rfl)

theorem exec_imageApply (hjudge : judgeWrite s r false .imageControl 0 [2] = none) :
    exec (.imageApply r) s = .next (answered s
      (if imageCheck s s.image ≠ 0 then endStaging (verifiedBy 2 s) else applying r s)) := by
  refine answer_eq (imageControl_taken hopen hidle hjudge rfl (imageApply_controlled r s) ?_)
  split <;> rfl

theorem exec_imageDiscard (hjudge : judgeWrite s r false .imageControl 0 [3] = none) :
    exec (.imageDiscard r) s = .next (answered s (endStaging (controlled 3 s))) :=
  answer_eq (imageControl_taken hopen hidle hjudge rfl rfl rfl)

end

/-! ### The apply, element by element (R204 to R208) -/

section
variable {k : Nat} {rec : ImgRec} {rest : List (Nat × ImgRec)} {s : State} (htodo : s.image.todo = (k, rec) :: rest)
include htodo

theorem applyNext_finished (hdone : rec.count ≤ s.image.element) :
    applyNext s = { s with image := { s.image with todo := rest, element := 0 } } := by
  unfold applyNext
  rw [htodo]
  exact if_pos hdone

theorem applyNext_element (hmore : s.image.element < rec.count)
    (hclocked : (elementIslands rec s.image.element).all s.clocked = true) (hroom : roomToDirty s) :
    applyNext s = (let t := writeElement (s.image.owner.getD .sideband) k rec s.image.element s
                   { t with image := { t.image with element := s.image.element + 1 } }) := by
  have hruns : ¬ (elementIslands rec s.image.element).any (fun i => !s.clocked i) = true := by
    rw [List.all_eq_true] at hclocked
    simpa using hclocked
  unfold applyNext
  rw [htodo]
  refine (if_neg (Nat.not_le.mpr hmore)).trans ((if_neg hruns).trans (if_pos ?_))
  rw [heldBanks_room _ hroom]
  rfl

end

/-- A stand-alone object changed leaves what does not stand alone. -/
theorem setG_kept (line : Nat) (f : Globals → Globals) (s : State) :
    let t := setG line f s
    t.dur.g = f s.dur.g ∧ t.dur.sources = s.dur.sources ∧ t.dur.targets = s.dur.targets ∧ t.image = s.image ∧
    t.nv = s.nv ∧ t.ledger = s.ledger := by
  unfold setG
  split
  · next hsame => exact ⟨hsame.symm, rfl, rfl, rfl, rfl, rfl⟩
  · exact ⟨rfl, rfl, rfl, rfl, rfl, rfl⟩

/-- The end of an apply with no element left: its sequence and its digest recorded, the ownership ended. -/
def applyEnded (x : State) : State :=
  let y := setG 717 (fun g => { g with imageLastSequence := x.image.sequence, imageLastDigest := x.image.digest }) x
  endStaging { y with image := { x.image with state := .applied, sequence := 0, digest := [] } }

section
variable {s : State} (hready : islandsReady s [idManagement] = true) (happlying : s.image.state = .applying)
include hready happlying

theorem exec_imageApplyEnd {t : State} (heffect : (if !(applyRest (begun s [idManagement])).image.todo.isEmpty then
      applyRest (begun s [idManagement]) else applyEnded (applyRest (begun s [idManagement]))) = t) :
    exec .imageApplyEnd s = .next (answered s t) := by
  refine answer_eq ((onArrival_ready (s := cleared s) _ (List.nodup_singleton _) hready).trans ?_)
  refine (if_neg ?_).trans heffect
  change ¬ (begun s [idManagement]).image.state ≠ .applying
  rw [begun_image]
  exact not_not_intro happlying

theorem imageApplyEnd_waits (hleft : (applyRest (begun s [idManagement])).image.todo ≠ []) :
    exec .imageApplyEnd s = .next (answered s (applyRest (begun s [idManagement]))) :=
  exec_imageApplyEnd hready happlying (if_pos (by simpa using hleft))

theorem imageApplyEnd_ends (hnone : (applyRest (begun s [idManagement])).image.todo = []) :
    exec .imageApplyEnd s = .next (answered s (applyEnded (applyRest (begun s [idManagement])))) :=
  exec_imageApplyEnd hready happlying (if_neg (by rw [hnone]; decide))

end

theorem applyEnded_spec (x : State) :
    let t := applyEnded x
    t.image.state = .applied ∧ t.image.owner = none ∧ t.dur.g.imageLastSequence = x.image.sequence ∧
    t.dur.g.imageLastDigest = x.image.digest ∧ t.image.ignored = x.image.ignored ∧
    t.image.clamped = x.image.clamped ∧ t.dur.sources = x.dur.sources ∧ t.dur.targets = x.dur.targets ∧
    t.nv = x.nv ∧ t.ledger = x.ledger := by
  obtain ⟨hg, hsources, htargets, -, hnv, hledger⟩ := setG_kept 717
    (fun g => { g with imageLastSequence := x.image.sequence, imageLastDigest := x.image.digest }) x
  unfold applyEnded
  generalize setG 717
    (fun g => { g with imageLastSequence := x.image.sequence, imageLastDigest := x.image.digest }) x = y at *
  exact ⟨rfl, rfl, (congrArg Globals.imageLastSequence hg :), (congrArg Globals.imageLastDigest hg :), rfl, rfl,
    hsources, htargets, hnv, hledger⟩

/-- 1 s without a staging write ends the ownership. -/
theorem imageStageTimeout_spec {s : State} {due : Nat} (howner : s.image.owner.isSome = true)
    (hidle : s.image.state ≠ .applying) (hdue : s.image.lastWrite + 1000000000 = due) :
    ∃ t, exec .imageStageTimeout s = .next t ∧ t.image.owner = none ∧ due ≤ t.now ∧ t.dur = s.dur ∧ t.nv = s.nv ∧
      t.ledger = s.ledger := by
  have hrun : exec .imageStageTimeout s = .next (answered s (endStaging ((cleared s).elapseTo due))) := by
    subst hdue
    change execImageStageTimeout s = _
    refine answer_eq (if_neg ?_)
    rw [cleared_image, ← Option.not_isSome, howner, beq_eq_false_iff_ne.mpr hidle]
    decide
  refine ⟨_, hrun, rfl, ?_, elapseTo_dur due (cleared s), elapseTo_nv due (cleared s), elapseTo_ledger due (cleared s)⟩
  change due ≤ ((cleared s).elapseTo due).now
  rw [elapseTo_now]
  exact Nat.le_max_right _ _

/-- Settles O60: it holds. -/
theorem imagesAreStagedAndApplied : Obligations.ImagesAreStagedAndApplied := by
  unfold Obligations.ImagesAreStagedAndApplied
  refine ⟨fun r data s hopen hidle => exec_imageStageData hopen hidle, fun r s hopen hidle => ?_,
    ⟨fun k n rec rest s htodo helement => ?_, fun s hready happlying => ?_⟩,
    fun s howner hidle => imageStageTimeout_spec howner hidle rfl⟩
  · exact ⟨exec_imageVerify hopen hidle, exec_imageApply hopen hidle, exec_imageDiscard hopen hidle⟩
  · subst helement
    exact ⟨applyNext_finished htodo, applyNext_element htodo⟩
  · exact ⟨imageApplyEnd_waits hready happlying,
      fun hnone => ⟨_, imageApplyEnd_ends hready happlying hnone, applyEnded_spec _⟩⟩

end Sys2Proof.Machine
end
